-- ==== Sys2Proof/Word.lean ====
section
/-! DEFINITION. The word types of the Maelpin ODX-9400: the field widths that the register maps and the Clause layouts
use (11 R344, R367: u8, u16, u32, u64 and the 96-bit Plinth time). -/

namespace Sys2Proof

/-- A byte of a memory, a record or a Clause. -/
abbrev Byte := BitVec 8
/-- A u8 field. -/
abbrev U8 := BitVec 8
/-- A u16 field. -/
abbrev U16 := BitVec 16
/-- A u32 field or a 32-bit register (R5). -/
abbrev U32 := BitVec 32
/-- A u64 field. -/
abbrev U64 := BitVec 64
/-- A 96-bit Plinth time field (13 R388). -/
abbrev U96 := BitVec 96

end Sys2Proof
end

