-- ==== Sys2Proof/Machine/GlossFields.lean ====
section
/-! DEFINITION. The field types of the Gloss instruction formats (09 R290). -/

namespace Sys2Proof

/-- A pointer update field (09 R290): none, +1, -1, +K. -/
inductive Upd where
  | keep
  | inc
  | dec
  | step
  deriving DecidableEq, Repr

/-- The transfer field of a P-format instruction (09 R290). -/
inductive Xfer where
  | none
  /-- a load into pair `q`: the X pointer and update, the Y pointer and update; none for a side that is off. -/
  | load (x y : Option (Fin 8 × Upd)) (q : Fin 4)
  /-- a store of register `v` through pointer `p`. -/
  | store (toY : Bool) (p : Fin 8) (u : Upd) (v : Fin 8)
  deriving DecidableEq, Repr

/-- The fields of a P-format instruction besides its opcode (09 R290). -/
structure PF where
  a : Fin 4
  m : Fin 8
  n : Fin 8
  x : Xfer
  deriving DecidableEq, Repr

/-- The fields of an R-format instruction besides its opcode (09 R290). -/
structure RF where
  dst : Fin 32
  src : Fin 32
  imm : BitVec 14
  deriving DecidableEq, Repr

/-- The fields of an M-format instruction besides its opcode (09 R290). -/
structure MF where
  inY : Bool
  reg : Fin 8
  ptr : Fin 8
  upd : Upd
  sh : Fin 32
  deriving DecidableEq, Repr

/-- The operand of EMIT (09 R297). -/
structure EF where
  inY : Bool
  ptr : Fin 8
  v : Fin 8
  mode : Fin 8
  opn : Bool
  cls : Bool
  avok : Bool
  vreq : Bool
  deriving DecidableEq, Repr

/-- What the ECC of the core's memories reported for the reads of one instruction (09 R277, R300). -/
inductive Ecc where
  | clean
  /-- a single-bit error, corrected -/
  | corrected
  /-- an uncorrectable error in X -/
  | badX
  /-- an uncorrectable error in Y -/
  | badY
  /-- an uncorrectable error in program memory -/
  | badP
  deriving DecidableEq, Repr

end Sys2Proof
end

