-- ==== Sys2Proof/Names.lean ====
section
/-! DEFINITION. The names that commands and state share: functions, worlds, the submitter of a Clause, super-tile
instances, record destinations and the error classes. -/

namespace Sys2Proof

/-- A PCIe function of the host link: F0 is the secure world, F1 the non-secure one (11 R340). -/
inductive Fn where
  | f0
  | f1
  deriving DecidableEq, Repr

/-- A world (16 R454). -/
inductive World where
  | secure
  | nonsecure
  deriving DecidableEq, Repr

/-- The queue slot a Clause came from: the function, its queue pair and the Clause's sequence number (11 R344). -/
structure Src where
  fn : Fn
  qp : Fin 8
  seq : U32
  deriving DecidableEq, Repr

/-- A command transaction on the service port after its opcode: tag, RSVD field, parameters and the CRC-32C sent (19 R534). -/
structure SvcCmd where
  tag : U8
  rsvd : U16
  params : List Byte
  crc : U32
  deriving DecidableEq, Repr

/-- A host buffer named by an H field (11 R367): its address and its length HLEN. -/
structure HBuf where
  addr : U64
  len : U32
  deriving DecidableEq, Repr

/-- What a host buffer read gives: its bytes, or nothing when the read failed or returned poison (11 R357). -/
abbrev HRead := Option (List Byte)

/-- What a run of HBM accesses is given, with what ECC and parity find on the way: pairs of an address and a finding
(10 R317, R325). -/
structure WithEcc (α : Type) where
  val : α
  ecc : List (Nat × Nat)
  deriving DecidableEq, Repr

/-- A super-tile instance: product, dwell, channel index, row block u and column block v (04 R134). -/
structure Tile where
  pid : Nat
  dwell : Nat
  chan : Nat
  u : Nat
  v : Nat
  deriving DecidableEq, Repr

/-- A place a record is offered to: a delivery ring or the feed buffer of a Gloss core (11 R360, 09 R292). -/
inductive Dest where
  | ring (fn : Fn) (n : Fin 64)
  | feed (core : Fin 32)
  deriving DecidableEq, Repr

/-- The error classes with their codes (17 R472): C 0, T 1, L 2, F 3. -/
inductive Cls where
  | c
  | t
  | l
  | f
  deriving DecidableEq, Repr

/-- The kinds of an error record (17 R474): EVENT 0, OPEN 1, ESCALATE 2, CLOSE 3. -/
inductive EKind where
  | event
  | opened
  | escalate
  | closed
  deriving DecidableEq, Repr

/-- The fields of a 32-byte error record that do not come from the log unit (17 R474). -/
structure ErrRec where
  cause : U16
  incident : U16
  cls : Cls
  kind : EKind
  persistent : Bool
  world : World
  device : Bool
  more : Bool
  resource : U32
  detail : U32
  deriving DecidableEq, Repr

end Sys2Proof
end

