-- ==== Sys2Proof/Machine/StBase.lean ====
section
/-! DEFINITION. State every block shares: what leaves the die (the emission record), completions, error logs, incidents
and the records that wait for a destination. -/

namespace Sys2Proof.Machine

/-- A Delay_Req as the spec fixes it (13 R391, R393): its transport, the port's addresses, the domain and the sequence number.
The bytes of the message are IEEE 1588's (log 15). -/
structure DelayReq where
  udp : Bool
  ip : U32
  mac : BitVec 48
  domain : Nat
  seq : Nat
  deriving DecidableEq, Repr

/-- One thing that left the die, in the order it left (newest first in `State.out`). The manual's boundary is the
die's bumps (00 R1): host memory writes, MSI-X messages, read data, lane frames, pins. -/
inductive Emission where
  /-- a write to host memory by function `fn`: completions, records, tails, buffers (11 R352, R359). -/
  | hostWrite (fn : Fn) (addr : Nat) (bytes : List Byte)
  /-- a write to host memory with EP set, by a DMA transfer that read poison (12 R382). -/
  | hostWriteEp (fn : Fn) (addr : Nat) (bytes : List Byte)
  /-- the one-byte read with which a DMA engine flushes its host writes (12 R381). -/
  | hostFlush (fn : Fn) (addr : Nat)
  /-- a read of host memory: the slot of a Clause (11 R346, R348). -/
  | hostRead (fn : Fn) (addr : Nat) (len : Nat)
  /-- one MSI-X message (11 R363). -/
  | msix (fn : Fn) (vec : Nat)
  /-- data returned for a BAR0 read (00 R5 to R10). -/
  | readData (fn : Fn) (off : Nat) (val : U32)
  /-- data returned for a BAR2 read, EP set for a poisoned word (11 R341). -/
  | bar2Data (fn : Fn) (addr : Nat) (bytes : List Byte) (ep : Bool)
  /-- one OSL frame on the transmit side of a lane: its 13,600 PAM4 level indices (02 R37). -/
  | frame (lane : Nat) (levels : List (BitVec 2))
  /-- a PTP or forwarded Ethernet frame leaving a TPORT (13 R393, R404). -/
  | eth (port : Nat) (bytes : List Byte)
  /-- a PTP Delay_Req leaving the slave port (13 R391, R393). -/
  | delayReq (port : Nat) (req : DelayReq)
  /-- a TIME_OUT pulse: the pin, the Plinth time of its leading edge and its width in ns (13 R407, R408). -/
  | pulse (pin : Nat) (time : Nat) (width : Nat)
  /-- a change of the level of an output pin, by name: ATTN_N, FAULT_N, SVC_ATTN_N (20 R550). -/
  | pin (name : String) (high : Bool)
  /-- the code driven on CORE_VID (20 R549). -/
  | vid (code : BitVec 6)
  /-- a response on the SVC port (19 R534). -/
  | svc (bytes : List Byte)
  deriving DecidableEq, Repr

/-- A completion or follow entry before it is written (11 R352). -/
structure Completion where
  seq : U32
  status : U16
  follow : Bool
  followDue : Bool
  kind : U8
  a : U64
  b : U64
  c : U32
  opcode : U16
  deriving DecidableEq, Repr

/-- An entry of an on-die error log (17 R474, R481). -/
structure LogEntry where
  index : U32
  time : U96
  err : ErrRec
  deriving DecidableEq, Repr

/-- One function's error log (17 R481 to R483, R494). -/
structure ErrLog where
  /-- the entries by log position 0 to 1,023; a position not listed reads as zero; reset: none -/
  entries : List (Nat × LogEntry)
  /-- LOG_TAIL, records written, modulo 65,536 (17 R494); reset 0 -/
  tail : U16
  /-- LOG_HEAD, records consumed (17 R483); reset 0 -/
  head : U16
  /-- LOG_LOST (17 R482); reset 0 -/
  lost : U32
  /-- the log index of the next record destined for this log (17 R481); reset 0 -/
  nextIndex : U32
  /-- records lost since the last LOG_LOST record (17 R482); reset 0 -/
  lostSince : U32
  /-- ERR_STATUS.HEAD_ERR (17 R494); reset 0 -/
  headErr : Bool
  deriving DecidableEq, Repr

/-- An open incident (17 R478, R494). `counted` is false for an incident that occupies no INCIDENT entry. -/
structure Incident where
  id : U16
  cls : Cls
  cause : U16
  world : World
  device : Bool
  resource : U32
  detail : U32
  counted : Bool
  deriving DecidableEq, Repr

/-- The recovery sequencer's state (17 R494 SEQ_STATE). -/
inductive SeqState where
  | normal
  | restart
  | secondRestart
  | failed
  deriving DecidableEq, Repr

/-- The Armature incident in progress (17 R488 to R491). -/
structure ArmIncident where
  id : U16
  cause : U16
  cls : Cls
  failures : Nat
  deriving DecidableEq, Repr

/-- The Clause an Armature has taken and not yet answered, with the 64 bytes of its slot (11 R344, R350). -/
structure Taken where
  src : Src
  bytes : List Byte
  deriving DecidableEq, Repr

/-- The last commit record (17 R489). -/
structure Commit where
  fn : Fn
  qp : Nat
  seq : U32
  deriving DecidableEq, Repr

/-- The error, incident and Armature state (17). -/
structure ErrState where
  /-- F0's log (17 R481) -/
  log0 : ErrLog
  /-- F1's log (17 R481) -/
  log1 : ErrLog
  /-- the next incident ID (17 R478); reset DESIGN CHOICE 0 (log 11) -/
  nextIncident : U16
  /-- open incidents, INCIDENT[n] in list order of opening (17 R478, R494); reset none -/
  incidents : List Incident
  /-- ERR_STATUS.FAULT (17 R494); reset 0 -/
  fault : Bool
  /-- LAST_FAULT cause (17 R494); reset 0 -/
  lastFaultCause : U16
  /-- LAST_FAULT incident ID (17 R494); reset 0 -/
  lastFaultId : U16
  /-- ERR_STATUS.SEQ_STATE (17 R494); reset NORMAL -/
  seqState : SeqState
  /-- ERR_STATUS.SERVICE, Clause service is running (17 R494); reset 0 -/
  service : Bool
  /-- ARM_RESTARTS (17 R494); reset 0 -/
  armRestarts : U32
  /-- SEQ_OUTVOTES (17 R494); reset 0 -/
  seqOutvotes : U32
  /-- the Armature incident in progress (17 R488); reset none -/
  arm : Option ArmIncident
  /-- a firmware activation restart is in progress, without an incident (17 R492); reset 0 -/
  activating : Bool
  /-- the Clause taken and not yet answered (11 R350); reset none -/
  taken : Option Taken
  /-- the position in the service cycle, F0 QP0 = 0 to F1 QP7 = 15 (11 R350); reset DESIGN CHOICE 0 (log 3) -/
  visit : Nat
  /-- the last commit record (17 R489); reset none -/
  commit : Option Commit
  /-- FAULT_N level, true is high (17 R486); reset high -/
  faultN : Bool
  deriving DecidableEq, Repr

/-- A record that waits to be taken by a ring or a feed buffer (05 R171, 11 R360). -/
structure Offer where
  dest : Dest
  pid : Nat
  seq : Nat
  rtype : Nat
  start : Nat
  /-- time field of the record -/
  time : Nat
  /-- Plinth time since when it has been offered, none while an earlier record of its product waits here (11 R360) -/
  since : Option Nat
  bytes : List Byte
  deriving DecidableEq, Repr

end Sys2Proof.Machine
end

