-- ==== Sys2Proof/Machine/StHost.lean ====
section
/-! DEFINITION. The host link, Clause queues, delivery rings and MSI-X state (11), and the worlds, regions and quotas (16). -/

namespace Sys2Proof.Machine

/-- QP_STATUS.STATE (11 R366). -/
inductive QpState where
  | disabled
  | running
  | halted
  | draining
  deriving DecidableEq, Repr

/-- A Clause in its wait phase (11 R351): what it waits for is named by its opcode and `args`. -/
structure Waiting where
  opcode : U16
  seq : U32
  args : List Nat
  deriving DecidableEq, Repr

/-- One queue pair (11 R343 to R353, R366). -/
structure Qp where
  /-- SQ_BASE (11 R366); reset DESIGN CHOICE 0 (log 3) -/
  sqBase : U64
  /-- CQ_BASE (11 R366); reset DESIGN CHOICE 0 (log 3) -/
  cqBase : U64
  /-- QP_CTRL.ENABLE; reset 0 -/
  enable : Bool
  /-- QP_CTRL.SQ_LOG2; reset 0x4 -/
  sqLog2 : BitVec 4
  /-- QP_CTRL.CQ_LOG2; reset 0x5 -/
  cqLog2 : BitVec 4
  /-- QP_CTRL.IRQ_EN; reset 0 -/
  irqEn : Bool
  /-- QP_STATUS.STATE; reset DISABLED -/
  state : QpState
  /-- QP_STATUS.TAIL_ERR; reset 0 -/
  tailErr : Bool
  /-- QP_STATUS.HEAD_ERR; reset 0 -/
  headErr : Bool
  /-- QP_STATUS.CFG_ERR; reset 0 -/
  cfgErr : Bool
  /-- QP_STATUS.SQ_HEAD, Clauses taken; reset 0 -/
  sqHead : U16
  /-- SQ_TAIL (11 R349); reset DESIGN CHOICE 0 (log 3) -/
  sqTail : U16
  /-- CQ_HEAD (11 R349); reset DESIGN CHOICE 0 (log 3) -/
  cqHead : U16
  /-- entries written, modulo 65,536 (11 R343, R349); reset 0 -/
  cqTail : U16
  /-- PHASE of the next entry (11 R343, R352); reset DESIGN CHOICE 1 (log 3) -/
  phase : Bool
  /-- EXPECT_SEQ; reset DESIGN CHOICE 0 (log 3) -/
  expectSeq : U32
  /-- REREADS; reset DESIGN CHOICE 0 (log 3) -/
  rereads : U32
  /-- re-reads of the slot being retried so far, while a sequence mismatch stands (11 R348); reset none -/
  retry : Option Nat
  /-- the Clause in its wait phase (11 R351); reset none -/
  waiting : Option Waiting
  /-- completions and follow entries due and not yet written, oldest first (11 R351, R353); reset none -/
  owed : List Completion
  deriving DecidableEq, Repr

/-- RING_STATUS.STATE (11 R366). -/
inductive RingState where
  | undefined
  | active
  | suspended
  deriving DecidableEq, Repr

/-- The declines a ring has pending for one product (11 R361). -/
structure Decline where
  pid : Nat
  world : World
  first : Nat
  last : Nat
  count : Nat
  start : Nat
  /-- time field of the first declined record -/
  time : Nat
  rtype : Nat
  deriving DecidableEq, Repr

/-- One delivery ring (11 R358 to R364, R366). -/
structure Ring where
  /-- RING_STATUS.STATE; reset UNDEFINED -/
  state : RingState
  /-- host address of the byte area (11 R358); reset DESIGN CHOICE 0 (log 3) -/
  base : U64
  /-- log2 of the size (11 R358); reset DESIGN CHOICE 0 (log 3) -/
  k : Nat
  /-- MSI-X vector (11 R364); reset DESIGN CHOICE 0 (log 3) -/
  vector : Nat
  /-- coalesce count (11 R364); reset DESIGN CHOICE 0 (log 3) -/
  coalesce : Nat
  /-- coalesce time in microseconds (11 R364); reset DESIGN CHOICE 0 (log 3) -/
  timeUs : Nat
  /-- tail write-back address (11 R359); reset DESIGN CHOICE 0 (log 3) -/
  wbAddr : U64
  /-- head, running byte count (11 R359); reset 0 -/
  head : Nat
  /-- tail, running byte count (11 R359); reset 0 -/
  tail : Nat
  /-- HEAD_LO as last written (11 R362); reset 0 -/
  headLo : U32
  /-- RING_STATUS.DECLINING; reset 0 -/
  declining : Bool
  /-- DECLINED; reset 0 -/
  declined : U32
  /-- declines pending, in the order first declined (11 R361); RING_STATUS.GAP_PENDING reads whether any; reset none -/
  declines : List Decline
  /-- records written since the last message (11 R364); reset 0 -/
  since : Nat
  /-- Plinth time of the tail write of the first of them (11 R364); reset none -/
  sinceTime : Option Nat
  deriving DecidableEq, Repr

/-- One MSI-X table entry and its pending bit (11 R339, R340; PCI layout, log 14). -/
structure Msix where
  /-- message address; reset PRESUMED 0 (the PCI layout's, log 14) -/
  addr : U64
  /-- message data; reset PRESUMED 0 (the PCI layout's, log 14) -/
  data : U32
  /-- vector control mask bit; reset PRESUMED 1 (the PCI layout's, log 14) -/
  mask : Bool
  /-- pending bit (11 R339); reset PRESUMED 0 (the PCI layout's, log 14) -/
  pending : Bool
  deriving DecidableEq, Repr

/-- One function's host-side state (11 R340 to R366). -/
structure FnState where
  /-- Bus Master Enable (11 R339), LINK_STATUS.Fn_BME; reset 0 -/
  bme : Bool
  qps : Vector Qp 8
  rings : Vector Ring 64
  msix : Vector Msix 64
  deriving DecidableEq, Repr

/-- The host link (11 R336 to R339, R365, R366). -/
structure HostLink where
  /-- LINK_STATUS.MOD0_GTS; reset 0 -/
  mod0 : Nat
  /-- LINK_STATUS.MOD1_GTS; reset 0 -/
  mod1 : Nat
  /-- the link is up (11 R339); reset DESIGN CHOICE down (log 17) -/
  up : Bool
  /-- the link has trained since reset, so the delivery limit follows the trained bandwidth (11 R337); reset DESIGN CHOICE 0
  (log 17) -/
  trained : Bool
  /-- ATTN_CAUSE; reset 0 -/
  attnCause : BitVec 11
  /-- ATTN_MASK; reset 0x7FF -/
  attnMask : BitVec 11
  f0 : FnState
  f1 : FnState
  deriving DecidableEq, Repr

/-- One HBM region descriptor (16 R458, R470). -/
structure Region where
  /-- REGION_ATTR.VALID; reset 0 -/
  valid : Bool
  /-- REGION_ATTR.WORLD; reset 0 (secure) -/
  world : World
  /-- REGION_ATTR.MAP; reset 0b101 -/
  map : BitVec 3
  /-- REGION_BASE in 2 MiB granules; reset DESIGN CHOICE 0 (log 3) -/
  base : Nat
  /-- REGION_SIZE in 2 MiB granules; reset DESIGN CHOICE 0 (log 3) -/
  size : Nat
  deriving DecidableEq, Repr

/-- A quota cut pending (16 R466): the item, the products still to stop, how many were selected, and the Clause whose
follow entry it owes. -/
structure Cut where
  item : Nat
  selected : List Nat
  count : Nat
  src : Src
  deriving DecidableEq, Repr

/-- A zero-fill in progress (16 R461): the granules that become reachable by their new world once it ends. -/
structure Fill where
  granules : List Nat
  deriving DecidableEq, Repr

/-- The worlds of every resource, the region descriptors and the quotas (16). -/
structure WorldState where
  /-- receive side of lanes 0 to 47 (16 R454); reset secure (R456) -/
  laneRx : Vector World 48
  /-- transmit side of lanes 0 to 47 (16 R454); reset secure -/
  laneTx : Vector World 48
  /-- egress streams (16 R454); reset secure -/
  egress : Vector World 256
  /-- chains (16 R454); reset secure -/
  chains : Vector World 64
  /-- Gloss cores (16 R454); reset secure -/
  cores : Vector World 32
  /-- DMA channels 0 to 35 (16 R454); reset secure -/
  dma : Vector World 36
  /-- TIME_OUT pins (16 R454); reset secure -/
  pins : Vector World 4
  /-- beam indices (16 R454); reset secure -/
  beams : Vector World 256
  /-- region descriptors (16 R458); reset invalid, MAP 0b101 -/
  regions : Vector Region 64
  /-- quotas by item code 1 to 18, entry 0 unused (16 R462); reset 0 (R456) -/
  quotas : Vector Nat 19
  /-- cuts pending (16 R466); reset none -/
  cuts : List Cut
  /-- the zero-fill in progress (16 R461), WORLD_STATUS.FILLING; reset none -/
  fill : Option Fill
  deriving DecidableEq, Repr

end Sys2Proof.Machine
end

