-- ==== Sys2Proof/Machine/StData.lean ====
section
/-! DEFINITION. The state of the sample and correlation path: products (01, 05 R160 to R172), Intake (03), input maps, the
Relief grid and its repair (04, 06), the integration store (05) and the HBM allocations (05 R142). -/

namespace Sys2Proof.Machine

/-- The kinds of product (01 R12). -/
inductive PKind where
  | corr
  | stats
  | beam
  | zoom
  | evt
  | capture
  | derived
  deriving DecidableEq, Repr

/-- The demand of one product on the envelope (01 R21). Rates are exact rationals; `bytes` are record bytes per second,
counted at the destinations of `route`. HBM areas are counted from the allocations and ingest from `uses`. -/
structure Demand where
  relief : Rat
  hbm : Rat
  frieze : Rat
  delay : Nat
  beams : Nat
  chains : Nat
  bytes : Rat
  route : U32
  /-- records per second (18 R508) -/
  records : Rat
  /-- channel-dwell and dwell duration in seconds of a correlation product, 0 for the others (04 R129) -/
  chanDwell : Rat
  dwell : Rat
  /-- input numbers and channel slots the product uses: the inputs, the first slot and the slot count -/
  uses : List (List Nat × Nat × Nat)
  deriving DecidableEq, Repr

/-- An ERROR record owed before a record of a product (17 R484): before the VIS record of a group and integration (05
R150), or before the product's next record. -/
structure OwedErr where
  entry : LogEntry
  key : Option (Nat × Nat)
  deriving DecidableEq, Repr

/-- A route change not yet in effect: the first sequence number under it and its route word (05 R170). -/
structure RouteChange where
  fromSeq : Nat
  route : U32
  deriving DecidableEq, Repr

/-- What every product has (05 R160, R161, R169, 18 R508). -/
structure Product where
  pid : Nat
  kind : PKind
  world : World
  /-- function whose rings the routing entry names (05 R169) -/
  fn : Fn
  route : U32
  routeChange : Option RouteChange
  /-- sequence number of the next record (05 R161) -/
  seq : Nat
  /-- suspended (01 R28) -/
  suspended : Bool
  demand : Demand
  /-- demands reserved until a deferred boundary, oldest first: the demand and the boundary, a sample counter, or 2^64
  plus a sequence number (01 R25) -/
  reserve : List (Demand × Nat)
  /-- longest record in bytes (11 R358) -/
  maxRecord : Nat
  /-- ERROR records owed before the next record (17 R484) -/
  owedErrs : List OwedErr
  /-- S_p + 1: numbers below it may be emitted while the unit is protected, or, on a standby, the numbers the active unit
  may have used (18 R508, R517) -/
  spNext : Nat
  /-- S_p + 1 as a RESERVE sent and not acknowledged carries it, with its message number (18 R508) -/
  spSent : Option (Nat × Nat)
  /-- E_p (18 R509) -/
  ep : Nat
  /-- E_p as last sent to the standby, and the Plinth time of that message (18 R509) -/
  epTold : Nat
  epTime : Nat
  deriving DecidableEq, Repr

/-- The owner of an HBM allocation (05 R141, R142). -/
inductive AllocKind where
  | ctSet (id : Nat)
  | validity (id : Nat)
  | istore (pid : Nat)
  | emitBuf (pid : Nat)
  /-- an emit buffer replaced by one for larger records and not yet given up (05 R166) -/
  | emitOld (pid : Nat)
  | gain (pid : Nat)
  | capRing (chain : Nat)
  | chainEmit (chain : Nat)
  | feedBuf (core : Nat)
  | coreSlots (core : Nat)
  | snapshot (pid : Nat)
  | namedGain (pid : Nat)
  deriving DecidableEq, Repr

/-- An HBM area in use: owner, address and size in bytes, whole granules, and world (05 R141, R142). -/
structure Alloc where
  kind : AllocKind
  base : Nat
  size : Nat
  world : World
  deriving DecidableEq, Repr

/-! ### Intake (03) -/

/-- STREAM_STATUS.STATE (03 R101). -/
inductive StreamState where
  | undefined
  | waiting
  | up
  | down
  deriving DecidableEq, Repr

/-- A stream-table entry (03 R71). -/
structure StreamDef where
  first : Nat
  c8 : Bool
  inBase : Nat
  inCount : Nat
  chBase : Nat
  chCount : Nat
  source : U32
  world : World
  shared : Bool
  deriving DecidableEq, Repr

/-- A stream: its entry, its state and its registers (03 R74, R79, R101). -/
structure Stream where
  /-- the entry; reset none -/
  entry : Option StreamDef
  /-- STATE; reset UNDEFINED -/
  state : StreamState
  /-- SOURCE_FAULT; reset 0 -/
  sourceFault : Bool
  /-- LATE_BYTES; reset 0 -/
  late : U32
  /-- MISSING_GRANULES; reset 0 -/
  missing : U32
  /-- FLAGGED_GRANULES; reset 0 -/
  flagged : U32
  /-- COUNTER_ERR; reset 0 -/
  counterErr : U32
  /-- OVERLOAD_FRAMES; reset 0 -/
  overload : U32
  /-- LAST_COUNTER; reset 0 -/
  lastCounter : U64
  /-- stream frame sequence and byte position counter · R + offset of the furthest accepted frame (03 R79); reset none -/
  anchor : Option (Nat × Nat)
  /-- byte position of the last discarded frame, and how many agreed so far (03 R79); reset none -/
  agree : Option (Nat × Nat)
  /-- Plinth time of the last frame that passed R48 (03 R74); reset none -/
  last : Option Nat
  /-- Plinth time of the last COUNTER_ERR record (03 R79); reset none -/
  errTime : Option Nat
  deriving DecidableEq, Repr

/-- A run of row bytes from one frame, with the frame's marks (03 R75, R81, R84). -/
structure Seg where
  off : Nat
  bytes : List Byte
  sourceFault : Bool
  overload : Bool
  jump : Bool
  deriving DecidableEq, Repr

/-- One stream's row in the assembly buffer (03 R75): `arrived` is the Plinth time of its first byte. -/
structure AsmRow where
  counter : Nat
  stream : Nat
  arrived : Nat
  segs : List Seg
  deriving DecidableEq, Repr

/-- A released row held until its granule settles (03 R82), with the rows of every stream. -/
structure RelRow where
  counter : Nat
  parts : List AsmRow
  deriving DecidableEq, Repr

/-- A settled row handed on to the Frieze: its samples and the invalid (input, slot) pairs of its granule (03 R82). -/
structure SettledRow where
  counter : Nat
  parts : List AsmRow
  invalid : List (Nat × Nat)
  deriving DecidableEq, Repr

/-- A gain load that waits for its boundary (03 R88): stream, boundary, gains by (input, slot), whether a level trim made it
(15 R444), and whether its boundary is the release front because no correlation product uses its inputs. -/
structure GainLoad where
  stream : Nat
  boundary : Nat
  gains : List ((Nat × Nat) × U16)
  trim : Bool
  atFront : Bool
  deriving DecidableEq, Repr

/-- A corner-turn half (03 R89, R92). -/
structure Half where
  /-- the dwell it holds or is being written with; none when free -/
  dwell : Option Nat
  /-- every row of the dwell has been written -/
  full : Bool
  deriving DecidableEq, Repr

/-- What the validity history and the gain state of one dwell of a set say (03 R90, 05 R151, R162): invalid
(position, channel, granule) triples, saturated and stale (position, channel) pairs; `overrun` marks a dwell that was not
written (R92). -/
structure HistDwell where
  dwell : Nat
  invalid : List (Nat × Nat × Nat)
  sat : List (Nat × Nat)
  stale : List (Nat × Nat)
  overrun : Bool
  deriving DecidableEq, Repr

/-- A corner-turn set (03 R89). -/
structure CtSet where
  id : Nat
  map : Nat
  chBase : Nat
  chCount : Nat
  log2Td : Nat
  c8 : Bool
  world : World
  /-- first dwell the set is written from -/
  firstDwell : Nat
  halves : Vector Half 2
  hist : List HistDwell
  deriving DecidableEq, Repr

/-- One entry of the sums of a STATS product (03 R97, R99). -/
structure StatSum where
  re : Int
  im : Int
  p2 : Nat
  p4 : Nat
  valid : Nat
  sat : Nat
  overload : Bool
  sourceFault : Bool
  jump : Bool
  deriving DecidableEq, Repr

/-- A STATS product (03 R97 to R100). -/
structure Stats where
  pid : Nat
  stream : Nat
  inBase : Nat
  inCount : Nat
  chBase : Nat
  chCount : Nat
  log2Int : Nat
  post : Bool
  /-- start counter of the first whole interval -/
  firstStart : Nat
  /-- sums of the interval in progress, in [channel][input] order -/
  sums : List StatSum
  /-- a gain changed inside the interval (R100) -/
  stale : Bool
  /-- rows of the interval seen so far -/
  rows : Nat
  /-- a quota cut suspends it at its interval's end (16 R466) -/
  stopping : Bool
  deriving DecidableEq, Repr

/-- The Intake (03). -/
structure Intake where
  /-- streams 0 to 1,023 by number; a number not listed is a stream at reset -/
  streams : List (Nat × Stream)
  /-- rows in the assembly buffer; reset none -/
  rows : List AsmRow
  /-- released rows whose granule has not settled, oldest first; reset none -/
  released : List RelRow
  /-- settled rows the Frieze has not yet taken, oldest first; reset none -/
  settled : List SettledRow
  /-- FRONT, the release front F; reset 0 -/
  front : Nat
  /-- FRONT_STARTED; reset 0 -/
  started : Bool
  /-- Plinth time of the last advance of F, from which FRONT_RUNNING reads; reset none -/
  frontTime : Option Nat
  /-- the front's value when it started; reset 0 -/
  firstRow : Nat
  /-- SKEW_WINDOW.W_NS; reset 0x07D0 -/
  skew : Nat
  /-- ASM_PEAK.PEAK; reset 0 -/
  asmPeak : Nat
  /-- CT_OVERRUN_COUNT; reset 0 -/
  overrunCount : U32
  /-- INTAKE_STATUS.CT_OVERRUN; reset 0 -/
  overrun : Bool
  /-- INTAKE_STATUS.EPOCH_SET; reset 0 -/
  epochSet : Bool
  /-- T0 in Plinth units (03 R93); reset DESIGN CHOICE 0 (log 3) -/
  t0 : Nat
  /-- num (03 R93); reset DESIGN CHOICE 1 (log 3) -/
  num : Nat
  /-- den (03 R93); reset DESIGN CHOICE 1 (log 3) -/
  den : Nat
  /-- epoch tolerance in ns (03 R96); reset 1,000,000 -/
  tolerance : Nat
  /-- EPOCH_DEV; reset 0 -/
  epochDev : BitVec 32
  /-- Plinth time of the last EPOCH_DEV record (03 R96); reset none -/
  epochErr : Option Nat
  /-- gains that differ from the reset value 0x1000, by (input, slot) (03 R86) -/
  gains : List ((Nat × Nat) × U16)
  /-- gain loads waiting for their boundary (03 R88); reset none -/
  gainLoads : List GainLoad
  /-- corner-turn sets (03 R89); reset none -/
  sets : List CtSet
  /-- STATS products (03 R98); reset none -/
  stats : List Stats
  deriving DecidableEq, Repr

/-! ### Input maps, the Relief and its repair (04, 06) -/

/-- An input map (04 R123). -/
structure InMap where
  handle : Nat
  world : World
  entries : List Nat
  deriving DecidableEq, Repr

/-- The elements of a fenced cell in one committed instance, whose granules the weights lose (06 R196): channel, row
block, column block, dwell, grid row and logical column. -/
structure LostCell where
  chan : Nat
  u : Nat
  v : Nat
  dwell : Nat
  row : Nat
  col : Nat
  deriving DecidableEq, Repr

/-- An integration with committed instances whose record has not left (05 R144, R150). -/
structure OpenInt where
  /-- integration index j plus 1, so that the integration before counter 0 has index 0 -/
  j : Nat
  /-- tiles closed so far, as (channel, u, v) -/
  closed : List (Nat × Nat × Nat)
  /-- every super-tile committed so far matched (06 R195) -/
  verified : Bool
  /-- elements emitted as zero at the close because their word was poisoned (05 R149) -/
  zeroed : Nat
  /-- what fences took from the weights (06 R196) -/
  lost : List LostCell
  deriving DecidableEq, Repr

/-- A record group of a correlation product (05 R144). -/
structure Group where
  /-- first dwell that contributes -/
  start : Nat
  /-- the dwell at which the group stops (release, suspension); none while it runs -/
  stop : Option Nat
  /-- the group has emitted what its stop owes (05 R168) -/
  stopped : Bool
  /-- one past the last dwell of the integration whose record was emitted last -/
  done : Nat
  /-- output format of its next record: 0 I32, 1 I64, 2 F32 (05 R166) -/
  output : Nat
  /-- integrations not yet emitted, oldest first -/
  ints : List OpenInt
  deriving DecidableEq, Repr

/-- An emit slot in use (05 R152): the group and integration it holds, the format of its record, its HBM address, and
the sequence number once the record left. -/
structure EmitSlot where
  group : Nat
  j : Nat
  output : Nat
  base : Nat
  seq : Option Nat
  deriving DecidableEq, Repr

/-- The record of one group in a snapshot (05 R157, R158, R162, 06 R195). -/
structure SnapPart where
  group : Nat
  /-- output format, that of the group's records when the Clause was taken -/
  output : Nat
  /-- the group has an open integration at the boundary -/
  isOpen : Bool
  /-- first dwell that contributes -/
  start : Nat
  /-- every tapped instance, and every earlier one of its integration, matched -/
  verified : Bool
  /-- a weight is below its full value -/
  low : Bool
  /-- elements of poisoned words, written as zero with weight zero (log 33) -/
  zeroed : Nat
  stale : Bool
  sat : Bool
  deriving DecidableEq, Repr

/-- A snapshot of a product (05 R156). -/
structure Snap where
  firstGroup : Nat
  groups : Nat
  area : Nat
  dwell : Nat
  src : Src
  /-- tiles tapped so far, as (channel, u, v) -/
  tapped : List (Nat × Nat × Nat)
  /-- which groups have an open integration is settled: the boundary has been reached -/
  settled : Bool
  parts : List SnapPart
  deriving DecidableEq, Repr

/-- A correlation product (04, 05 R143). Mode: 0 WIDE, 1 NARROW, 2 BYTE. -/
structure Corr where
  pid : Nat
  map : Nat
  mode : Nat
  /-- modes that take effect at a boundary dwell, oldest first: the dwell and the mode (04 R138) -/
  nextModes : List (Nat × Nat)
  chBase : Nat
  chCount : Nat
  log2Td : Nat
  nInt : Nat
  g : Nat
  wide64 : Bool
  aligned : Bool
  istore : Nat
  set : Nat
  /-- one past the last dwell a channel-dwell of which has begun (05 R156) -/
  begun : Nat
  groups : List Group
  slots : Vector (Option EmitSlot) 2
  snap : Option Snap
  /-- the product goes when every group has stopped (04 R138 CORR_RELEASE) -/
  releasing : Bool
  /-- late channel-dwells (04 R138) -/
  lateDwells : Nat
  deriving DecidableEq, Repr

/-- A wrong accumulator or weight counter of one run of an instance, as the silicon produced it (06 R179): the logical
cell (row, column), its baseline 0 to 255, and the amounts by which re, im and the weight are off. -/
structure CellErr where
  row : Nat
  col : Nat
  baseline : Nat
  re : Int
  im : Int
  weight : Int
  deriving DecidableEq, Repr

/-- Which run of a super-tile the grid works on (06 R181, R184). -/
inductive RunKind where
  | first
  | retry
  | recompute
  deriving DecidableEq, Repr

/-- A super-tile on the grid, in a context slot or draining: its run, the sample offset reached, and the sample offset up
to which the NARROW half accumulators have been folded (04 R109, R132). The accumulators hold the sums of the samples
before the offset, so their contents are functions of this record and the corner turn. -/
structure Run where
  tile : Tile
  kind : RunKind
  mode : Nat
  offset : Nat
  folded : Nat
  deriving DecidableEq, Repr

/-- A context slot in use (04 R132, R133): the preempted run, and whether its save has finished. -/
structure CtxSlot where
  run : Run
  saved : Bool
  deriving DecidableEq, Repr

/-- A super-tile whose drained values the spill path holds until its spill-add commits (04 R107, R135): whether it
matched, or is the zero commit of a dropped one (06 R187), the fenced cells of its drain, and for each of its elements, in
the order of `tileElems`, the drained components and the error of its weight counter that no checksum saw. -/
structure Spill where
  tile : Tile
  matched : Bool
  fenced : List (Nat × Nat)
  vals : List ((Int × Int) × Int)
  deriving DecidableEq, Repr

/-- Drained values in the hold buffer (06 R179, R180): what is wrong with them outside fenced cells, and the fenced cells,
whose accumulators and counters read zero. Their other values are sums of operands that the corner turn still holds. -/
structure HeldRun where
  errs : List CellErr
  fenced : List (Nat × Nat)
  deriving DecidableEq, Repr

/-- The phase of a Relief incident (06 R181 to R186). -/
inductive RepPhase where
  | retry
  | bypass (row pos : Nat)
  | fence (row pos : Nat)
  /-- recomputation, after a fence when the flag is set -/
  | recompute (fence : Bool)
  deriving DecidableEq, Repr

/-- LAST_LOCALISED (06 R197). -/
structure Localised where
  row : Nat
  pos : Nat
  outcome : Nat
  persistent : Bool
  deriving DecidableEq, Repr

/-- A Relief incident (06 R181): the super-tile, its incident ID, what it waits for or does, and the held values. -/
structure RepInc where
  tile : Tile
  id : U16
  phase : RepPhase
  /-- the drained values held; none when the hold buffer was full (06 R180) -/
  held : Option HeldRun
  /-- its own localisation, as LAST_LOCALISED shows the latest one (06 R183, R197) -/
  loc : Option Localised
  /-- its repair work runs, is in a slot or drains (04 R133) -/
  working : Bool
  deriving DecidableEq, Repr

/-- An injected fault (06 R198): mode 1 ONCE, 2 STUCK. -/
structure Inject where
  row : Nat
  pos : Nat
  baseline : Nat
  im : Bool
  bit : Nat
  stuck : Bool
  deriving DecidableEq, Repr

/-- A fence (06 R186, R197). -/
structure Fence where
  row : Nat
  pos : Nat
  deriving DecidableEq, Repr

/-- A channel-dwell of the plan (04 R127). -/
structure ChanDwell where
  pid : Nat
  dwell : Nat
  chan : Nat
  deriving DecidableEq, Repr

/-- A slot of the stage SRAM (04 R115, R117): the channel-dwell and block it is for, and whether the block is loaded. -/
structure StageSlot where
  cd : ChanDwell
  col : Bool
  block : Nat
  loaded : Bool
  deriving DecidableEq, Repr

/-- The Relief and its repair state (04, 06). -/
structure Relief where
  /-- PLAN_STATUS.PLAN_GEN; reset 0 -/
  planGen : U16
  /-- ready channel-dwells (04 R127); reset none -/
  ready : List ChanDwell
  /-- the channel-dwell being run and the index, in the order of 04 R113, of its super-tile that accumulates or is next;
  reset none -/
  cur : Option (ChanDwell × Nat)
  /-- the accumulating run; reset none -/
  acc : Option Run
  /-- the draining runs, oldest first (04 R107, R135); reset none -/
  drain : List Run
  /-- compared super-tiles whose spill has not committed (04 R107, R135), oldest first; reset none -/
  spill : List Spill
  /-- context slots (04 R133), CTX_STATUS; reset empty -/
  slots : Vector (Option CtxSlot) 2
  /-- RELIEF_STATUS.STAGE_STALL: the Plinth time since when the grid waits for a block; reset none -/
  stageStall : Option Nat
  /-- RELIEF_STATUS.DRAIN_STALL: the Plinth time since when the grid waits for a draining set; reset none -/
  drainStall : Option Nat
  /-- the stage SRAM; reset empty -/
  stage : List StageSlot
  /-- BUSY_CYCLES; reset 0 -/
  busyCycles : U64
  /-- STALL_STAGE_CYCLES; reset 0 -/
  stallStage : U32
  /-- STALL_DRAIN_CYCLES; reset 0 -/
  stallDrain : U32
  /-- PREEMPT_COUNT; reset 0 -/
  preempts : U32
  /-- TILE_DWELLS; reset 0 -/
  tileDwells : U32
  /-- STAGE_PEAK.PEAK_MIB; reset 0 -/
  stagePeak : Nat
  /-- Relief incidents in the order their mismatches were detected (06 R181); reset none -/
  incidents : List RepInc
  /-- the drop list (06 R187); reset empty -/
  drops : List Tile
  /-- injected faults (06 R198); reset none -/
  injects : List Inject
  /-- ROW_REPAIR[r]: the bypassed position of a row that runs on its spare (06 R197); reset none -/
  bypass : Vector (Option Nat) 32
  /-- FENCE[n] in use, in order (06 R197); reset none -/
  fences : List Fence
  /-- MISMATCHES; reset 0 -/
  mismatches : U32
  /-- RETRIES_OK; reset 0 -/
  retriesOk : U32
  /-- SPARES_TAKEN; reset 0 -/
  sparesTaken : U32
  /-- TILE_DROPS; reset 0 -/
  tileDrops : U32
  /-- SELF_CHECK_FAILS; reset 0 -/
  selfCheckFails : U32
  /-- LAST_LOCALISED; reset 0 -/
  localised : Localised
  /-- the incident whose localisation it shows (06 R197); reset none -/
  localisedBy : Option U16
  /-- the incident for whose repair work the latest preemption was made, until that work starts (04 R131, R133); reset none -/
  starter : Option U16
  deriving DecidableEq, Repr

/-- The integration store (05). -/
structure Istore where
  /-- SPILLS; reset 0 -/
  spills : U64
  /-- CLOSES; reset 0 -/
  closes : U32
  /-- VIS_RECORDS; reset 0 -/
  visRecords : U32
  /-- EMIT_STALL_CYCLES; reset 0 -/
  emitStallCycles : U32
  /-- ISTORE_STATUS.EMIT_STALL: the Plinth time since when a drain waits for an emit slot; reset none -/
  emitStall : Option Nat
  /-- ISTORE_STATUS.POISON_SEEN; reset 0 -/
  poisonSeen : Bool
  /-- POISON_ELEMENTS; reset 0 -/
  poisonElements : U32
  /-- GAP_RECORDS; reset 0 -/
  gapRecords : U32
  /-- SNAP_STATUS.PRODUCT; reset 0 -/
  snapProduct : Nat
  /-- the boundary counter of the latest snapshot until it is written: SNAP_STATUS.WAITING below it, WRITING from it on;
  reset none, so both read 0 -/
  snapBoundary : Option Nat
  /-- SNAP_STATUS.GROUPS_LEFT; reset 0 -/
  snapLeft : Nat
  deriving DecidableEq, Repr

end Sys2Proof.Machine
end

