-- ==== Sys2Proof/Machine/StHbm.lean ====
section
/-! DEFINITION. The state of the HBM3 controller (10). -/

namespace Sys2Proof.Machine

/-- STACK_STATUS.STATE (10 R335). -/
inductive StackState where
  | off
  | active
  | selfRefresh
  | training
  deriving DecidableEq, Repr

/-- The page predictor (10 R313). -/
inductive Pred where
  | strongClose
  | weakClose
  | weakOpen
  | strongOpen
  deriving DecidableEq, Repr

/-- One entry of an activation table (10 R322). -/
structure ActEntry where
  row : Nat
  count : Nat
  deriving DecidableEq, Repr

/-- A bank (10 R313, R322). -/
structure Bank where
  /-- the open row; reset none -/
  opened : Option Nat
  /-- the last row; reset none -/
  last : Option Nat
  /-- the predictor; reset WEAK_CLOSE -/
  pred : Pred
  /-- used entries of the activation table, at most 8, in index order; reset none -/
  acts : List ActEntry
  /-- the predictor has decided since the last access: the next one moves it; reset 0 -/
  idle : Bool
  deriving DecidableEq, Repr

/-- The operations of the spill path (10 R315). -/
inductive SpillOp where
  | write
  | add
  | addTap
  | addReturn
  deriving DecidableEq, Repr

/-- What a request does (10 R312, R315, R317). -/
inductive ReqKind where
  | read
  | write
  /-- a write of part of a 64-bit word: read-modify-write (R317) -/
  | partWrite
  /-- a spill operation on a run of 64-byte units within one page: one locked sequence (R315) -/
  | spill (op : SpillOp) (units : Nat)
  deriving DecidableEq, Repr

/-- A BAR2 access that a data-rate change holds at the controller (10 R331): a read of `len` bytes, or a write of bytes. -/
structure HeldAccess where
  fn : Fn
  addr : Nat
  len : Nat
  bytes : Option (List Byte)
  ecc : List (Nat × Nat)
  deriving DecidableEq, Repr

/-- A pending request of a pseudo-channel (10 R312): its HBM byte address, its kind and how many later requests have
overtaken it. -/
structure HbmReq where
  addr : Nat
  kind : ReqKind
  overtaken : Nat
  deriving DecidableEq, Repr

/-- A pseudo-channel (10 R312, R319, R333). -/
structure Pc where
  /-- pending requests in arrival order (10 R312); reset none -/
  queue : List HbmReq
  /-- refresh debt D (10 R319); reset 0 -/
  debt : Nat
  /-- in power-down (10 R333); reset 0 -/
  down : Bool
  /-- Plinth time since when it serves in arrival order (10 R314); reset none -/
  inorderSince : Option Nat
  deriving DecidableEq, Repr

/-- A stack (10 R335). -/
structure Stack where
  /-- STATE; reset OFF -/
  state : StackState
  /-- HOT; reset 0 -/
  hot : Bool
  /-- RFM; reset 0 -/
  rfm : Bool
  /-- RFM threshold the stack advertises (10 R322); reset DESIGN CHOICE 4,096 (log 3) -/
  rfmThreshold : Nat
  /-- N_SID; reset 0 -/
  nSid : Nat
  /-- DENSITY, true for 24 Gb dies; reset 0 -/
  dense : Bool
  /-- TEMP; reset 0 -/
  temp : Nat
  /-- LANES_REPAIRED; reset 0 -/
  lanesRepaired : Nat
  /-- PAGE_HITS; reset 0 -/
  pageHits : U32
  /-- PAGE_CONFLICTS; reset 0 -/
  pageConflicts : U32
  /-- ODECC_CORR; reset 0 -/
  odecc : U32
  /-- PARITY_ERR; reset 0 -/
  parity : U32
  /-- DEBT_PEAK; reset 0 -/
  debtPeak : Nat
  /-- Plinth time of the last HBM_HOT record (10 R320); reset none -/
  hotTime : Option Nat
  /-- temperature at the last retraining (10 R329); reset DESIGN CHOICE 0 (log 3) -/
  trainTemp : Nat
  deriving DecidableEq, Repr

/-- TRAIN_STATUS.STEP (10 R335). -/
inductive TrainStep where
  | idle
  | readEye
  | writeEye
  | boot
  deriving DecidableEq, Repr

/-- The HBM controller (10). -/
structure Hbm where
  /-- memory contents, canonical; an unlisted byte reads zero (10 R328) -/
  mem : List Host.Cell
  /-- poisoned 64-bit words, by address / 8, rising (10 R324); reset none -/
  poison : List Nat
  /-- READY; reset 0 -/
  ready : Bool
  /-- FILLED; reset 0 -/
  filled : Bool
  /-- MEMC_RATE in Mb/s; reset 0 -/
  rate : Nat
  /-- the stacks in service, ascending (10 R308), IN_SERVICE; reset none -/
  serving : List Nat
  /-- MEMC_CAPACITY in granules; reset 0 -/
  capacity : Nat
  /-- a data-rate change waiting or running, with the rate (10 R331), RATE_PENDING; reset none -/
  ratePending : Option Nat
  /-- the pending change waits for a retraining step (10 R332); the Clause whose follow entry is owed; reset none -/
  rateSrc : Option Src
  /-- the rate change is running (10 R331); reset 0 -/
  rateRunning : Bool
  /-- BAR2 accesses that the rate change holds, oldest first (10 R331); reset none -/
  held : List HeldAccess
  /-- the stacks were sent to SELF_REFRESH and have not been recalled (10 R333); reset 0 -/
  sleeping : Bool
  /-- POISON_SEEN; reset 0 -/
  poisonSeen : Bool
  /-- TRAIN_STATUS.STEP; reset idle -/
  step : TrainStep
  /-- Plinth time at which the step began (10 R332); reset DESIGN CHOICE 0 (log 3) -/
  stepTime : Nat
  /-- Plinth time of the last retraining (10 R329); reset DESIGN CHOICE 0 (log 3) -/
  trainTime : Nat
  /-- MARGIN_LOW; reset 0 -/
  marginLow : Bool
  /-- DISCARDED; reset 0 -/
  discarded : Bool
  /-- RETRAINS; reset 0 -/
  retrains : U16
  /-- ECC_CORR; reset 0 -/
  eccCorr : U32
  /-- ECC_RETRY_OK; reset 0 -/
  eccRetryOk : U32
  /-- ECC_UNCORR; reset 0 -/
  eccUncorr : U32
  /-- POISON_READS; reset 0 -/
  poisonReads : U32
  /-- INORDER_CYCLES; reset 0 -/
  inorder : U32
  /-- NEIGHBOUR_REFRESH; reset 0 -/
  neighbour : U32
  /-- FORCED_REFRESH; reset 0 -/
  forced : U32
  /-- RATE_CHANGES; reset 0 -/
  rateChanges : U32
  /-- LAST_UNCORR, a 40-bit address; reset 0 -/
  lastUncorr : Nat
  stackTab : Vector Stack 6
  /-- pseudo-channels by stack * 32 + PC; one not listed is idle with no debt -/
  pcs : List (Nat × Pc)
  /-- banks by (stack * 32 + PC) * 64 + bank; one not listed is at reset -/
  banks : List (Nat × Bank)
  /-- the unit the patrol scrubber reads next (10 R327); reset DESIGN CHOICE 0 (log 3) -/
  scrub : Nat
  /-- HBM allocations (05 R141, R142); reset none -/
  allocs : List Alloc
  deriving DecidableEq, Repr

end Sys2Proof.Machine
end

