-- ==== Sys2Proof/Machine/StPair.lean ====
section
/-! DEFINITION. The state of redundant pair operation (18). The Maquette image and the mirror messages are in StMaq. -/

namespace Sys2Proof.Machine

/-- PAIR_STATUS.ROLE (18 R502, R523). -/
inductive Role where
  | disabled
  | forming
  | active
  | standby
  | faulted
  deriving DecidableEq, Repr

/-- A record that waits for its reservation (18 R508): product, sequence number, type, start counter, span and the
finished record bytes. -/
structure HeldRec where
  pid : Nat
  seq : Nat
  rtype : Nat
  start : Nat
  span : Nat
  time : Nat
  dests : List Dest
  egress : Option Nat
  bytes : List Byte
  deriving DecidableEq, Repr

/-- A completion that waits for the standby's acknowledgement of a commit (18 R507): the commit message's number, and whether
the Clause was in its wait phase, so that the Armature serves the other queues meanwhile (11 R350). -/
structure HeldCompletion where
  msg : Nat
  waited : Bool
  fn : Fn
  qp : Nat
  comp : Completion
  deriving DecidableEq, Repr

/-- An outgoing mirror message not yet acknowledged (18 R501): number, type code and payload. -/
structure OutMsg where
  number : Nat
  type : Nat
  payload : List Byte
  deriving DecidableEq, Repr

/-- A resynchronisation (18 R511), on the active unit: 0 the image is being sent, 1 then the reservations and chain states,
2 then SYNC_DONE; 3 it starts again once the mirror path is restored. -/
structure Resync where
  phase : Nat
  deriving DecidableEq, Repr

/-- A planned swap (18 R520): the swap counter and the number of the SWAP message, on the active unit. -/
structure SwapPlan where
  counter : Nat
  msg : Nat
  acked : Bool
  deriving DecidableEq, Repr

/-- A takeover in progress (18 R516, R520): its incident, if one was opened. -/
structure Takeover where
  incident : Option U16
  deriving DecidableEq, Repr

/-- A TAKEOVER record that a suspended product owes when it resumes (18 R517): the product, the reason code and the Plinth
time of step 2. -/
structure OwedTakeover where
  pid : Nat
  reason : Nat
  time : Nat
  deriving DecidableEq, Repr

/-- Mirrored chain state held for a standby (08 R269, 18 R501). -/
structure ChainMirror where
  chain : Nat
  floor : Nat
  det : Nat
  onset : Nat
  frozen : Bool
  stuck : Bool
  flicker : Nat
  nextCapture : Nat
  deriving DecidableEq, Repr

/-- Pair operation (18). -/
structure Pair where
  /-- ROLE; reset DISABLED -/
  role : Role
  /-- FORMING was entered from STANDBY, so the data path is still gated (18 R522; log 60); reset 0 -/
  stillGated : Bool
  /-- SYNCED; reset 0 -/
  synced : Bool
  /-- PROTECTED; reset 0 -/
  guarded : Bool
  /-- MIRROR_OK; reset 0 -/
  mirrorOk : Bool
  /-- ALIVE_OK; reset 0 -/
  aliveOk : Bool
  /-- PEER_FAULT; reset 0 -/
  peerFault : Bool
  /-- Plinth time of the latest moment at which an active unit of an enabled pair was not PROTECTED (18 R513); reset none -/
  unguarded : Option Nat
  /-- t_r of the latest takeover (18 R516); reset none -/
  lastRow : Option Nat
  /-- RANK in effect; reset 0 -/
  rank : Bool
  /-- the ROLE_RANK strap (18 R496); reset DESIGN CHOICE 0 (log 3) -/
  strapRank : Bool
  /-- a planned swap, SWAP_PENDING; reset none -/
  swap : Option SwapPlan
  /-- the resynchronisation running, RESYNC_RUN; reset none -/
  resync : Option Resync
  /-- SPLIT; reset 0 -/
  split : Bool
  /-- MISMATCH; reset 0 -/
  mismatch : Nat
  /-- PEER_SERIAL; reset 0 -/
  peerSerial : U32
  /-- the configured partner serial (18 R503); reset DESIGN CHOICE 0 (log 3) -/
  partner : U32
  /-- the partner's role, rank and SYNCED flag as last heard (18 R500); reset none -/
  peer : Option (Role × Bool × Bool)
  /-- the partner's firmware version as last heard (18 R500); reset DESIGN CHOICE 0 (log 3) -/
  peerVersion : Nat
  /-- MIRROR_RETX; reset 0 -/
  retx : U32
  /-- MIRROR_LOSSES; reset 0 -/
  mirrorLosses : U32
  /-- ALIVE_LOSSES; reset 0 -/
  aliveLosses : U32
  /-- TAKEOVERS; reset 0 -/
  takeovers : U32
  /-- RESYNCS; reset 0 -/
  resyncs : U32
  /-- RESERVE_STALL; reset 0 -/
  reserveStall : U32
  /-- COMMIT_COUNT; reset 0 -/
  commitCount : U32
  /-- consecutive ALIVE windows judged alike: valid windows while lost, invalid windows while up (18 R498); reset 0 -/
  aliveRun : Nat
  /-- Plinth time since when valid MIRROR frames with an advancing acknowledgement came, while the path is lost (18 R499);
  reset none -/
  mirrorSince : Option Nat
  /-- the next message number (18 R501); reset DESIGN CHOICE 0 (log 3) -/
  nextMsg : Nat
  /-- messages sent and not acknowledged, oldest first (18 R501); reset none -/
  out : List OutMsg
  /-- messages not yet put into a frame: payload bytes not yet sent (18 R501); reset none -/
  txBytes : List Byte
  /-- mirror frame sequence of the next MIRROR frame sent (18 R500); reset DESIGN CHOICE 0 (log 3) -/
  frameSeq : U16
  /-- the number of the last message received in order (18 R501); reset none -/
  lastRx : Option Nat
  /-- records waiting for their reservation (18 R508); reset none -/
  held : List HeldRec
  /-- completions waiting for an acknowledgement (18 R507); reset none -/
  heldCompletions : List HeldCompletion
  /-- the takeover in progress; reset none -/
  takeover : Option Takeover
  /-- last commit records mirrored, for each function and queue of the partner (18 R519, R524); reset none -/
  peerCommits : List Commit
  /-- chain state mirrored to a standby (08 R269); reset none -/
  chains : List ChainMirror
  /-- TAKEOVER records owed by suspended products (18 R517); reset none -/
  owedTakeovers : List OwedTakeover
  /-- usable capacity, HBM data rate and Maquette format of the last image received (18 R511); reset none -/
  image : Option (Nat × Nat × Nat)
  deriving DecidableEq, Repr

end Sys2Proof.Machine
end

