-- ==== Sys2Proof/Machine/StLane.lean ====
section
/-! DEFINITION. The state of the Odrex Sample Link lanes (02): lanes 0 to 47 and the mirror lanes 48 to 51. -/

namespace Sys2Proof.Machine

/-- LANE_STATUS.RX_STATE (02 R67). -/
inductive RxState where
  | off
  | pll
  | cdr
  | adapt
  | search
  | up
  | l1
  | l2
  deriving DecidableEq, Repr

/-- LANE_STATUS.TX_STATE (02 R67). -/
inductive TxState where
  | off
  | pll
  | active
  | l1
  | l2
  deriving DecidableEq, Repr

/-- A lane (02 R67, with the latches of R33 and R52 to R65). -/
structure Lane where
  /-- RX_STATE; reset OFF -/
  rx : RxState
  /-- TX_STATE; reset OFF -/
  tx : TxState
  /-- frame lock declared (02 R53); reset 0 -/
  locked : Bool
  /-- POL_INV; reset 0 -/
  polInv : Bool
  /-- PRECODE; reset 0 -/
  precode : Bool
  /-- TX_PRECODE; reset 0 -/
  txPrecode : Bool
  /-- MEMBER, none until the headers named it (02 R46); reset 0 -/
  member : Option Nat
  /-- PEER_SLEEP; reset 0 -/
  peerSleep : Bool
  /-- window cause of DEGRADED (02 R56); reset 0 -/
  degWindow : Bool
  /-- loss cause of DEGRADED (02 R57); reset 0 -/
  degLoss : Bool
  /-- STALE, a lane trim is in progress (02 R67); reset 0 -/
  stale : Bool
  /-- FEC_CW_CORR; reset 0 -/
  cwCorr : U32
  /-- FEC_CW_UNCORR; reset 0 -/
  cwUncorr : U32
  /-- FEC_SYM_CORR; reset 0 -/
  symCorr : U32
  /-- FEC_PEAK.PEAK; reset 0 -/
  peak : Nat
  /-- FRAME_CRC_ERR; reset 0 -/
  crcErr : U32
  /-- MARKER_MISS; reset 0 -/
  markerMiss : U32
  /-- LOCK_LOSS; reset 0 -/
  lockLoss : U32
  /-- HDR_MISMATCH; reset 0 -/
  hdrMismatch : U32
  /-- RX_FRAMES; reset 0 -/
  rxFrames : U32
  /-- TX_FRAMES; reset 0 -/
  txFrames : U32
  /-- DEGRADE_THRESH; reset 32,768 (02 R56) -/
  threshold : U32
  /-- a threshold that applies from the next window (02 R56); reset none -/
  nextThreshold : Option U32
  /-- frames in the window in progress (02 R56); reset 0 -/
  winFrames : Nat
  /-- symbols corrected in the window in progress (02 R56); reset 0 -/
  winSyms : Nat
  /-- largest count of one codeword in the window in progress (02 R67); reset 0 -/
  winPeak : Nat
  /-- the hypothesis under trial: 0 normal, 1 inverted, 2 normal with precoding, 3 inverted with precoding (02 R52); reset 0 -/
  hyp : Nat
  /-- frame times spent under this hypothesis (02 R52); reset 0 -/
  tried : Nat
  /-- the hypothesis that locked last (02 R52); reset none -/
  lastHyp : Option Nat
  /-- consecutive markers seen (02 R53); reset 0 -/
  markers : Nat
  /-- consecutive markers missed on a locked lane (02 R54); reset 0 -/
  misses : Nat
  /-- for the last 64 frames, newest first, whether one held an uncorrectable codeword (02 R54); reset none -/
  history : List Bool
  /-- consecutive frames that disagreed with the mapping (02 R49); reset 0 -/
  disagree : Nat
  /-- failed bring-up attempts (02 R60); reset 0 -/
  fails : Nat
  /-- a retry of bring-up is due 100 ms after the last failure (02 R60); reset 0 -/
  retryDue : Bool
  /-- the retry resumes at marker search, after two lanes reported one member (02 R49); reset 0 -/
  bondRetry : Bool
  /-- the lane is on its way out of L2 (02 R65); reset 0 -/
  fromL2 : Bool
  /-- LANE_NO_LOCK has been reported since the group was defined or the lane locked (02 R60); reset 0 -/
  noLock : Bool
  /-- lane frame count of the next frame sent (02 R38); reset DESIGN CHOICE 0 (log 12) -/
  txCount : U16
  /-- y(n - 1) of the transmit precoder (02 R33); reset 0 -/
  txPrev : BitVec 2
  /-- the level received last, before polarity and precoding (02 R33); reset 0 -/
  rxPrev : BitVec 2
  /-- frames still to send before the announced sleep state, none while no sleep is announced (02 R62); reset none -/
  txSleep : Option Nat
  /-- transitions of the receive side, oldest first, the first one in progress: 0 a wake, 1 L1, 2 L2, 3 OFF (02 R65); reset
  none -/
  rxOps : List Nat
  /-- transitions of the receive side finished since reset (02 R65): the model's own count; reset 0 -/
  rxDone : Nat
  /-- transitions of the transmit side, as for the receive side (02 R65); reset none -/
  txOps : List Nat
  /-- transitions of the transmit side finished since reset (02 R65): the model's own count; reset 0 -/
  txDone : Nat
  /-- IDLE frames owed before any data (02 R62, R70); reset 0 -/
  idleOwed : Nat
  /-- a precoding switch and the IDLE frames still owed before it (02 R70); reset none -/
  precodeSwitch : Option (Bool × Nat)
  /-- loopback mode: 0 off, 1 near-end, 2 far-end (17 R495); reset 0 -/
  loopback : Nat
  deriving DecidableEq, Repr

/-- A lane group (02 R45): its first lane, its size code, its world. -/
structure LaneGroup where
  first : Nat
  code : Nat
  world : World
  /-- BOND_ORDER has been reported (02 R49) -/
  bondReported : Bool
  /-- every member has reached step 6 (02 R59) -/
  up : Bool
  deriving DecidableEq, Repr

/-- A RECORD frame not yet sent (02 R50): when it became ready, the group that carries it, its place in the egress stream, the offset of the
first record header that begins in it, the records whose bytes it holds, and its valid bytes. -/
structure ReadyFrame where
  /-- the FCLK cycle in which it became ready (02 R50) -/
  ready : Nat
  group : Nat
  egress : Nat
  seq : Nat
  pos : Nat
  firstRec : Option Nat
  recs : List (Nat × Nat)
  bytes : List Byte
  deriving DecidableEq, Repr

/-- An egress stream (02 R47, R50, R70). -/
structure Egress where
  /-- first lane of the transmit group it is bound to; reset none -/
  group : Option Nat
  /-- egress byte position of the next byte (02 R50); reset 0 -/
  pos : Nat
  /-- stream frame sequence of the next frame (02 R41); reset DESIGN CHOICE 0 (log 12) -/
  seq : Nat
  deriving DecidableEq, Repr

/-- The OSL (02). -/
structure Osl where
  lanes : Vector Lane 52
  /-- receive groups by first lane; reset none -/
  rxGroups : List LaneGroup
  /-- transmit groups by first lane; reset none -/
  txGroups : List LaneGroup
  egress : Vector Egress 256
  /-- RECORD frames ready and not sent, in the order they became ready (02 R50); reset none -/
  frames : List ReadyFrame
  /-- BOND_ORDER has been reported for the mirror link (02 R49, R51); reset 0 -/
  mirrorBond : Bool
  /-- every member of the mirror link has reached step 6 (02 R51, R59); reset 0 -/
  mirrorUp : Bool
  deriving DecidableEq, Repr

end Sys2Proof.Machine
end

