-- ==== Sys2Proof/Machine/StTime.lean ====
section
/-! DEFINITION. The state of the Plinth and network time (13), the clock root (14) and the trims (15). -/

namespace Sys2Proof.Machine

/-! ### Plinth (13) -/

/-- The Plinth (13 R387, R389, R390). -/
structure Plinth where
  /-- SEC; reset 0 -/
  sec : BitVec 48
  /-- NS; reset 0 -/
  ns : BitVec 32
  /-- the fraction of a nanosecond in 2^-40 ns; reset 0 -/
  sub : BitVec 40
  /-- the increment a PCLK cycle adds, in 2^-40 ns; reset nominal 2,748,779,069,440 -/
  inc : BitVec 48
  /-- NOW_NS and NOW_SEC as latched by a read of NOW_FRAC until NOW_SEC_HI is read, per function (13 R390); reset none -/
  latch0 : Option U96
  latch1 : Option U96
  deriving DecidableEq, Repr

/-- TIME_STATUS.SERVO (13 R413). -/
inductive Servo where
  | free
  | acquire
  | locked
  | holdover
  | refused
  deriving DecidableEq, Repr

/-- The dataset of a foreign master as its Announce messages give it (13 R393, IEEE 1588-2019). -/
structure Announce where
  port : Nat
  identity : U64
  sourcePort : Nat
  grandmaster : U64
  priority1 : Nat
  clockClass : Nat
  accuracy : Nat
  variance : Nat
  priority2 : Nat
  stepsRemoved : Nat
  utcOffset : Int
  domain : Nat
  /-- logMessageInterval: log2 of the Announce interval in seconds -/
  log : Int
  deriving DecidableEq, Repr

/-- A foreign master: its latest dataset and the times at which its last two Announce messages were heard, newest first (13
R393). -/
structure Foreign where
  data : Announce
  heard : List Nat
  deriving DecidableEq, Repr

/-- A TPORT (13 R391, R404 to R406, R413). -/
structure TPort where
  /-- LINK; reset 0 -/
  link : Bool
  /-- ENABLED; reset 0 -/
  enabled : Bool
  /-- TRANSPORT, true UDP/IPv4; reset 0 -/
  udp : Bool
  /-- FORWARD; reset 0 -/
  forward : Bool
  /-- DOMAIN; reset 0 -/
  domain : Nat
  /-- IPv4 address (13 R391); reset DESIGN CHOICE 0 (log 3) -/
  ip : U32
  /-- MAC address (13 R391); reset DESIGN CHOICE 0 (log 3) -/
  mac : BitVec 48
  /-- RX_SYNC; reset DESIGN CHOICE 0 (log 3) -/
  rxSync : U32
  /-- RX_ANNOUNCE; reset DESIGN CHOICE 0 (log 3) -/
  rxAnnounce : U32
  /-- TX_DELAY_REQ; reset DESIGN CHOICE 0 (log 3) -/
  txDelayReq : U32
  /-- RX_DELAY_RESP; reset DESIGN CHOICE 0 (log 3) -/
  rxDelayResp : U32
  /-- TC_FWD; reset DESIGN CHOICE 0 (log 3) -/
  tcFwd : U32
  /-- TC_DROP; reset DESIGN CHOICE 0 (log 3) -/
  tcDrop : U32
  /-- RX_DISCARD; reset DESIGN CHOICE 0 (log 3) -/
  rxDiscard : U32
  /-- RES_PEAK; reset DESIGN CHOICE 0 (log 3) -/
  resPeak : Nat
  deriving DecidableEq, Repr

/-- The Sync the servo has taken and not yet completed (13 R394): master's identity, sequence, ingress time, origin time
once known, correction in 2^-16 ns. Times are in units of 2^-16 ns. -/
structure SyncIn where
  port : Nat
  identity : U64
  seq : Nat
  ingress : Nat
  origin : Option Nat
  correction : Int
  deriving DecidableEq, Repr

/-- A Delay_Req sent and not yet answered (13 R393, R394). -/
structure DelayOut where
  port : Nat
  seq : Nat
  egress : Nat
  deriving DecidableEq, Repr

/-- A chain's pulse request (13 R408): its Plinth time and width in ns. -/
structure PulseReq where
  time : Nat
  chain : Nat
  deriving DecidableEq, Repr

/-- A TIME_OUT pin (13 R407, R408, R413). -/
structure TimeOut where
  /-- MODE: 0 off, 1 one-shot, 2 periodic; reset 0 -/
  mode : Nat
  /-- width in ns; reset 100 -/
  width : Nat
  /-- start time; reset DESIGN CHOICE 0 (log 3) -/
  start : Nat
  /-- period in 2^-16 ns; reset DESIGN CHOICE 0 (log 3) -/
  period : Nat
  /-- index of the next periodic pulse, or whether the one-shot has gone (13 R402); reset 0 -/
  sent : Nat
  /-- the pin is high until this Plinth time (13 R408), LEVEL; reset low -/
  highUntil : Option Nat
  /-- chain requests queued (13 R408); reset none -/
  queue : List PulseReq
  /-- PULSES; reset DESIGN CHOICE 0 (log 3) -/
  pulses : U32
  /-- TO_PIN_LATE; reset DESIGN CHOICE 0 (log 3) -/
  late : U32
  /-- TO_CONFLICT; reset DESIGN CHOICE 0 (log 3) -/
  conflict : U32
  /-- TO_QUEUE_DROP; reset DESIGN CHOICE 0 (log 3) -/
  drop : U32
  deriving DecidableEq, Repr

/-- An entry of a TIME_IN FIFO (13 R410). -/
structure TinEntry where
  falling : Bool
  gen : BitVec 4
  time : U96
  deriving DecidableEq, Repr

/-- One function's FIFO of a TIME_IN pin (13 R409, R410, R413). -/
structure TimeIn where
  /-- entries held; reset none -/
  fifo : List TinEntry
  /-- ENABLED; reset 0 -/
  enabled : Bool
  /-- EDGES; reset 0 -/
  edges : Nat
  /-- words latched by TIN_POP (13 R410); reset DESIGN CHOICE 0 (log 3) -/
  latched : U96
  /-- time of the last captured edge (13 R410); reset none -/
  last : Option Nat
  /-- GLITCH; reset DESIGN CHOICE 0 (log 3) -/
  glitch : U32
  /-- RATE_DROP; reset DESIGN CHOICE 0 (log 3) -/
  rateDrop : U32
  /-- OVERFLOW; reset DESIGN CHOICE 0 (log 3) -/
  overflow : U32
  deriving DecidableEq, Repr

/-- Network time (13). -/
structure NetTime where
  /-- SERVO; reset FREE -/
  servo : Servo
  /-- TIME_VALID; reset 0 -/
  valid : Bool
  /-- PTP_ON; reset 0 -/
  ptpOn : Bool
  /-- TWO_STEP; reset 0 -/
  twoStep : Bool
  /-- STEP_GEN; reset 0 -/
  stepGen : BitVec 4
  /-- OFFSET_NS, in ns, saturating; reset DESIGN CHOICE 0 (log 3) -/
  offset : Int
  /-- the filtered mean path delay in 2^-16 ns, none before the first exchange (13 R394); MEAN_PATH_NS; reset none -/
  meanPath : Option Nat
  /-- FREQ_ADJ, y in 2^-10 ppb; reset DESIGN CHOICE 0 (log 3) -/
  freqAdj : Int
  /-- REFUSED_ID; reset DESIGN CHOICE 0 (log 3) -/
  refusedId : U32
  /-- REFUSED_OFS in ns; reset DESIGN CHOICE 0 (log 3) -/
  refusedOfs : Int
  /-- the latest refusal stands (13 R400, R401); reset 0 -/
  refusalOpen : Bool
  /-- a TIME_ACCEPT_STEP waits for the next offset (13 R401): the next offset is a step; reset 0 -/
  acceptArmed : Bool
  /-- the refusals made, newest first: ID and offset in ns (13 R414); reset none -/
  history : List (Nat × Int)
  /-- consecutive offsets within the threshold while REFUSED (13 R400); reset 0 -/
  inThreshold : Nat
  /-- consecutive offsets within 100 ns while ACQUIRE (13 R397); reset 0 -/
  in100 : Nat
  /-- STEPS; reset DESIGN CHOICE 0 (log 3) -/
  steps : U32
  /-- jump threshold in ns; reset 1,000,000 -/
  threshold : Nat
  /-- bandwidth code set; reset 2 -/
  code : Nat
  ports : Vector TPort 2
  /-- foreign masters heard (13 R393); reset none -/
  foreign : List Foreign
  /-- the selected master; reset none -/
  master : Option Announce
  /-- logMessageInterval of the selected master's Sync messages (13 R395); reset none -/
  syncLog : Option Int
  /-- the selected master's logMinDelayReqInterval, as its Delay_Resp messages give it (13 R393); reset none -/
  delayLog : Option Int
  /-- the Sync not yet completed (13 R394); reset none -/
  sync : Option SyncIn
  /-- the Delay_Req not yet answered; reset none -/
  delay : Option DelayOut
  /-- Plinth time of the last Delay_Req to the selected master (13 R393); reset none -/
  delayAt : Option Nat
  /-- sequence of the next Delay_Req; reset DESIGN CHOICE 0 (log 3) -/
  delaySeq : Nat
  /-- the values of y of the last 60 s spent in LOCKED, newest first, each with how long it held (13 R397); reset none -/
  lockedY : List (Int × Nat)
  /-- Plinth time since when the present y has held in LOCKED (13 R397); reset none -/
  lockedAt : Option Nat
  outs : Vector TimeOut 4
  in0 : Vector TimeIn 4
  in1 : Vector TimeIn 4
  deriving DecidableEq, Repr

/-! ### Clock root (14) -/

/-- A reference (14 R418 to R422, R434). -/
structure Ref where
  /-- RANK; reset 0 -/
  rank : Nat
  /-- nominal frequency in Hz; reset 10,000,000; 1 for PPS_IN; 0 for REF_PTP -/
  nominal : Nat
  /-- accept limit in ppb; reset 10,000 -/
  accept : Nat
  /-- warn limit in ppb; reset 20,000 -/
  warnLimit : Nat
  /-- reject limit in ppb; reset 50,000 -/
  reject : Nat
  /-- disqualification time in ms; reset 1,000 -/
  disqMs : Nat
  /-- requalification time in ms; reset 10,000 -/
  requalMs : Nat
  /-- ACTIVE; reset 0 -/
  active : Bool
  /-- QUALIFIED; reset 0 -/
  qualified : Bool
  /-- WARN; reset 0 -/
  warn : Bool
  /-- BEYOND_REJECT; reset 0 -/
  beyond : Bool
  /-- ms counted within accept towards requalification, REQUALIFYING while counting (14 R421); reset none -/
  requalFor : Option Nat
  /-- ms counted beyond reject since the first such reading (14 R421); reset none -/
  beyondFor : Option Nat
  /-- REF_OFFSET, the latest reading in 2^-10 ppb; reset 0 -/
  reading : Int
  /-- a reading has been taken since it was enabled; reset 0 -/
  read : Bool
  /-- ACT_FAILS; reset 0 -/
  actFails : U32
  /-- DISQUALS; reset 0 -/
  disquals : U32
  /-- WARNS; reset 0 -/
  warns : U32
  deriving DecidableEq, Repr

/-- CLOCK_STATUS.STATE (14 R434). -/
inductive Dpll where
  | freerun
  | acquire
  | locked
  | holdover
  deriving DecidableEq, Repr

/-- A phase pull (14 R431): the phase still to pull at a Plinth time, in 10^-9 of 2^-16 ns so that a slope in ns/s takes whole
units off it. -/
structure Pull where
  left : Int
  at_ : Nat
  deriving DecidableEq, Repr

/-- The clock root (14). -/
structure Clock where
  refs : Vector Ref 5
  /-- STATE; reset FREERUN -/
  state : Dpll
  /-- SELECTED; reset none -/
  selected : Option Nat
  /-- MODE, true MANUAL; reset 0 -/
  manual : Bool
  /-- MANUAL_REF; reset 0 -/
  manualRef : Nat
  /-- the pull in progress (14 R431), PULL and PULL_LEFT; reset none -/
  pull : Option Pull
  /-- CLAMPED; reset 0 -/
  clamped : Bool
  /-- the pairs of references that disagree, with the Plinth time at which they last differed beyond the limit (14 R425),
  from which DISAGREE reads; reset none -/
  disagree : List (Nat × Nat × Nat)
  /-- HIST_VALID; reset 0 -/
  histValid : Bool
  /-- XO_OK; reset 0 -/
  xoOk : Bool
  /-- DPLL_FREQ, epsilon in 2^-10 ppb; reset 0 -/
  freq : Int
  /-- the values of epsilon of the last 60 s spent in LOCKED, newest first, each with how long it held (14 R426), from which
  HOLDOVER_AVG reads; reset none -/
  hist : List (Int × Nat)
  /-- PHASE_ERR in 2^-4 ns; reset 0 -/
  phaseErr : Int
  /-- SWITCHES; reset 0 -/
  switches : U32
  /-- time spent in LOCKED since RESET_N, from which LOCKED_SECONDS reads; reset 0 -/
  lockedTime : Nat
  /-- Plinth time since when the present epsilon has held in LOCKED; reset none -/
  lockedAt : Option Nat
  /-- bandwidth code set; reset 3 -/
  code : Nat
  /-- pull-in slope in ns/s; reset 1,000 -/
  slope : Nat
  /-- disagree limit in ppb; reset 1,000 -/
  disagreeLimit : Nat
  deriving DecidableEq, Repr

/-! ### Trims (15) -/

/-- A lane trim run (15 R438): the value index, the direction, steps taken in it, the best count, the code at the start of
each value and the codes at the start of the run. -/
structure TrimRun where
  index : Nat
  dir : Int
  steps : Nat
  best : Option Nat
  trial : Bool
  startCodes : List Int
  /-- the run started for bring-up: bring-up goes on when it ends -/
  bringUp : Bool
  deriving DecidableEq, Repr

/-- The trims of a lane (15 R437 to R440, R453). -/
structure LaneTrim where
  /-- the 11 codes in use, in the order of 15 R437; reset 8 for CTLE, 0 for the others -/
  codes : List Int
  /-- codes restored for the next bring-up (15 R452); reset none -/
  stored : Option (List Int)
  /-- the run in progress; reset none -/
  run : Option TrimRun
  /-- INDEX of the last value trimmed; reset 0 -/
  index : Nat
  /-- REF_TEMP in 1/16 °C; reset 0 -/
  refTemp : Int
  /-- VALID; reset 0 -/
  valid : Bool
  /-- a trigger that fired in L1 and runs on wake (15 R440); reset 0 -/
  pending : Bool
  deriving DecidableEq, Repr

/-- A level trim of a stream (15 R441): its interval once begun, n and S2 per pair, whether the interval has ended, and
the boundary at which its gains take effect. -/
structure LevelTrim where
  stream : Nat
  start : Option Nat
  sums : List ((Nat × Nat) × (Nat × Nat))
  ended : Bool
  boundary : Option Nat
  /-- pairs an INTAKE_SET_GAINS replaced (15 R445) -/
  replaced : List (Nat × Nat)
  deriving DecidableEq, Repr

/-- A level trim of a chain (15 R443): blocks finished and the one in progress. -/
structure ChainTrim where
  chain : Nat
  blocks : List Nat
  sum : Nat
  count : Nat
  deriving DecidableEq, Repr

/-- The cell section of a trim image (15 R451). -/
structure CellWords where
  rows : List Nat
  fences : List Nat
  deriving DecidableEq, Repr

/-- A kept gain block for a stream not yet defined (15 R452). -/
structure KeptGains where
  stream : Nat
  inputs : Nat
  channels : Nat
  gains : List U16
  deriving DecidableEq, Repr

/-- Trims (15). -/
structure Trims where
  lanes : Vector LaneTrim 52
  /-- level trims in progress; reset none -/
  levels : List LevelTrim
  /-- chain level trims in progress; reset none -/
  chainLevels : List ChainTrim
  /-- the grid test: the next instance p, while one is running or pending, CELL_RUN and CELL_PEND (15 R446, R448); reset none -/
  gridTest : Option Nat
  /-- Plinth time at which the grid test became due, from which CELL_PEND reads (15 R448); reset DESIGN CHOICE 0 (log 3) -/
  gridDue : Nat
  /-- a TRIM_RESTORE's cell words not yet in effect, RESTORING (15 R452); reset none -/
  restoring : Option CellWords
  /-- DIE_TEMP in 1/16 °C; reset 0 -/
  dieTemp : Int
  /-- LEVEL_REF_TEMP; reset DESIGN CHOICE 0 (log 3) -/
  levelRef : Int
  /-- CELL_REF_TEMP; reset DESIGN CHOICE 0 (log 3) -/
  cellRef : Int
  /-- LANE_STEP in m°C; reset 5,000 -/
  laneStep : Nat
  /-- LEVEL_STEP; reset 0 -/
  levelStep : Nat
  /-- CELL_STEP; reset 10,000 -/
  cellStep : Nat
  /-- LANE_RUNS; reset DESIGN CHOICE 0 (log 3) -/
  laneRuns : U32
  /-- LEVEL_RUNS; reset DESIGN CHOICE 0 (log 3) -/
  levelRuns : U32
  /-- CELL_RUNS; reset DESIGN CHOICE 0 (log 3) -/
  cellRuns : U32
  /-- LANE_REVERTS; reset DESIGN CHOICE 0 (log 3) -/
  laneReverts : U32
  /-- LEVEL_SKIPPED; reset DESIGN CHOICE 0 (log 3) -/
  levelSkipped : U32
  /-- SPARE_BAD; reset 0 -/
  spareBad : BitVec 32
  /-- kept gains (15 R452); reset none -/
  keptGains : List KeptGains
  /-- kept seeds by chain (15 R452); reset none -/
  keptSeeds : List (Nat × Nat)
  deriving DecidableEq, Repr

end Sys2Proof.Machine
end

