-- ==== Sys2Proof/Machine/StSys.lean ====
section
/-! DEFINITION. The state of the DMA engines (12), of boot, flash and the service port (19), and of the power logic (20). -/

namespace Sys2Proof.Machine

/-! ### DMA (12) -/

/-- A register set of a channel (12 R378, R386). Spaces: 0 host, 1 HBM, 2 X, 3 Y. -/
structure DmaSet where
  /-- SRC; reset DESIGN CHOICE 0 (log 3) -/
  src : U64
  /-- DST; reset DESIGN CHOICE 0 (log 3) -/
  dst : U64
  /-- LEN; reset DESIGN CHOICE 0 (log 3) -/
  len : U32
  /-- SRC_SPACE; reset 0 -/
  srcSpace : BitVec 2
  /-- DST_SPACE; reset 0 -/
  dstSpace : BitVec 2
  /-- CORE; reset 0 -/
  core : BitVec 3
  /-- IRQ; reset 0 -/
  irq : Bool
  /-- TAG; reset DESIGN CHOICE 0 (log 3) -/
  tag : U32
  deriving DecidableEq, Repr

/-- A transfer in the active set (12 R376, R377, R383). -/
structure Active where
  set : DmaSet
  /-- the engine is moving it (RUNNING); else LOADED -/
  running : Bool
  /-- the status with which it ends at the next burst boundary (ABORTING); none while it goes on -/
  endAs : Option Nat
  /-- it moves no further burst and owes its completion record -/
  ended : Bool
  /-- it ends for a power-down (R385) -/
  power : Bool
  /-- it ends without a record, at a function-level reset (R384) -/
  silent : Bool
  /-- bytes done -/
  done : Nat
  /-- Plinth time at which its last byte became visible, none before (R380, R381) -/
  visible : Option Nat
  /-- the running CRC register (R377) -/
  crc : BitVec 32
  poisoned : Bool
  deriving DecidableEq, Repr

/-- A DMA channel (12 R378 to R386). -/
structure Channel where
  shadow : DmaSet
  /-- SHADOW_ARMED; reset 0 -/
  armed : Bool
  /-- SHADOW_ERR; reset 0 -/
  shadowErr : Bool
  /-- the active set; reset none (IDLE) -/
  act : Option Active
  /-- the last transfer's bytes done and tag, for ACT_DONE and ACT_TAG; reset DESIGN CHOICE 0 (log 3) -/
  lastDone : U32
  lastTag : U32
  /-- CQ_BASE; reset DESIGN CHOICE 0 (log 3) -/
  cqBase : U64
  /-- CQ_CFG.LOG2; reset 0x4 -/
  cqLog2 : BitVec 4
  /-- CQ_CFG.SPACE, true HBM; reset 0 -/
  cqHbm : Bool
  /-- CQ_CFG.ENABLE; reset 0 -/
  cqEnable : Bool
  /-- CQ_HEAD; reset DESIGN CHOICE 0 (log 3) -/
  cqHead : U16
  /-- CQ_TAIL; reset DESIGN CHOICE 0 (log 3) -/
  cqTail : U16
  /-- PHASE of the next entry (12 R380); reset DESIGN CHOICE 1 (log 3) -/
  phase : Bool
  /-- TRANSFERS; reset DESIGN CHOICE 0 (log 3) -/
  transfers : U32
  /-- ABORTS; reset DESIGN CHOICE 0 (log 3) -/
  aborts : U32
  deriving DecidableEq, Repr

/-- The DMA engines 0 to 6: BDMA0, BDMA1, MDMA_A, MDMA_G0 to MDMA_G3 (12 R370). -/
structure Dma where
  channels : Vector Channel 36
  /-- the channel each engine last served (12 R379); reset DESIGN CHOICE none (log 3), so the first search starts at the
  engine's lowest channel -/
  last : Vector (Option Nat) 7
  deriving DecidableEq, Repr

/-! ### Boot (19) -/

/-- BOOT_STATUS.MODE (19 R546). -/
inductive BootMode where
  | rom
  | firmware
  | recovery
  deriving DecidableEq, Repr

/-- A flash slot (19 R528, R530): its header sector's 512 bytes as programmed, none when erased, and its image bytes by
4,096-byte chunk as programmed. -/
structure Slot where
  header : Option (List Byte)
  chunks : List (Nat × List Byte)
  deriving DecidableEq, Repr

/-- An entry of a boot record copy (19 R529): the 64 bytes programmed. -/
abbrev BootEntry := List Byte

/-- A download (19 R536). -/
structure Download where
  slot : Nat
  length : Nat
  next : Nat
  deriving DecidableEq, Repr

/-- Boot, flash and the service port (19). -/
structure Boot where
  /-- MODE; reset ROM -/
  mode : BootMode
  /-- RUN_SLOT; reset 0 -/
  runSlot : Nat
  /-- TRIAL; reset 0 -/
  trial : Bool
  /-- TRIAL_COUNT; reset 0 -/
  trialCount : Nat
  /-- the pending activation: slot and T (19 R537), ACT_PENDING; reset none -/
  activation : Option (Nat × Nat)
  /-- the download in progress, DOWNLOAD; reset none -/
  download : Option Download
  /-- SETTINGS_DEFAULT; reset 0 -/
  settingsDefault : Bool
  /-- LAST_RESULT; reset 0 -/
  lastResult : Nat
  /-- STRAP_RECOVERY; reset 0 -/
  strapRecovery : Bool
  /-- STRAP_QUAD; reset 0 -/
  strapQuad : Bool
  /-- READY; reset 0 -/
  ready : Bool
  /-- HINT, true PREVIOUS; reset 0 -/
  hint : Bool
  /-- FORMATS.MAQUETTE; reset 0 -/
  maqFormat : Nat
  /-- FORMATS.SETTINGS; reset 0 -/
  setFormat : Nat
  /-- BOOTS; reset DESIGN CHOICE 0 (log 3) -/
  boots : U32
  /-- SVC_CMDS; reset DESIGN CHOICE 0 (log 3) -/
  svcCmds : U32
  /-- SVC_CRC_ERR; reset DESIGN CHOICE 0 (log 3) -/
  svcCrcErr : U32
  /-- SVC_DROPPED; reset DESIGN CHOICE 0 (log 3) -/
  svcDropped : U32
  /-- the two boot record copies: entries 0 to 63 as programmed, an erased one not listed (19 R529) -/
  rec0 : List (Nat × BootEntry)
  rec1 : List (Nat × BootEntry)
  /-- the two settings copies as programmed, none when erased (19 R532) -/
  set0 : Option (List Byte)
  set1 : Option (List Byte)
  slotA : Slot
  slotB : Slot
  /-- the owner key hash in OTP, none while not programmed (19 R531, 20 R561) -/
  keyHash : Option (List Byte)
  /-- a settings write held while the image is on trial (19 R533); reset none -/
  heldSettings : Option (List Byte)
  /-- the response that waits for READ (19 R534); reset none -/
  svcPending : Option (List Byte)
  /-- a command that came during an Armature restart, with its opcode (19 R535); reset none -/
  svcWaiting : Option (Nat × SvcCmd)
  /-- SVC_ATTN_N level, true high (19 R534); reset high -/
  svcAttnN : Bool
  /-- a trial that ended under R542: the slot, its image version and the format found (19 R540); reset none -/
  incompatible : Option (Nat × Nat × Nat)
  deriving DecidableEq, Repr

/-! ### Power (20) -/

/-- A power domain change in progress (20 R552, 12 R385): the domain, whether it goes off, and the Plinth time at which the
deferral limit ends. -/
structure DomainChange where
  domain : Nat
  off : Bool
  limit : Nat
  deriving DecidableEq, Repr

/-- The power logic (20). -/
structure Power where
  /-- POWER_STATUS.DOMAIN_ON; reset 0xFF -/
  domainOn : BitVec 8
  /-- changes in progress, DOMAIN_CHANGING; reset none -/
  changing : List DomainChange
  /-- stacks powering down to OFF, by mask, and the Plinth time at which the deferral limit ends (12 R385); reset none -/
  stacksGoing : Option (BitVec 6 × Nat)
  /-- the code on CORE_VID, POWER_STATUS.VID; reset 0x10 -/
  vid : BitVec 6
  /-- Plinth time of the last step of CORE_VID (20 R549); reset none -/
  vidTime : Option Nat
  /-- the die is in reset (20 R554); reset DESIGN CHOICE 0: State.reset is the die just out of reset (log 25) -/
  inReset : Bool
  /-- the thermal trip holds the die in reset (20 R558); reset 0 -/
  tripped : Bool
  /-- VDD_IO is at or above 1.62 V (20 R549); reset DESIGN CHOICE 1 (log 25) -/
  vddIo : Bool
  /-- PWR_GOOD is high (20 R554); reset DESIGN CHOICE 1 (log 25) -/
  pwrGood : Bool
  deriving DecidableEq, Repr

end Sys2Proof.Machine
end

