-- ==== Sys2Proof/Machine/StFrieze.lean ====
section
/-! DEFINITION. The state of the Frieze beamformer (07). -/

namespace Sys2Proof.Machine

/-- The sum of one beam, channel and row: the 40-bit parts, the input count of its granule, whether that is below the full
count, and whether its residue check failed here (07 R216, R217, R224, R227). -/
structure BSample where
  re : Int
  im : Int
  count : Nat
  short : Bool
  bad : Bool
  deriving DecidableEq, Repr

/-- What one row brings to one beam besides its sums (07 R205, R207, R217, R220, R226). -/
structure RowMarks where
  weightSat : Bool
  expired : Bool
  changed : Bool
  gainChanged : Bool
  importLate : Bool
  bank : Bool
  /-- residue mismatches of the row -/
  residue : Nat
  /-- every partial sum taken was VERIFIED and in time (R221) -/
  verified : Bool
  deriving DecidableEq, Repr

/-- One row of one beam: its counter, its sums by channel index and its marks (07 R199, R222). -/
structure BeamRow where
  counter : Nat
  chans : List BSample
  marks : RowMarks
  deriving DecidableEq, Repr

/-- A PSUM sample that has arrived (07 R219 to R221): its counter, the local beam, its sums and counts by channel, and
whether its record carried VERIFIED. A sample of a FLAGGED record is short. -/
structure ImpRow where
  counter : Nat
  beam : Nat
  chans : List BSample
  verified : Bool
  deriving DecidableEq, Repr

/-- An import binding (07 R219, R220): receive group, source, remote product and W_imp in 0.1 us. -/
structure Import where
  group : Nat
  serial : U32
  remote : Nat
  window : Nat
  /-- die sums that wait, oldest first: the Plinth time since when, the beam of the product, and its row -/
  waiting : List (Nat × Nat × BeamRow)
  /-- PSUM samples that arrived before their die sum went on -/
  arrived : List ImpRow
  deriving DecidableEq, Repr

/-- A gain-area change not yet done (07 R214): the new area, the boundary, the Clause owed its second entry, and whether
that entry has been made due. -/
structure GainChange where
  area : Nat
  boundary : Nat
  src : Src
  deriving DecidableEq, Repr

/-- A Frieze product (07 R200). -/
structure FzProd where
  pid : Nat
  map : Nat
  chBase : Nat
  chCount : Nat
  beams : Nat
  beamBase : Nat
  /-- 0 B8, 1 B16, 2 P32, 3 PSUM (R225) -/
  format : Nat
  /-- log2 of T_r (R225) -/
  log2T : Nat
  /-- log2 of n_p (R223) -/
  log2Np : Nat
  /-- ORDER TF (R225) -/
  tf : Bool
  /-- sh or sh_p per beam (R222, R223) -/
  shifts : List Nat
  /-- shifts that take effect at the beam's next record boundary, as (beam, boundary, shift) (R222) -/
  newShifts : List (Nat × Nat × Nat)
  /-- EMIT mask per beam (R228) -/
  emit : List Bool
  /-- 0 LOCAL, 1 HEAD, 2 MIDDLE, 3 TAIL (R218) -/
  role : Nat
  /-- the product's own gain table (R213) -/
  ownArea : Nat
  /-- the gain area in use (R213) -/
  area : Nat
  gainChange : Option GainChange
  /-- gains read ahead, by granule index: [channel][position] gains, none where the read returned poison (R213, R215) -/
  gains : List (Nat × List (Option (Int × Int)))
  /-- the granule boundaries at which the gain area changed, for GAIN_CHANGED (R214) -/
  gainEdges : List Nat
  /-- pages of the delay store, [beam][position / 16] (R206) -/
  pages : List Nat
  /-- entries were loaded into the inactive bank since the last switch (R209) -/
  loaded : Bool
  /-- first row the product takes (R228, R232 BEAM_RESUME) -/
  start : Nat
  /-- the record boundary at which it stops, and whether it is released there (R228, R232) -/
  stop : Option (Nat × Bool)
  /-- delay entries that read uncorrectable in the granule in progress: (beam, position) (R212) -/
  badDelays : List (Nat × Nat)
  imp : Option Import
  /-- rows summed and not yet in a finished record, per beam -/
  asm : List (List BeamRow)
  /-- index of the next record and the beam whose record comes next (R228) -/
  nextRec : Nat
  nextBeam : Nat
  deriving DecidableEq, Repr

/-- A bank switch pending (07 R209): T, the new t_ref and the counter t it takes effect at. -/
structure BankSwitch where
  time : Nat
  tRef : Nat
  counter : Nat
  deriving DecidableEq, Repr

/-- A swap (07 R210): product (4,096 once its product has gone), beam, the new entries, the row the new entries apply from
once known, and the Clause that made it. -/
structure DelaySwap where
  pid : Nat
  beam : Nat
  entries : List U64
  row : Nat
  src : Src
  deriving DecidableEq, Repr

/-- The Frieze (07). -/
structure Frieze where
  /-- FRIEZE_STATUS.BANK_MODE, single-bank (07 R231); reset 0 -/
  single : Bool
  /-- ACTIVE_BANK (07 R231), true B; reset 0 -/
  bankB : Bool
  /-- SWITCH_PENDING and its switch (07 R209); reset none -/
  switch : Option BankSwitch
  /-- SWITCH_CTR, counter of the pending or last switch (07 R231); reset DESIGN CHOICE 0 (log 3) -/
  switchCtr : U64
  /-- SWAP_BUSY: the swap whose copy is in progress (07 R210); reset none -/
  swap : Option DelaySwap
  /-- swaps that wait for the copy to end (07 R210); reset none -/
  swaps : List DelaySwap
  /-- EXPIRED; reset 0 -/
  expired : Bool
  /-- RESIDUE_SEEN; reset 0 -/
  residueSeen : Bool
  /-- delay entries of bank A, or of the one bank, by index; one not listed is 0 (07 R206, R211) -/
  entriesA : List (Nat × Nat)
  /-- delay entries of bank B, by index; one not listed is 0 (07 R206, R211) -/
  entriesB : List (Nat × Nat)
  /-- t_ref of bank A (07 R207); reset DESIGN CHOICE 0 (log 3) -/
  tRefA : Nat
  /-- t_ref of bank B (07 R207); reset DESIGN CHOICE 0 (log 3) -/
  tRefB : Nat
  /-- the active bank's expiry was reported since the last switch (07 R207); reset 0 -/
  expiryTold : Bool
  /-- Plinth time of the last mismatch record of each slice (07 R217); reset none -/
  residueTime : Vector (Option Nat) 16
  /-- WEIGHT_SAT (07 R231); reset DESIGN CHOICE 0 (log 3) -/
  weightSat : U32
  /-- REQUANT_SAT (07 R231); reset DESIGN CHOICE 0 (log 3) -/
  requantSat : U32
  /-- RESIDUE_FAIL (07 R231); reset DESIGN CHOICE 0 (log 3) -/
  residueFail : U32
  /-- IMPORT_LATE (07 R231); reset DESIGN CHOICE 0 (log 3) -/
  importLate : U32
  /-- IMPORT_MISMATCH (07 R231); reset DESIGN CHOICE 0 (log 3) -/
  importMismatch : U32
  /-- DELAY_ECC_UNCORR (07 R231); reset DESIGN CHOICE 0 (log 3) -/
  delayEcc : U32
  /-- BEAM_RECORDS (07 R231); reset DESIGN CHOICE 0 (log 3) -/
  beamRecords : U32
  /-- SLICE_RESIDUE[j] (07 R231); reset 0 -/
  sliceResidue : Vector U32 16
  /-- Frieze products, in the order defined -/
  prods : List FzProd
  deriving DecidableEq, Repr

end Sys2Proof.Machine
end

