-- ==== Sys2Proof/Machine/StChisel.lean ====
section
/-! DEFINITION. The state of the Chisel zoom chains (08). -/

namespace Sys2Proof.Machine

/-- A sample in a chain with its three bits (08 R237). -/
structure CSample where
  re : Int
  im : Int
  taint : Bool
  sat : Bool
  unchecked : Bool
  deriving DecidableEq, Repr

/-- A prototype (08 R239): its 16 M coefficients and its world. -/
structure Proto where
  coefs : List Int
  world : World
  deriving DecidableEq, Repr

/-- A FIR bank (08 R243): its coefficients c[0] to c[L - 1], its shift and its declared delay in half samples. -/
structure FirBank where
  coefs : List Int
  sh : Nat
  delay : Nat
  deriving DecidableEq, Repr

/-- The tune settings of a chain that ZOOM_SET_TUNE changes (08 R264). -/
structure Tune where
  ftw : Nat
  phase0 : Nat
  shIn : Nat
  shS1 : Nat
  shS2 : Nat
  shNco : Nat
  shH : List Nat
  deriving DecidableEq, Repr

/-- The alignment settings (08 R246, R248): A, ALIGN_PHASE, sh_al and EXT_DELAY. -/
structure Align where
  a : Nat
  phase : Nat
  shAl : Nat
  extDelay : Int
  deriving DecidableEq, Repr

/-- The detector settings (08 R249 to R253, R258, R262) that ZOOM_SET_DETECT changes. The hold limit is in seconds; `seed`
is the floor seed of a block with SEED_VALID. -/
structure Detect where
  log2N : Nat
  lambda : Nat
  alphaUp : Nat
  alphaDown : Nat
  thOn : Nat
  thOff : Nat
  nOn : Nat
  nOff : Nat
  persistMs : Nat
  holdS : Nat
  trigMask : Nat
  /-- TIME_OUT pin (R262), none for no pin -/
  pin : Option Nat
  toMask : Nat
  /-- TO_OFFSET in ns (R262) -/
  toOffset : Nat
  seed : Option Nat
  deriving DecidableEq, Repr

/-- A FIR switch pending or fading (08 R245). -/
structure FirSwitch where
  at_ : Nat
  fade : Nat
  deriving DecidableEq, Repr

/-- A detection interval whose power is complete or being summed (08 R249): its first output index and log2 of n_det. -/
structure Interval where
  first : Nat
  log2N : Nat
  power : Nat
  taint : Bool
  sat : Bool
  unchecked : Bool
  deriving DecidableEq, Repr

/-- A run of above intervals in OFF, or of below intervals in ON (08 R251): the first output index of its first interval,
its length, its largest power, and whether a tainted interval fell in it. -/
structure DetRun where
  first : Nat
  len : Nat
  peak : Nat
  taint : Bool
  deriving DecidableEq, Repr

/-- CHAIN_STATUS.DET_STATE of a chain with a detector (08 R250, R251). -/
inductive DetState where
  | off
  | learn
  | on
  deriving DecidableEq, Repr

/-- What ZOOM_REBASELINE sets the floor from (08 R255). -/
inductive Rebase where
  | seed
  | value (f : Nat)
  | learn
  deriving DecidableEq, Repr

/-- The detector state of a chain (08 R249 to R256). -/
structure Detector where
  det : DetState
  /-- F -/
  floor : Nat
  /-- sum and count of the untainted intervals of LEARN -/
  learnSum : Nat
  learnCount : Nat
  /-- frozen by ON -/
  frozenOn : Bool
  /-- STUCK_ON issued and not yet rebaselined -/
  stuck : Bool
  /-- the run in progress -/
  run : Option DetRun
  /-- first output index of the onset interval of the ON state, and the peak power since -/
  onset : Nat
  peak : Nat
  /-- first output index of the interval that decided ON -/
  decided : Nat
  /-- suppressed crossings of the flicker window in progress and whether it held a tainted interval -/
  crossings : Nat
  winTaint : Bool
  /-- a tainted interval fell since the onset -/
  onTaint : Bool
  /-- the last interval decided, for an OFF that no interval decides (R255, R268) -/
  last : Option Interval
  /-- the second of referred decision time of the last event, and the events emitted in it (R256) -/
  second : Option (Int × Nat)
  /-- events dropped since the last event emitted (R256) -/
  droppedSince : Nat
  /-- the floor is held by a level trim (R255) -/
  held : Bool
  deriving DecidableEq, Repr

/-- A capture (08 R258 to R260): ID, trigger cause, trigger index, extent, slot and retriggers. -/
structure Capture where
  id : Nat
  cause : Nat
  trigger : Nat
  pre : Nat
  post : Nat
  /-- the first sample index that the ring still held when it opened -/
  oldest : Nat
  retriggers : Nat
  slot : Nat
  deriving DecidableEq, Repr

/-- A capture emit slot in use (08 R259): the capture, and the sequence number once its record is on its way. -/
structure CapSlot where
  id : Nat
  seq : Option Nat
  deriving DecidableEq, Repr

/-- A ZOOM record under assembly (08 R264): its start, what its descriptor says of the span start, the changes and residue
mismatches in its span, and whether its span began before the chain started. Its sample words stand in the emit slot. -/
structure ZoomAsm where
  start : Nat
  bankB : Bool
  taps : Nat
  ftw : Nat
  g2 : Nat
  a : Nat
  phase : Nat
  fade : Bool
  ncoChanged : Bool
  alignChanged : Bool
  mismatches : Nat
  short : Bool
  deriving DecidableEq, Repr

/-- CHAIN_STATUS.STATE (08 R270); a standby's chains read GATED (R269). -/
inductive ChainState where
  | undefined
  | run
  | suspended
  deriving DecidableEq, Repr

/-- A chain (08 R233, R270). -/
structure Chain where
  /-- CHAIN_STATUS.STATE; reset UNDEFINED -/
  state : ChainState
  /-- ZOOM product ID (R233); reset DESIGN CHOICE 0 (log 3) -/
  zoom : Nat
  /-- EVENT product ID, none for 0xFFFF; reset none -/
  event : Option Nat
  /-- CAPTURE product ID, none for 0xFFFF; reset none -/
  capture : Option Nat
  /-- device beam index that feeds it; reset DESIGN CHOICE 0 (log 3) -/
  beam : Nat
  /-- log2 of M (R235); reset DESIGN CHOICE 0 (log 3) -/
  log2M : Nat
  /-- first slot s0 (R235); reset DESIGN CHOICE 0 (log 3) -/
  slot0 : Nat
  /-- prototype handle (R239); reset DESIGN CHOICE 0 (log 3) -/
  proto : Nat
  tune : Tune
  /-- tune settings of the next ZOOM record boundary (R264); reset none -/
  nextTune : Option (Nat × Tune)
  /-- H (R235); reset DESIGN CHOICE 0 (log 3) -/
  halfBands : Nat
  /-- D (R235); reset DESIGN CHOICE 1 (log 3) -/
  decim : Nat
  /-- FIR bank A (R244); reset one tap of 0 -/
  bankA : FirBank
  /-- FIR bank B (R244); reset one tap of 0 -/
  bankB : FirBank
  /-- CHAIN_STATUS.FIR_BANK, true B; reset 0 -/
  active : Bool
  /-- SWITCH_PENDING; reset none -/
  switch : Option FirSwitch
  align : Align
  /-- alignment of the next ZOOM record boundary (R246); reset none -/
  nextAlign : Option (Nat × Align)
  /-- log2 of T_z (R264); reset DESIGN CHOICE 6 (log 3) -/
  log2Tz : Nat
  detect : Detect
  /-- detector settings that take effect at an output index, oldest first (R271); reset none -/
  nextDetect : List (Nat × Detect)
  /-- a rebaseline of the next interval boundary, with the output index (R255); reset none -/
  nextRebase : Option (Nat × Rebase)
  /-- the seed (R250); reset none -/
  seed : Option Nat
  det : Detector
  /-- capture ring base and log2 of its bytes (R257); reset none -/
  ringBase : Nat
  ringLog2 : Nat
  /-- P_pre and P_post (R258); reset DESIGN CHOICE 0 (log 3) -/
  pre : Nat
  post : Nat
  /-- the next row the chain takes (R234, R268); reset DESIGN CHOICE 0 (log 3) -/
  row : Nat
  /-- the first output index since the chain started or resumed (R267); reset DESIGN CHOICE 0 (log 3) -/
  first : Nat
  /-- G2 and EXT_DELAY by the output index from which they hold, newest first (R248); reset none -/
  refHist : List (Nat × Nat × Int)
  /-- the output index it stops at, and whether it is released there (R268); reset none -/
  stop : Option (Nat × Bool)
  /-- rows of its beam not yet taken (R234), oldest first; reset none -/
  inbox : List BeamRow
  /-- histories, newest first: stitch branches m, half-band inputs h, FIR input, FIR output (R237, R238); reset none -/
  uhist : List (List CSample)
  hbHist : List (List CSample)
  firHist : List CSample
  alHist : List CSample
  /-- the next output index (R243); reset 0 -/
  nOut : Nat
  /-- the detection interval being summed; reset none -/
  interval : Option Interval
  /-- intervals complete and not yet decided, oldest first; reset none -/
  dueIntervals : List Interval
  /-- ZOOM record under assembly; reset none -/
  asm : Option ZoomAsm
  /-- residue mismatches since the last ZOOM record, for the descriptor of the next (R264); reset 0 -/
  carried : Nat
  /-- the open capture; reset none -/
  opened : Option Capture
  /-- captures whose last sample is written and whose copy runs, oldest first; reset none -/
  copying : List Capture
  /-- capture emit slots; reset free -/
  capSlots : Vector (Option CapSlot) 2
  /-- next capture ID (R259); reset 0 -/
  nextCapture : Nat
  /-- Plinth time of the last RESIDUE record (R237); reset none -/
  residueTime : Option Nat
  /-- SAT_SAMPLES (R270); reset DESIGN CHOICE 0 (log 3) -/
  satSamples : U32
  /-- TAINT_SAMPLES; reset DESIGN CHOICE 0 (log 3) -/
  taintSamples : U32
  /-- EVENTS; reset DESIGN CHOICE 0 (log 3) -/
  events : U32
  /-- EVENTS_DROPPED; reset DESIGN CHOICE 0 (log 3) -/
  eventsDropped : U32
  /-- CAPTURES; reset DESIGN CHOICE 0 (log 3) -/
  captures : U32
  /-- CAPTURE_MISSED; reset DESIGN CHOICE 0 (log 3) -/
  captureMissed : U32
  /-- RESIDUE_FAIL; reset DESIGN CHOICE 0 (log 3) -/
  residueFail : U32
  /-- TO_LATE; reset DESIGN CHOICE 0 (log 3) -/
  toLate : U32
  /-- FLICKER_CROSSINGS; reset DESIGN CHOICE 0 (log 3) -/
  flickerCrossings : U32
  deriving DecidableEq, Repr

/-- The Chisel (08). -/
structure Chisel where
  chains : Vector Chain 64
  /-- prototypes by handle (08 R239); reset none in use -/
  protos : Vector (Option Proto) 8
  /-- RATE_LIMITED (08 R270); reset 0 -/
  rateLimited : Bool
  /-- RESIDUE_SEEN (08 R270); reset 0 -/
  residueSeen : Bool
  deriving DecidableEq, Repr

end Sys2Proof.Machine
end

