-- ==== Sys2Proof/Machine/StGloss.lean ====
section
/-! DEFINITION. The state of the Gloss cores (09). -/

namespace Sys2Proof.Machine

/-- CORE_STATUS.STATE (09 R274, R303); a standby's cores that are not EMPTY read GATED. -/
inductive CoreState where
  | empty
  | loaded
  | running
  | halted
  | faulted
  deriving DecidableEq, Repr

/-- An active hardware loop (09 R286): first and last address of its body and the iterations still to run, the one in
progress included. -/
structure LoopFrame where
  first : Nat
  last : Nat
  left : Nat
  deriving DecidableEq, Repr

/-- What the last instructions wrote, for the hazards of 09 R289: pointers whose P, K, BASE or EXT a MOV, PADDI, SETBS or
SETEX wrote in the last instruction and in the one before, accumulators a P-format instruction wrote last, and whether Z
or N was set last (09 R289). -/
structure Hazards where
  ptr1 : List Nat
  ptr2 : List Nat
  accs : List Nat
  zn : Bool
  deriving DecidableEq, Repr

/-- What a core stalls on (09 R294, R298): WAITF n, or the OPEN of an EMIT with its operand; and the Plinth time since
when. -/
inductive CoreWait where
  | waitf (n since : Nat)
  | emitOpen (f : EF) (since : Nat)
  deriving DecidableEq, Repr

/-- A segment of an unpack program (09 R295): a byte count, none for the rest, and a mode. -/
structure UnpackSeg where
  count : Option Nat
  mode : Nat
  deriving DecidableEq, Repr

/-- A record that lies in a feed buffer (09 R292): the running byte count at its first byte, its length, and its number,
type, start counter and time, for the GAP record that replaces it where a byte of it is poisoned (10 R326). -/
structure FeedRec where
  pos : Nat
  len : Nat
  seq : Nat
  rtype : Nat
  start : Nat
  time : Nat
  deriving DecidableEq, Repr

/-- An attachment (09 R292, R298). -/
structure Attach where
  source : Option Nat
  feedBase : Nat
  feedLog2 : Nat
  inBase : Nat
  inLog2 : Nat
  unpack : List UnpackSeg
  derived : Nat
  slotBase : Nat
  slotLog2 : Nat
  /-- declared rate in bytes per second (R298) -/
  rate : Nat
  /-- running byte counts of the feed buffer: freed and written -/
  head : Nat
  tail : Nat
  recs : List FeedRec
  /-- declines pending (R171, R172) -/
  declines : List Decline
  declining : Bool
  /-- a GLOSS_DETACH waits for the record in progress (R304) -/
  detaching : Bool
  /-- the GAP record of the detachment has been made -/
  gapMade : Bool
  deriving DecidableEq, Repr

/-- The frame being written into the inbound area (09 R293): words still to write, and the feed bytes to free at its end. -/
structure FrameOut where
  words : List Nat
  free : Nat
  deriving DecidableEq, Repr

/-- A source frame whose flags a DERIVED record may inherit (09 R299): count of its first word, its length in words, its
header flags and whether it is a GAP record. -/
structure SrcFrame where
  first : Nat
  words : Nat
  flags : Nat
  gap : Bool
  /-- IN_RD has passed its first word since the previous CLOSE -/
  passed : Bool
  deriving DecidableEq, Repr

/-- An open DERIVED record (09 R297): its 20 header words, its slot and its payload bytes so far, which stand in the slot. -/
structure DerivOpen where
  header : List Nat
  slot : Nat
  len : Nat
  deriving DecidableEq, Repr

/-- A closed DERIVED record, or a GAP or ERROR record behind one, that has not left (09 R298): its number, its slot (none for
the others), header fields, payload length and flags; for a GAP record its cause, the first number missing and their count;
for an ERROR record its log entry. -/
structure DerivItem where
  seq : Nat
  slot : Option Nat
  entry : Option LogEntry
  start : Nat
  span : Nat
  aux : Nat
  time : Nat
  flags : Nat
  len : Nat
  cause : Nat
  first : Nat
  count : Nat
  deriving DecidableEq, Repr

/-- What occupies an emit slot of a core (09 R298): an open record, a closed one, or the number of one on its way. -/
inductive CoreSlot where
  | free
  | opened
  | closed
  | leaving (seq : Nat)
  deriving DecidableEq, Repr

/-- LAST_TRAP (09 R303). -/
structure Trap where
  pc : Nat
  cause : Nat
  deriving DecidableEq, Repr

/-- A Gloss core (09 R276, R277, R303). -/
structure Core where
  /-- CORE_STATUS.STATE; reset EMPTY -/
  state : CoreState
  /-- the state the Maquette records (R301); reset EMPTY -/
  commanded : CoreState
  /-- V0 to V7 (R276); reset DESIGN CHOICE 0 (log 3) -/
  v : Vector (BitVec 24) 8
  /-- P0 to P7; reset DESIGN CHOICE 0 (log 3) -/
  p : Vector (BitVec 15) 8
  /-- K0 to K7; reset DESIGN CHOICE 0 (log 3) -/
  k : Vector (BitVec 16) 8
  /-- FL.Z; reset DESIGN CHOICE 0 (log 3) -/
  z : Bool
  /-- FL.N; reset DESIGN CHOICE 0 (log 3) -/
  n : Bool
  /-- FL.AV; reset DESIGN CHOICE 0 (log 3) -/
  av : Bool
  /-- FL.SAT; reset DESIGN CHOICE 0 (log 3) -/
  sat : Bool
  /-- FL.EOV; reset DESIGN CHOICE 0 (log 3) -/
  eov : Bool
  /-- BX (R288); reset DESIGN CHOICE 23 (log 3) -/
  bx : BitVec 5
  /-- IN_WR (R294); reset DESIGN CHOICE 0 (log 3) -/
  inWr : BitVec 24
  /-- IN_RD (R294); reset DESIGN CHOICE 0 (log 3) -/
  inRd : BitVec 24
  /-- GCLK cycles since the core was started (R276 TIMER is its low 24 bits); reset DESIGN CHOICE 0 (log 3) -/
  timer : BitVec 24
  /-- W0 to W3 (R283); reset DESIGN CHOICE 0 (log 3) -/
  w : Vector (BitVec 56) 4
  /-- BASE0 to BASE7; reset DESIGN CHOICE 0 (log 3) -/
  base : Vector (BitVec 15) 8
  /-- EXT0 to EXT7; reset DESIGN CHOICE 0 (log 3) -/
  ext : Vector (BitVec 17) 8
  /-- PC (R303 PC_SNAP); reset DESIGN CHOICE 0 (log 3) -/
  pc : BitVec 14
  /-- active loops, innermost first (R286); reset none -/
  loops : List LoopFrame
  /-- return addresses, innermost first (R287); reset none -/
  calls : List Nat
  /-- X memory (R277): words at addresses, canonical; reset DESIGN CHOICE 0 (log 3) -/
  x : List (Nat × Nat)
  /-- Y memory (R277); reset DESIGN CHOICE 0 (log 3) -/
  y : List (Nat × Nat)
  /-- program memory (R277); reset DESIGN CHOICE 0 (log 3) -/
  prog : List (Nat × Nat)
  /-- the image loaded, as the Maquette records it (R301, R302); reset none -/
  image : List Byte
  /-- entry address (R302); reset DESIGN CHOICE 0 (log 3) -/
  entry : BitVec 14
  haz : Hazards
  /-- stores of the last instruction, as (Y memory, address), for R278; reset none -/
  stored : List (Bool × Nat)
  /-- WAITING (R303); reset none -/
  waiting : Option CoreWait
  /-- the attachment (R292), ATTACHED when it has a source; reset none -/
  attach : Option Attach
  /-- the frame being copied (R293); reset none -/
  frame : Option FrameOut
  /-- source frames (R299); reset none -/
  frames : List SrcFrame
  /-- RECORD_OPEN (R303); reset none -/
  opened : Option DerivOpen
  /-- closed records not yet released (R298), oldest first; reset none -/
  closed : List DerivItem
  /-- emit slots (R298); reset free -/
  slots : Vector CoreSlot 2
  /-- the emitter's AV (R299); reset 0 -/
  emAv : Bool
  /-- the emitter's SAT (R299); reset 0 -/
  emSat : Bool
  /-- the emitter's EOV (R299); reset DESIGN CHOICE 0 (log 3) -/
  emEov : Bool
  /-- COLLIDE (R299); reset DESIGN CHOICE 0 (log 3) -/
  collide : Bool
  /-- Plinth time and bytes of the last records released, newest first (R298); reset none -/
  lastOut : List (Nat × Nat)
  /-- CYCLES (R303); reset DESIGN CHOICE 0 (log 3) -/
  cycles : U64
  /-- STALL_CYCLES; reset DESIGN CHOICE 0 (log 3) -/
  stalls : U32
  /-- FEED_FRAMES; reset DESIGN CHOICE 0 (log 3) -/
  feedFrames : U32
  /-- FEED_DECLINED; reset DESIGN CHOICE 0 (log 3) -/
  feedDeclined : U32
  /-- DERIVED_RECORDS; reset DESIGN CHOICE 0 (log 3) -/
  derivedRecords : U32
  /-- ECC_CORR; reset DESIGN CHOICE 0 (log 3) -/
  eccCorr : U32
  /-- PORT_COLLIDE; reset DESIGN CHOICE 0 (log 3) -/
  portCollide : U32
  /-- CORE_EVT.EVT; reset 0 -/
  evt : BitVec 8
  /-- LAST_TRAP; reset 0 -/
  lastTrap : Trap
  deriving DecidableEq, Repr

/-- The Gloss cores (09). -/
structure Gloss where
  cores : Vector Core 32
  deriving DecidableEq, Repr

end Sys2Proof.Machine
end

