-- ==== Sys2Proof/Machine/StMaq.lean ====
section
/-! DEFINITION. The Maquette (01 R30, 18 R507, R511): the configuration that an active unit mirrors to its standby. The
spec gives the Maquette no layout, so the mirror messages carry it as this structure. -/

namespace Sys2Proof.Machine

/-- The configuration that is mirrored (01 R30, 07 R230, 08 R269, 09 R301, 18 R507, R510). -/
structure Maquette where
  world : WorldState
  products : List (Nat × Product)
  /-- streams, skew, epoch, gains, corner-turn sets and STATS products as configured (03) -/
  intake : Intake
  rxGroups : List LaneGroup
  txGroups : List LaneGroup
  egress : List (Nat × Nat)
  /-- degrade thresholds by lane (02 R56) -/
  thresholds : List (Nat × U32)
  maps : List InMap
  corrs : List Corr
  frieze : Frieze
  chisel : Chisel
  gloss : Gloss
  /-- HBM allocations (05 R142) -/
  allocs : List Alloc
  /-- port and servo settings and TIME_OUT pins as set (13 R412) -/
  net : NetTime
  /-- CLOCK settings (14 R433) -/
  clock : Clock
  /-- power domains that are on (20 R552) -/
  domainOn : BitVec 8
  /-- HBM data rate in Mb/s (18 R507) -/
  rate : Nat
  /-- usable capacity in granules, for the check of SYNC_DONE (18 R511) -/
  capacity : Nat
  /-- format version of the Maquette (18 R500) -/
  format : Nat
  deriving DecidableEq, Repr

end Sys2Proof.Machine
end

