-- ==== Sys2Proof/Syntax.lean ====
section
/-! DEFINITION. The commands the block takes: one constructor per row of the opcode table, in its order. Clauses carry the
fields of the master opcode table (11 R368) and what the host returned for a buffer the Clause reads; events carry what
the world supplies with them. -/

namespace Sys2Proof

open Sys2Proof.Machine

/-- The commands, one constructor per row of the opcode table. An `HRead` operand is what the host memory returned for a buffer
that the command reads: none where the read failed (11 R367). -/
inductive Instr where
  -- register accesses (00, 11 to 13, 17)
  | regAlignAccess (fn : Fn) (off : Nat) (size : Nat) (write : Bool)
  | registerWrite (fn : Fn) (off : Nat) (val : U32)
  | rcFieldRead (fn : Fn) (off : Nat) (during : Nat)
  | hiLatchRead (fn : Fn) (off : Nat)
  | nowFracRead (fn : Fn)
  | tinPopRead (fn : Fn) (pin : Fin 4)
  | sqTailWrite (fn : Fn) (qp : Fin 8) (val : U32)
  | cqHeadWrite (fn : Fn) (qp : Fin 8) (val : U32)
  | qpEnable (fn : Fn) (qp : Fin 8) (val : U32)
  | qpDisable (fn : Fn) (qp : Fin 8) (val : U32)
  | ringHeadWrite (fn : Fn) (ring : Fin 64) (hi : U32)
  | dmaGo (fn : Fn) (ch : Fin 36) (val : U32)
  | dmaAbort (fn : Fn) (ch : Fin 36)
  | dmaDisarm (fn : Fn) (ch : Fin 36)
  | dmaCqHeadWrite (fn : Fn) (ch : Fin 36) (val : U32)
  | logHeadWrite (fn : Fn) (val : U32)
  | bar2Read (fn : Fn) (addr : Nat) (len : WithEcc Nat)
  | bar2Write (fn : Fn) (addr : Nat) (bytes : WithEcc (List Byte))
  -- host link and queue service (11)
  | ucieLinkTrain (gts0 gts1 : Nat)
  | ucieLinkDown
  | ucieLinkUp
  | busMasterEnableChange (fn : Fn) (on : Bool)
  | functionLevelReset (fn : Fn)
  | queueVisit (slot : HRead)
  | clauseReread (slot : HRead)
  | clauseWaitComplete (fn : Fn) (qp : Fin 8)
  | followEntryWrite (fn : Fn) (qp : Fin 8)
  | deferredChangeEffect (pid : Nat)
  -- SYS Clauses
  | sysNop (src : Src)
  | sysIdentify (src : Src) (buf : HBuf)
  | sysRingDefine (src : Src) (ring vector : U8) (coalesce : U16) (timeUs : U32) (wbAddr : U64) (k : U8) (base : U64)
  | sysRingRelease (src : Src) (ring : U8)
  | sysEnvelopeQuery (src : Src) (buf : HBuf)
  -- LANE Clauses
  | laneGroupDefine (src : Src) (first code dir : U8)
  | laneGroupRelease (src : Src) (first dir : U8)
  | laneSleep (src : Src) (first dir state : U8)
  | laneWake (src : Src) (first dir : U8)
  | laneTxPrecode (src : Src) (first enable : U8)
  | laneSetThresholds (src : Src) (first : U8) (threshold : U32)
  | laneEgressBind (src : Src) (first egress : U8)
  -- INTAKE Clauses
  | intakeStreamDefine (src : Src) (stream : U16) (first flags : U8) (inBase inCount chBase chCount : U16) (source : U32)
  | intakeStreamRelease (src : Src) (stream : U16)
  | intakeSetSkew (src : Src) (w : U16)
  | intakeSetEpoch (src : Src) (t0 : U96) (num den tolerance : U32)
  | intakeSetGains (src : Src) (stream first count chFirst chCount : U16) (buf : HBuf) (data : HRead)
  | intakeStatsDefine (src : Src) (pid stream inBase inCount chBase chCount : U16) (log2Int tap : U8) (route : U32)
  | intakeStatsRelease (src : Src) (pid : U16)
  -- CORR Clauses
  | corrInputMapLoad (src : Src) (buf : HBuf) (data : HRead)
  | corrInputMapFree (src : Src) (handle : U8)
  | corrDefine (src : Src) (pid : U16) (handle flags : U8) (chBase chCount : U16) (log2Td : U8) (nInt g : U16)
      (base : U64) (route : U32)
  | corrRelease (src : Src) (pid : U16)
  | corrSuspend (src : Src) (pid : U16)
  | corrResume (src : Src) (pid : U16)
  | corrSetMode (src : Src) (pid : U16) (mode : U8)
  | corrPlanQuery (src : Src) (buf : HBuf)
  | corrSnapshot (src : Src) (pid first count : U16) (area len : U64)
  | corrSetRoute (src : Src) (pid : U16) (route : U32)
  | corrSetOutput (src : Src) (pid : U16) (output : U8)
  | corrIstoreQuery (src : Src) (buf : HBuf)
  | corrFaultInject (src : Src) (row pos baseline comp bit mode : U8)
  -- BEAM Clauses
  | beamDefine (src : Src) (pid : U16) (handle flags : U8) (chBase chCount beams : U16)
      (beamBase log2T log2Np sh shP : U8) (route : U32) (buf : HBuf) (data : HRead)
  | beamRelease (src : Src) (pid : U16)
  | beamSuspend (src : Src) (pid : U16)
  | beamResume (src : Src) (pid : U16)
  | beamDelayLoad (src : Src) (pid first count : U16) (buf : HBuf) (data : HRead)
  | beamDelaySwitch (src : Src) (time tRef : U96)
  | beamDelaySwap (src : Src) (pid beam : U16) (buf : HBuf) (data : HRead)
  | beamDelayMode (src : Src) (mode : U8)
  | beamSetGains (src : Src) (pid : U16) (which : U8) (area boundary : U64)
  | beamSetScale (src : Src) (pid first count : U16) (sh shP : U8)
  | beamSetRoute (src : Src) (pid : U16) (route : U32) (mask : BitVec 256)
  | beamImportBind (src : Src) (pid : U16) (first : U8) (serial : U32) (remote window : U16)
  | beamQuery (src : Src) (buf : HBuf)
  -- ZOOM Clauses
  | zoomProtoLoad (src : Src) (m : U8) (buf : HBuf) (data : HRead)
  | zoomProtoFree (src : Src) (handle : U8)
  | zoomDefine (src : Src) (chain beam : U8) (zoom event capture : U16) (routeZ routeE routeC : U32) (buf : HBuf)
      (data coefs : HRead)
  | zoomRelease (src : Src) (chain : U8)
  | zoomSuspend (src : Src) (chain : U8)
  | zoomResume (src : Src) (chain : U8)
  | zoomFirLoad (src : Src) (chain bank : U8) (len : U16) (shift : U8) (delay : U16) (buf : HBuf) (data : HRead)
  | zoomFirSwitch (src : Src) (chain byTime : U8) (fade : U16) (time : U96)
  | zoomSetTune (src : Src) (chain : U8) (block : BitVec 256)
  | zoomSetAlign (src : Src) (chain : U8) (block : BitVec 128)
  | zoomSetDetect (src : Src) (chain : U8) (block : BitVec 320)
  | zoomRebaseline (src : Src) (chain kind : U8) (value : U64)
  | zoomCaptureNow (src : Src) (chain : U8) (index : U64)
  | zoomSetRoute (src : Src) (chain which : U8) (route : U32)
  | zoomQuery (src : Src) (buf : HBuf)
  -- GLOSS Clauses
  | glossLoad (src : Src) (core : U8) (buf : HBuf) (data : HRead)
  | glossStart (src : Src) (core : U8)
  | glossStop (src : Src) (core : U8)
  | glossAttach (src : Src) (core log2In : U8) (source derived inBase : U16) (log2Feed log2Slot : U8) (route : U32)
      (rate : U64) (seg0 seg1 seg2 seg3 : U32) (feedBase slotBase : U64)
  | glossDetach (src : Src) (core : U8)
  | glossSetRoute (src : Src) (core : U8) (route : U32)
  | glossMemRead (src : Src) (core space : U8) (first count : U16) (buf : HBuf)
  | glossMemWrite (src : Src) (core space : U8) (first count : U16) (buf : HBuf) (data : HRead)
  | glossQuery (src : Src) (buf : HBuf)
  -- TIME, CLOCK and TRIM Clauses
  | timePortSet (src : Src) (port flags domain : U8) (ip : U32) (mac : BitVec 48)
  | timeServoSet (src : Src) (threshold : U32) (code flags : U8)
  | timeAcceptStep (src : Src) (id : U32)
  | timeSet (src : Src) (time : U96)
  | timeOutSet (src : Src) (pin mode : U8) (width : U32) (start : U96) (period : U64)
  | timeInSet (src : Src) (pin edges enable : U8)
  | timeQuery (src : Src) (buf : HBuf)
  | clockRefSet (src : Src) (ref rank : U8) (nominal accept warn reject disqMs requalMs : U32)
  | clockSelect (src : Src) (manual ref : U8)
  | clockDpllSet (src : Src) (code : U8) (slope disagree : U32)
  | clockQuery (src : Src) (buf : HBuf)
  | trimRun (src : Src) (kinds : U8) (which : U16)
  | trimSetTrigger (src : Src) (kinds : U8) (step : U32)
  | trimSave (src : Src) (buf : HBuf)
  | trimRestore (src : Src) (buf : HBuf) (data : HRead)
  -- WORLD, PAIR, UPDATE, POWER and DIAG Clauses
  | worldRegionSet (src : Src) (desc flags map : U8) (base size : U64)
  | worldAssign (src : Src) (kind : U8) (first count : U16) (world : U8)
  | worldQuotaSet (src : Src) (item : U8) (value : U64)
  | worldQuery (src : Src) (buf : HBuf)
  | pairConfigure (src : Src) (enable : U8) (partner : U32)
  | pairSwap (src : Src) (time : U96)
  | pairResync (src : Src)
  | pairQuery (src : Src) (buf : HBuf)
  | updateActivate (src : Src) (slot : U8) (time : U96)
  | updateConfirm (src : Src) (slot : U8)
  | updateQuery (src : Src) (buf : HBuf)
  | powerHbmRate (src : Src) (rate : U16)
  | powerHbmRetrain (src : Src)
  | powerHbmState (src : Src) (state mask : U8)
  | powerDomain (src : Src) (domain off : U8) (limit : U32)
  | diagErrorLog (src : Src) (buf : HBuf)
  | diagLoopback (src : Src) (first dir mode : U8)
  -- lane events (02)
  | oslFrameRx (lane : Fin 52) (levels : List (BitVec 2))
  | frameLock (lane : Fin 52)
  | lockLoss (lane : Fin 52)
  | markerHypothesisTimeout (lane : Fin 52)
  | fecWindowEnd (lane : Fin 52)
  | bringupStepTimeout (lane : Fin 52)
  | bringupRetry (lane : Fin 52)
  | txFrameSlot (lane : Fin 52)
  | txSleepEnter (lane : Fin 52)
  | precodeSwitch (lane : Fin 52)
  -- Intake and Relief events (03 to 06)
  | skewWindowExpiry
  | streamDown (stream : Fin 1024)
  | cornerTurnHalfFree (set : Nat) (half : Fin 2)
  | channelDwellFinish
  | stageBlockLoadDone (col : Bool) (block : Nat)
  | superTileEnd
  | narrowFold
  | drainCompare (errs : List CellErr) (selfCheck operandErr : Bool)
  | preemptionPoint
  | contextSaveDone (slot : Fin 2)
  | contextRestoreDone (slot : Fin 2)
  | repairWorkStart
  | spillCommit
  | snapshotWriteDone (pid : Nat)
  -- record delivery (11)
  | ringRecordOffer (dest : Dest)
  | ringDeclineTimeout (dest : Dest)
  | ringCoalesceTimeout (fn : Fn) (ring : Fin 64)
  -- Frieze and Chisel events (07, 08)
  | friezeRowProcess (badDelays : List (Nat × Nat × Nat)) (residues : List (Nat × Nat × Nat × Nat))
  | delaySwapCopyDone
  | gainAreaReleased (pid : Nat)
  | psumRecordRx (group : Nat) (serial : U32) (record : List Byte)
  | importWindowExpiry (pid : Nat)
  | chainRowProcess (chain : Fin 64) (residues : List (Nat × Nat))
  | detectIntervalEnd (chain : Fin 64)
  | captureCopyDone (chain : Fin 64)
  | timeOutPulse (pin : Fin 4)
  -- Gloss engine events (09)
  | feedFrameCopy (core : Fin 32) (collide : List (Fin 32768))
  | waitfSatisfied (core : Fin 32)
  | emitOpenWaitEnd (core : Fin 32)
  | derivedRecordRelease (core : Fin 32)
  -- Gloss instructions (09 R291)
  | gNop (core : Fin 32) (f : PF) (e : Ecc)
  | gMpy (core : Fin 32) (f : PF) (e : Ecc)
  | gMac (core : Fin 32) (f : PF) (e : Ecc)
  | gMsu (core : Fin 32) (f : PF) (e : Ecc)
  | gDmac (core : Fin 32) (f : PF) (e : Ecc)
  | gCmach (core : Fin 32) (f : PF) (e : Ecc)
  | gCmacl (core : Fin 32) (f : PF) (e : Ecc)
  | gCmacjl (core : Fin 32) (f : PF) (e : Ecc)
  | gPwr (core : Fin 32) (f : PF) (e : Ecc)
  | gClr (core : Fin 32) (f : PF) (e : Ecc)
  | gAdd (core : Fin 32) (f : PF) (e : Ecc)
  | gSub (core : Fin 32) (f : PF) (e : Ecc)
  | gAddq (core : Fin 32) (f : PF) (e : Ecc)
  | gSubq (core : Fin 32) (f : PF) (e : Ecc)
  | gAddw (core : Fin 32) (f : PF) (e : Ecc)
  | gSubw (core : Fin 32) (f : PF) (e : Ecc)
  | gBfly (core : Fin 32) (f : PF) (e : Ecc)
  | gTfr (core : Fin 32) (f : PF) (e : Ecc)
  | gNeg (core : Fin 32) (f : PF) (e : Ecc)
  | gAbs (core : Fin 32) (f : PF) (e : Ecc)
  | gAsr (core : Fin 32) (f : PF) (e : Ecc)
  | gAsl (core : Fin 32) (f : PF) (e : Ecc)
  | gTst (core : Fin 32) (f : PF) (e : Ecc)
  | gLdq (core : Fin 32) (f : PF) (e : Ecc)
  | gMov (core : Fin 32) (f : RF) (e : Ecc)
  | gLdi (core : Fin 32) (f : RF) (e : Ecc)
  | gRnd (core : Fin 32) (f : RF) (e : Ecc)
  | gExpw (core : Fin 32) (f : RF) (e : Ecc)
  | gPaddi (core : Fin 32) (f : RF) (e : Ecc)
  | gSetbs (core : Fin 32) (f : RF) (e : Ecc)
  | gSetex (core : Fin 32) (f : RF) (e : Ecc)
  | gClrf (core : Fin 32) (f : RF) (e : Ecc)
  | gBexpr (core : Fin 32) (f : RF) (e : Ecc)
  | gLdw (core : Fin 32) (f : RF) (e : Ecc)
  | gLd (core : Fin 32) (f : MF) (e : Ecc)
  | gSt (core : Fin 32) (f : MF) (e : Ecc)
  | gStw (core : Fin 32) (f : MF) (e : Ecc)
  | gLdwMem (core : Fin 32) (f : MF) (e : Ecc)
  | gSavw (core : Fin 32) (f : MF) (e : Ecc)
  | gRstw (core : Fin 32) (f : MF) (e : Ecc)
  | gBra (core : Fin 32) (target : BitVec 14) (e : Ecc)
  | gBeq (core : Fin 32) (target : BitVec 14) (e : Ecc)
  | gBne (core : Fin 32) (target : BitVec 14) (e : Ecc)
  | gBlt (core : Fin 32) (target : BitVec 14) (e : Ecc)
  | gBge (core : Fin 32) (target : BitVec 14) (e : Ecc)
  | gCall (core : Fin 32) (target : BitVec 14) (e : Ecc)
  | gRet (core : Fin 32) (target : BitVec 14) (e : Ecc)
  | gLoop (core : Fin 32) (count : BitVec 10) (last : BitVec 14) (e : Ecc)
  | gLoopd (core : Fin 32) (v : Fin 8) (last : BitVec 14) (e : Ecc)
  | gLdil (core : Fin 32) (dst : Fin 32) (imm : BitVec 24) (e : Ecc)
  | gWaitf (core : Fin 32) (n : BitVec 14) (e : Ecc)
  | gEmit (core : Fin 32) (f : EF) (e : Ecc)
  | gEvt (core : Fin 32) (n : Fin 8) (e : Ecc)
  | gHalt (core : Fin 32) (e : Ecc)
  -- HBM events (10)
  | hbmRequestServe (stack : Fin 6) (pc : Fin 32) (arrivals : List HbmReq) (ecc : Nat)
  | refreshDebtTick (stack : Fin 6)
  | refreshIssue (stack : Fin 6) (pc : Fin 32)
  | hbmTempRead (stack : Fin 6) (temp : Nat)
  | actTableClear (stack : Fin 6)
  | patrolScrubRead (ecc : Nat)
  | retrainTimer
  | retrainStepDone (low : Option (Fin 6))
  | hbmRateChangeDone
  | pcPowerdownIdle (stack : Fin 6) (pc : Fin 32)
  | selfRefreshIdle
  | stackTrainingDone (stack : Fin 6) (sid repaired : Nat) (dense : Bool) (rfm : Option Nat) (ok : Bool)
  | granuleZeroFillDone
  -- DMA and power events (12, 20)
  | dmaChannelStart (engine : Fin 7)
  | dmaBurstDone (ch : Fin 36) (data : WithEcc HRead) (collide : List (Fin 32768))
  | dmaTransferDone (ch : Fin 36)
  | dmaPowerDeferralTimeout (domain : Fin 9)
  | domainPowerUpDone (domain : Fin 8)
  -- time and clock events (13, 14)
  | ptpSyncRx (port : Fin 2) (frame : List Byte) (ingress : Nat)
  | ptpFollowUpRx (port : Fin 2) (frame : List Byte)
  | ptpAnnounceRx (port : Fin 2) (frame : List Byte)
  | ptpDelayRespRx (port : Fin 2) (frame : List Byte)
  | delayReqSend (egress : Nat)
  | ptpMasterTimeout (announce : Bool)
  | ethFrameForward (port : Fin 2) (frame : List Byte) (residence : Nat) (full : Bool)
  | timeInEdge (pin : Fin 4) (falling glitch : Bool) (time : U96)
  | refMonitorGateEnd (ref : Fin 5) (reading : Int)
  | refActivityFail (ref : Fin 5)
  | phasePullEnd
  | dpllSettled
  | xoLost
  -- trim events (15)
  | laneTrimWindowEnd (lane : Fin 52) (count : Nat)
  | levelTrimComputeDone (stream : Fin 1024)
  | gridTestInstance (first retry again : List (Fin 32 × Fin 33)) (selfFirst selfRetry persistent : Bool)
  | dieTempRead (temp : Int)
  -- log, Armature and pair events (17, 18)
  | logRecordWrite (rec : ErrRec)
  | armLockstep
  | armHang
  | armRestarted (maquetteOk : Bool)
  | armRestartStepTimeout
  | seqOutvoted (majority : Bool)
  | peerFault
  | takeoverComplete
  | aliveWindowEnd (edges : Nat)
  | mirrorFrameRx (lane : Fin 52) (frame : List Byte)
  | mirrorPathTimeout
  | mirrorRetransmit
  | pad
  | commit (number : U32) (last : Option (Maquette × Commit))
  | reserve (number : U32) (pid : Nat) (upTo emitted : U64)
  | chainMsg (number : U32) (c : ChainMirror)
  | hbmCopy (number : U32) (addr : Nat) (bytes : List Byte)
  | bulk (number : U32) (image : Option Maquette)
  | syncDone (number count crc : U32)
  | swap (number : U32) (counter : U64)
  | yieldMsg (number : U32) (entries : List (Nat × Nat × Nat))
  | leave (number : U32)
  | formingTimeout
  | plannedSwapRow
  | swapAckDeadline
  -- reset, power and boot events (19, 20)
  | resetRelease (recoveryN flashMode rank : Bool)
  | resetAssert
  | pwrGoodFall
  | thermalTrip
  | vidStep
  | updateActivationTime
  | svcRead
  | svcStatus (c : SvcCmd)
  | svcIdentify (c : SvcCmd)
  | dlBegin (c : SvcCmd)
  | dlData (c : SvcCmd)
  | dlEnd (c : SvcCmd)
  | dlAbort (c : SvcCmd)
  | recoveryBoot (c : SvcCmd)
  | keyProgram (c : SvcCmd)
  | bringupStageDone (lane : Fin 52) (tx : Bool)
  | tportLinkChange (port : Fin 2) (up : Bool)
  | peerFaultNHigh
  | holdoverHistoryValid
  | vddIoRise
  deriving DecidableEq, Repr

end Sys2Proof
end

