-- ==== Sys2Proof/Machine/Bits.lean ====
section
/-! DEFINITION. Bytes, little-endian fields, rounding, CRC-32C, sparse tables and the byte memory that every block uses. -/

namespace Sys2Proof.Machine

/-! ### Little-endian fields -/

/-- The `n` low bytes of `v`, least significant first (00, Notation). -/
def leBytes : Nat → Nat → List Byte
  | 0, _ => []
  | n + 1, v => BitVec.ofNat 8 v :: leBytes n (v / 256)

/-- The number whose little-endian bytes are `bs`. -/
def ofLe : List Byte → Nat
  | [] => 0
  | b :: bs => b.toNat + 256 * ofLe bs

/-- A signed value of `n` bytes in two's complement, little-endian. -/
def leInt (n : Nat) (v : Int) : List Byte := leBytes n (v % (2 ^ (8 * n) : Nat)).toNat

/-- The low `n` bits of `v` read as a two's-complement number. -/
def toSigned (n v : Nat) : Int :=
  let w := v % 2 ^ n
  if 2 * w < 2 ^ n then (w : Int) else (w : Int) - (2 ^ n : Nat)

/-- `n` zero bytes. -/
def zeros (n : Nat) : List Byte := List.replicate n 0

/-- The `n` bytes of `bs` from `off` on, missing ones read as zero. -/
def slice (bs : List Byte) (off n : Nat) : List Byte :=
  let t := (bs.drop off).take n
  t ++ zeros (n - t.length)

/-- The unsigned field of `n` bytes at `off`. -/
def field (bs : List Byte) (off n : Nat) : Nat := ofLe (slice bs off n)

/-- Bits [lo + w - 1 : lo] of `v`. -/
def bits (v lo w : Nat) : Nat := v / 2 ^ lo % 2 ^ w

/-- Bit `i` of `v`. -/
def bitOf (v i : Nat) : Bool := v / 2 ^ i % 2 = 1

/-- A Bool as a bit. -/
def b2n (b : Bool) : Nat := if b then 1 else 0

/-- The least multiple of `m` that is at least `n`. -/
def roundUp (n m : Nat) : Nat := (n + m - 1) / m * m

/-- Ceiling of a quotient. -/
def ceilDiv (n m : Nat) : Nat := (n + m - 1) / m

/-- 2 MiB, the HBM granule (10 R308, 05 R142). -/
def granule : Nat := 2097152

/-! ### Rounding -/

/-- `n / d` rounded to the nearest integer, ties to even. -/
def roundHE (n : Int) (d : Nat) : Int :=
  let q := n / (d : Int)
  let r := n % (d : Int)
  if 2 * r < d then q else if 2 * r > d then q + 1 else if q % 2 = 0 then q else q + 1

/-- `v` limited to [-lim, lim], with whether it was limited. -/
def clampAbs (v : Int) (lim : Nat) : Int × Bool :=
  if v > lim then (lim, true) else if v < -(lim : Int) then (-(lim : Int), true) else (v, false)

/-- The binary32 value nearest to `v / d`, ties to even, as its bits, for a normal result (05 R165). -/
def f32Ratio (v : Int) (d : Nat) : Nat :=
  if v = 0 then 0 else
  let a := v.natAbs
  let e0 : Int := (Nat.log2 a : Int) - (Nat.log2 d : Int)
  -- the exponent is e0 or e0 - 1
  let ge : Bool := if e0 ≥ 0 then a ≥ d * 2 ^ e0.toNat else a * 2 ^ (-e0).toNat ≥ d
  let e : Int := if ge then e0 else e0 - 1
  let sh : Int := 23 - e
  let m : Int := if sh ≥ 0 then roundHE (a * 2 ^ sh.toNat : Nat) d else roundHE a (d * 2 ^ (-sh).toNat)
  let m' : Nat := if m = 16777216 then 8388608 else m.toNat
  let e' : Int := if m = 16777216 then e + 1 else e
  (if v < 0 then 2147483648 else 0) + (e' + 127).toNat * 8388608 + (m' - 8388608)

/-! ### CRC-32C (02 R39) -/

/-- Eight steps of the reflected CRC-32C shift register. -/
def crcShift : Nat → BitVec 32 → BitVec 32
  | 0, c => c
  | n + 1, c => crcShift n (if c.getLsbD 0 then (c >>> 1) ^^^ 0x82F63B78#32 else c >>> 1)

/-- One byte into the CRC register. -/
def crcByte (c : BitVec 32) (b : Byte) : BitVec 32 := crcShift 8 (c ^^^ b.setWidth 32)

/-- CRC-32C of a byte string: initial value and final exclusive-or of all ones. -/
def crc32c (bs : List Byte) : U32 := (bs.foldl crcByte 0xFFFFFFFF#32) ^^^ 0xFFFFFFFF#32

/-! ### Sparse tables: lists sorted by key -/

/-- The entry of key `k`. -/
def tabGet {α : Type} (k : Nat) : List (Nat × α) → Option α
  | [] => none
  | (i, v) :: t => if i = k then some v else tabGet k t

/-- The table with key `k` set to `v`, kept sorted. -/
def tabSet {α : Type} (k : Nat) (v : α) : List (Nat × α) → List (Nat × α)
  | [] => [(k, v)]
  | (i, w) :: t => if k < i then (k, v) :: (i, w) :: t else if k = i then (k, v) :: t else (i, w) :: tabSet k v t

/-- The table without key `k`. -/
def tabDel {α : Type} (k : Nat) (t : List (Nat × α)) : List (Nat × α) := t.filter fun p => p.1 != k

/-! ### The byte memory (10 R308): sorted cells, an unlisted address reads as zero -/

/-- The byte at address `a`. -/
def memGet (a : Nat) : List Host.Cell → Byte
  | [] => 0
  | (k, v) :: t => if k = a then v else memGet a t

/-- Memory with byte `b` at address `a`, kept in canonical form. -/
def memPut (a : Nat) (b : Byte) : List Host.Cell → List Host.Cell
  | [] => if b = 0 then [] else [(a, b)]
  | (k, v) :: t =>
    if a < k then (if b = 0 then (k, v) :: t else (a, b) :: (k, v) :: t)
    else if a = k then (if b = 0 then t else (a, b) :: t)
    else (k, v) :: memPut a b t

/-- Memory with the bytes `bs` from address `a` on. -/
def memPutBytes : Nat → List Byte → List Host.Cell → List Host.Cell
  | _, [], m => m
  | a, b :: bs, m => memPutBytes (a + 1) bs (memPut a b m)

/-- The `n` bytes from address `a` on. -/
def memGetBytes (m : List Host.Cell) (a n : Nat) : List Byte := (List.range n).map fun i => memGet (a + i) m

/-- Addresses strictly rising from `lo` on and no cell equal to what an unlisted address reads as. -/
def memWfFrom : Nat → List Host.Cell → Bool
  | _, [] => true
  | lo, (k, v) :: t => decide (lo ≤ k) && decide (v ≠ 0) && memWfFrom (k + 1) t

/-- The canonical form of memory. -/
def Memory.wf (m : List Host.Cell) : Bool := memWfFrom 0 m

/-! ### Word memories: sorted (address, word) pairs, an unlisted address reads as zero -/

/-- The word at address `a`. -/
def wordGet (a : Nat) : List (Nat × Nat) → Nat
  | [] => 0
  | (k, v) :: t => if k = a then v else wordGet a t

/-- The memory with word `v` at address `a`, kept in canonical form. -/
def wordPut (a v : Nat) : List (Nat × Nat) → List (Nat × Nat)
  | [] => if v = 0 then [] else [(a, v)]
  | (k, w) :: t =>
    if a < k then (if v = 0 then (k, w) :: t else (a, v) :: (k, w) :: t)
    else if a = k then (if v = 0 then t else (a, v) :: t)
    else (k, w) :: wordPut a v t

/-- The memory with the words `vs` from address `a` on. -/
def wordPutAll : Nat → List Nat → List (Nat × Nat) → List (Nat × Nat)
  | _, [], m => m
  | a, v :: vs, m => wordPutAll (a + 1) vs (wordPut a v m)

/-- Addresses strictly rising from `lo` on and no word equal to zero. -/
def wordWfFrom : Nat → List (Nat × Nat) → Bool
  | _, [] => true
  | lo, (k, v) :: t => decide (lo ≤ k) && decide (v ≠ 0) && wordWfFrom (k + 1) t

/-! ### Sorted sets of numbers (poisoned words) -/

/-- Insert into a strictly rising list. -/
def setIns (a : Nat) : List Nat → List Nat
  | [] => [a]
  | k :: t => if a < k then a :: k :: t else if a = k then k :: t else k :: setIns a t

/-- Strictly rising. -/
def risingFrom : Nat → List Nat → Bool
  | _, [] => true
  | lo, k :: t => decide (lo ≤ k) && risingFrom (k + 1) t

/-- Update entry `i` of a vector, if it exists. -/
def vset {α : Type} {n : Nat} (v : Vector α n) (i : Nat) (x : α) : Vector α n := v.setIfInBounds i x

/-- Entry `i` of a vector, or `d` beyond its end. -/
def vget {α : Type} {n : Nat} (v : Vector α n) (i : Nat) (d : α) : α := (v[i]?).getD d

/-- Positions of a list numbered from zero. -/
def enumFrom0 {α : Type} (l : List α) : List (Nat × α) := (List.range l.length).zip l

/-- The sum of a list of naturals. -/
def sumNat (l : List Nat) : Nat := l.foldl (· + ·) 0

/-- The sum of a list of integers. -/
def sumInt (l : List Int) : Int := l.foldl (· + ·) 0

/-- The sum of a list of rationals. -/
def sumRat (l : List Rat) : Rat := l.foldl (· + ·) 0

/-- The least element of a list, by a key. -/
def minBy {α : Type} (key : α → Nat) : List α → Option α
  | [] => none
  | x :: t => match minBy key t with
    | none => some x
    | some y => if key x ≤ key y then some x else some y

/-- Remove the first element that satisfies `p`, giving it and the rest. -/
def takeFirst {α : Type} (p : α → Bool) : List α → Option (α × List α)
  | [] => none
  | x :: t => if p x then some (x, t) else match takeFirst p t with
    | none => none
    | some (y, r) => some (y, x :: r)

/-- Fold a state over a list. -/
def foldS {σ α : Type} (l : List α) (s : σ) (f : σ → α → σ) : σ := l.foldl f s

end Sys2Proof.Machine
end

