-- ==== Sys2Proof/Machine/StReport.lean ====
section
/-! DEFINITION. What the queries of the spec report (04 R138, 05 R174, 07 R232, 08 R271, 09 R304, 13 R414, 14 R435, 16 R471, 18
R524). The spec names the contents and gives no bytes for them, so a report is data and its bytes are free (log 10). -/

namespace Sys2Proof.Machine

/-- CORR_PLAN_QUERY, per product: its Relief demand, channel-dwell length in seconds, stage need in bytes and count of late
channel-dwells (04 R138). -/
structure PlanItem where
  pid : Nat
  demand : Rat
  chanDwell : Rat
  stage : Nat
  late : Nat
  deriving DecidableEq, Repr

/-- CORR_ISTORE_QUERY, per product: ISTORE base and extent, where its emit buffer and validity history lie, record size, Q, and
the phase of each group (05 R142, R174). -/
structure StoreItem where
  pid : Nat
  base : Nat
  extent : Nat
  emit : Option Alloc
  validity : Option Alloc
  record : Nat
  groups : Nat
  phases : List Nat
  deriving DecidableEq, Repr

/-- BEAM_QUERY, per product: beams, role, delay pages, gain area, own gain table, record size and Frieze demand (07 R232). -/
structure BeamItem where
  pid : Nat
  beams : Nat
  beamBase : Nat
  role : Nat
  pages : List Nat
  area : Nat
  own : Option Alloc
  record : Nat
  demand : Rat
  deriving DecidableEq, Repr

/-- The settings of a chain (08 R233 to R264). -/
structure ChainSettings where
  zoom : Nat
  event : Option Nat
  capture : Option Nat
  beam : Nat
  log2M : Nat
  slot0 : Nat
  proto : Nat
  tune : Tune
  halfBands : Nat
  decim : Nat
  bankA : FirBank
  bankB : FirBank
  active : Bool
  align : Align
  log2Tz : Nat
  detect : Detect
  pre : Nat
  post : Nat
  deriving DecidableEq, Repr

/-- ZOOM_QUERY, per chain: its settings, G2, CHAIN_LATENCY, and where its ring and slots lie (08 R271). -/
structure ChainItem where
  chain : Nat
  settings : ChainSettings
  g2 : Nat
  latency : Nat
  ring : Option Alloc
  slots : Option Alloc
  deriving DecidableEq, Repr

/-- GLOSS_QUERY, per core: state, attachment, feed and slot placement as base and log2 size, and declared rate (09 R304). -/
structure CoreItem where
  core : Nat
  state : CoreState
  source : Option Nat
  derived : Option Nat
  feed : Option (Nat × Nat)
  slots : Option (Nat × Nat)
  rate : Nat
  deriving DecidableEq, Repr

/-- TIME_QUERY: servo state, code in use, the selected master's dataset with its currentUtcOffset, offset and path delay,
per-port counters in the order of their registers, and for the secure world the refusals (13 R388, R392, R395, R414). -/
structure TimeReport where
  servo : Servo
  code : Nat
  master : Option Announce
  offset : Int
  meanPath : Option Nat
  counters : List (List U32)
  refusals : List (Nat × Int)
  deriving DecidableEq, Repr

/-- CLOCK_QUERY: the references with their parameters, status, readings and counters, the DPLL state and selection, epsilon,
the holdover average and its validity (14 R435). -/
structure ClockReport where
  refs : List Ref
  state : Dpll
  selected : Option Nat
  freq : Int
  average : Int
  valid : Bool
  deriving DecidableEq, Repr

/-- WORLD_QUERY: the descriptors by number, every resource of R454 by kind and index with its world, and each quota by item
with its usage (16 R471). -/
structure WorldReport where
  regions : List (Nat × Region)
  resources : List (Nat × Nat × World)
  quotas : List (Nat × Nat × Rat)
  deriving DecidableEq, Repr

/-- PAIR_QUERY: role, rank, serial number and flags of this unit and of its partner as last heard, each product's S_p and
E_p, and the last commit records held (18 R524). The flags of this unit are SYNCED, PROTECTED, MIRROR_OK, ALIVE_OK and
PEER_FAULT. -/
structure PairReport where
  role : Role
  rank : Bool
  serial : U64
  flags : List Bool
  peer : Option (Role × Bool × Bool)
  peerSerial : U32
  products : List (Nat × Nat × Nat)
  commits : List Commit
  deriving DecidableEq, Repr

/-- What UPDATE_QUERY reports of a slot after its state: the version, the length and the two formats of its visible header (19
R547). -/
structure SlotItem where
  version : Nat
  length : Nat
  lowFormat : Nat
  writeFormat : Nat
  deriving DecidableEq, Repr

/-- What a query reports. -/
inductive Report where
  | plan (items : List PlanItem)
  | store (items : List StoreItem)
  | beams (items : List BeamItem)
  | chains (items : List ChainItem)
  | cores (items : List CoreItem)
  | time (report : TimeReport)
  | clock (report : ClockReport)
  | worlds (report : WorldReport)
  | pair (report : PairReport)
  deriving DecidableEq, Repr

end Sys2Proof.Machine
end

