-- ==== Sys2Proof/Config.lean ====
section
/-! DEFINITION. What an implementation fixes and the spec gives no value for: opaque constants, so no proof can lean on a
value of one of them. -/

namespace Sys2Proof.Config

/-- Free values, one for each number of the counter `State.fresh` (log 4). -/
opaque free : Nat → Nat

/-- DELZAL_VID, the vendor identifier (00 R2; log 5). -/
opaque vendorId : U16
/-- The silicon revision (11 R340; log 5). -/
opaque siliconRevision : U32
/-- The unit's 64-bit serial number (19 R545; log 5). -/
opaque serial : U64
/-- The ROM version (19 R545; log 5). -/
opaque romVersion : U32

/-- F_c of a channel slot: round(f_c * 2^48 / 10^9) for the centre frequency of the slot, which the spec does not give (07
R203; log 6). -/
opaque channelPhase : Nat → Nat

/-- The byte of a dwell's validity history that holds the bit of an input's granule, by the product's input count, channels and
granules per dwell, then map position, channel index and granule (05 R142 gives only the size; log 85). -/
opaque historyByte : Nat → Nat → Nat → Nat → Nat → Nat → Nat

/-- CHAIN_LATENCY of a chain with given settings: a bound that the spec gives no figure for (08 R270; log 10). -/
opaque chainLatency : Machine.ChainSettings → Nat

/-- The layout of a query's report: the spec names the contents and gives none (log 10). -/
opaque reportLayout : Machine.Report → List Byte

/-- The bytes in which a query writes its report, fewer than 2^32 since a buffer's length has 32 bits (11 R357; log 10). -/
def reportBytes (r : Machine.Report) : List Byte := (reportLayout r).take (2 ^ 32 - 1)

/-- Bytes 1 to 63 of a slot's block in UPDATE_QUERY, by the slot's visible header if it has one (19 R547 gives the place of the
state alone; log 10). -/
opaque slotByte : Option Machine.SlotItem → Nat → Byte

/-- The bytes that the COMMIT messages of one commit take in the hold buffer (18 R501, 19 R538 give no size; log 88). -/
opaque commitBytes : Machine.Maquette → Nat

/-- SHA-384 of a byte string (19 R531; log 16). -/
opaque sha384 : List Byte → List Byte

/-- Whether an ECDSA P-384 signature verifies: public key, digest, signature (19 R531; log 16). -/
opaque ecdsaOk : List Byte → List Byte → List Byte → Bool

end Sys2Proof.Config
end

