-- ==== Sys2Proof/Machine/Reset.lean ====
section
/-! DEFINITION. The reset value of each part of the state: the values the register maps give, and for a field that has
none the value its docstring names (log 3). -/

namespace Sys2Proof.Machine.Reset

def errLog : ErrLog :=
  { entries := [], tail := 0, head := 0, lost := 0, nextIndex := 0, lostSince := 0, headErr := false }

def err : ErrState :=
  { log0 := errLog, log1 := errLog, nextIncident := 0, incidents := [], fault := false, lastFaultCause := 0,
    lastFaultId := 0, seqState := .normal, service := false, armRestarts := 0, seqOutvotes := 0, arm := none,
    activating := false, taken := none, visit := 0, commit := none, faultN := true }

def qp : Qp :=
  { sqBase := 0, cqBase := 0, enable := false, sqLog2 := 4, cqLog2 := 5, irqEn := false, state := .disabled,
    tailErr := false, headErr := false, cfgErr := false, sqHead := 0, sqTail := 0, cqHead := 0, cqTail := 0,
    phase := true, expectSeq := 0, rereads := 0, retry := none, waiting := none, owed := [] }

def ring : Ring :=
  { state := .undefined, base := 0, k := 0, vector := 0, coalesce := 0, timeUs := 0, wbAddr := 0, head := 0, tail := 0,
    headLo := 0, declining := false, declined := 0, declines := [], since := 0,
    sinceTime := none }

def msix : Msix := { addr := 0, data := 0, mask := true, pending := false }

def fn : FnState :=
  { bme := false, qps := Vector.replicate 8 qp, rings := Vector.replicate 64 ring, msix := Vector.replicate 64 msix }

def link : HostLink := { mod0 := 0, mod1 := 0, up := false, trained := false, attnCause := 0, attnMask := 0x7FF, f0 := fn, f1 := fn }

def region : Region := { valid := false, world := .secure, map := 0b101, base := 0, size := 0 }

def world : WorldState :=
  { laneRx := Vector.replicate 48 .secure, laneTx := Vector.replicate 48 .secure,
    egress := Vector.replicate 256 .secure, chains := Vector.replicate 64 .secure,
    cores := Vector.replicate 32 .secure, dma := Vector.replicate 36 .secure, pins := Vector.replicate 4 .secure,
    beams := Vector.replicate 256 .secure, regions := Vector.replicate 64 region, quotas := Vector.replicate 19 0,
    cuts := [], fill := none }

def stream : Stream :=
  { entry := none, state := .undefined, sourceFault := false, late := 0, missing := 0, flagged := 0,
    counterErr := 0, overload := 0, lastCounter := 0, anchor := none, agree := none, last := none, errTime := none }

def intake : Intake :=
  { streams := [], rows := [], released := [], settled := [], front := 0, started := false, frontTime := none,
    firstRow := 0, skew := 2000, asmPeak := 0, overrunCount := 0, overrun := false, epochSet := false, t0 := 0, num := 1,
    den := 1, tolerance := 1000000, epochDev := 0, epochErr := none, gains := [], gainLoads := [], sets := [],
    stats := [] }

def relief : Relief :=
  { planGen := 0, ready := [], cur := none, acc := none, drain := [], spill := [], slots := Vector.replicate 2 none,
    stageStall := none, drainStall := none, stage := [], busyCycles := 0,
    stallStage := 0, stallDrain := 0, preempts := 0, tileDwells := 0, stagePeak := 0, incidents := [], drops := [],
    injects := [], bypass := Vector.replicate 32 none, fences := [], mismatches := 0, retriesOk := 0, sparesTaken := 0,
    tileDrops := 0, selfCheckFails := 0, localised := { row := 0, pos := 0, outcome := 0, persistent := false },
    localisedBy := none, starter := none }

def istore : Istore :=
  { spills := 0, closes := 0, visRecords := 0, emitStallCycles := 0, emitStall := none, poisonSeen := false,
    poisonElements := 0, gapRecords := 0, snapProduct := 0, snapBoundary := none, snapLeft := 0 }

def bank : Bank := { opened := none, last := none, pred := .weakClose, acts := [], idle := false }

def pc : Pc := { queue := [], debt := 0, down := false, inorderSince := none }

def stack : Stack :=
  { state := .off, hot := false, rfm := false, rfmThreshold := 4096, nSid := 0, dense := false, temp := 0,
    lanesRepaired := 0, pageHits := 0, pageConflicts := 0, odecc := 0, parity := 0, debtPeak := 0, hotTime := none,
    trainTemp := 0 }

def hbm : Hbm :=
  { mem := [], poison := [], held := [], ready := false, filled := false, rate := 0, serving := [], capacity := 0, ratePending := none,
    rateSrc := none, rateRunning := false, sleeping := false, poisonSeen := false, step := .idle, stepTime := 0, trainTime := 0, marginLow := false,
    discarded := false, retrains := 0, eccCorr := 0, eccRetryOk := 0, eccUncorr := 0, poisonReads := 0, inorder := 0,
    neighbour := 0, forced := 0, rateChanges := 0, lastUncorr := 0, stackTab := Vector.replicate 6 stack, pcs := [],
    banks := [], scrub := 0, allocs := [] }

def pair : Pair :=
  { role := .disabled, stillGated := false, synced := false, guarded := false, mirrorOk := false, aliveOk := false, peerFault := false,
    unguarded := none, lastRow := none, rank := false, strapRank := false, swap := none, resync := none, split := false, mismatch := 0, peerSerial := 0,
    partner := 0, peer := none, peerVersion := 0, retx := 0, mirrorLosses := 0, aliveLosses := 0, takeovers := 0, resyncs := 0,
    reserveStall := 0, commitCount := 0, aliveRun := 0, mirrorSince := none, nextMsg := 0, out := [],
    txBytes := [], frameSeq := 0, lastRx := none, held := [], heldCompletions := [], takeover := none,
    peerCommits := [], chains := [], owedTakeovers := [], image := none }

def lane : Lane :=
  { rx := .off, tx := .off, locked := false, polInv := false, precode := false, txPrecode := false, member := none,
    peerSleep := false, degWindow := false, degLoss := false, stale := false, cwCorr := 0, cwUncorr := 0, symCorr := 0,
    peak := 0, crcErr := 0, markerMiss := 0, lockLoss := 0, hdrMismatch := 0, rxFrames := 0, txFrames := 0,
    threshold := 32768, nextThreshold := none, winFrames := 0, winSyms := 0, winPeak := 0, hyp := 0, tried := 0, lastHyp := none,
    markers := 0, misses := 0, history := [], disagree := 0, fails := 0, retryDue := false, bondRetry := false, fromL2 := false, noLock := false,
    txCount := 0, txPrev := 0, rxPrev := 0, txSleep := none, rxOps := [], rxDone := 0, txOps := [], txDone := 0, idleOwed := 0, precodeSwitch := none,
    loopback := 0 }

def egress : Egress := { group := none, pos := 0, seq := 0 }

def osl : Osl :=
  { lanes := Vector.replicate 52 lane, rxGroups := [], txGroups := [], egress := Vector.replicate 256 egress,
    frames := [], mirrorBond := false, mirrorUp := false }

def plinth : Plinth := { sec := 0, ns := 0, sub := 0, inc := 2748779069440, latch0 := none, latch1 := none }

def tport : TPort :=
  { link := false, enabled := false, udp := false, forward := false, domain := 0, ip := 0, mac := 0, rxSync := 0,
    rxAnnounce := 0, txDelayReq := 0, rxDelayResp := 0, tcFwd := 0, tcDrop := 0, rxDiscard := 0, resPeak := 0 }

def timeOut : TimeOut :=
  { mode := 0, width := 100, start := 0, period := 0, sent := 0, highUntil := none, queue := [], pulses := 0, late := 0,
    conflict := 0, drop := 0 }

def timeIn : TimeIn :=
  { fifo := [], enabled := false, edges := 0, latched := 0, last := none, glitch := 0, rateDrop := 0, overflow := 0 }

def net : NetTime :=
  { servo := .free, valid := false, ptpOn := false, twoStep := false, stepGen := 0, offset := 0, meanPath := none,
    freqAdj := 0, refusedId := 0, refusedOfs := 0, refusalOpen := false, acceptArmed := false, history := [],
    inThreshold := 0, in100 := 0, steps := 0, threshold := 1000000, code := 2, ports := Vector.replicate 2 tport,
    foreign := [], master := none, syncLog := none, delayLog := none, sync := none, delay := none, delayAt := none,
    delaySeq := 0, lockedY := [], lockedAt := none,
    outs := Vector.replicate 4 timeOut, in0 := Vector.replicate 4 timeIn, in1 := Vector.replicate 4 timeIn }

def ref (nominal : Nat) : Ref :=
  { rank := 0, nominal := nominal, accept := 10000, warnLimit := 20000, reject := 50000, disqMs := 1000,
    requalMs := 10000, active := false, qualified := false, warn := false, beyond := false, requalFor := none,
    beyondFor := none, reading := 0, read := false, actFails := 0, disquals := 0, warns := 0 }

def clock : Clock :=
  { refs := #v[ref 10000000, ref 10000000, ref 10000000, ref 1, ref 0], state := .freerun, selected := none,
    manual := false, manualRef := 0, pull := none, clamped := false, disagree := [], histValid := false, xoOk := false,
    freq := 0, hist := [], phaseErr := 0, switches := 0, lockedTime := 0, lockedAt := none, code := 3, slope := 1000,
    disagreeLimit := 1000 }

def laneTrim : LaneTrim :=
  { codes := [8, 0, 0, 0, 0, 0, 0, 0, 0, 0, 0], stored := none, run := none, index := 0, refTemp := 0, valid := false,
    pending := false }

def trims : Trims :=
  { lanes := Vector.replicate 52 laneTrim, levels := [], chainLevels := [], gridTest := none, gridDue := 0,
    restoring := none, dieTemp := 0, levelRef := 0, cellRef := 0, laneStep := 5000, levelStep := 0, cellStep := 10000,
    laneRuns := 0, levelRuns := 0, cellRuns := 0, laneReverts := 0, levelSkipped := 0, spareBad := 0, keptGains := [],
    keptSeeds := [] }

def dmaSet : DmaSet := { src := 0, dst := 0, len := 0, srcSpace := 0, dstSpace := 0, core := 0, irq := false, tag := 0 }

def channel : Channel :=
  { shadow := dmaSet, armed := false, shadowErr := false, act := none, lastDone := 0, lastTag := 0, cqBase := 0,
    cqLog2 := 4, cqHbm := false, cqEnable := false, cqHead := 0, cqTail := 0, phase := true, transfers := 0, aborts := 0 }

def dma : Dma := { channels := Vector.replicate 36 channel, last := Vector.replicate 7 none }

def slot : Slot := { header := none, chunks := [] }

def boot : Boot :=
  { mode := .rom, runSlot := 0, trial := false, trialCount := 0, activation := none, download := none,
    settingsDefault := false, lastResult := 0, strapRecovery := false, strapQuad := false, ready := false, hint := false,
    maqFormat := 0, setFormat := 0, boots := 0, svcCmds := 0, svcCrcErr := 0, svcDropped := 0, rec0 := [], rec1 := [],
    set0 := none, set1 := none, slotA := slot, slotB := slot, keyHash := none, heldSettings := none, svcPending := none,
    svcWaiting := none,
    svcAttnN := true, incompatible := none }

def power : Power :=
  { domainOn := 0xFF, changing := [], stacksGoing := none, vid := 0x10, vidTime := none, inReset := false,
    tripped := false, vddIo := true, pwrGood := true }

def frieze : Frieze :=
  { single := false, bankB := false, switch := none, switchCtr := 0, swap := none, swaps := [], expired := false,
    residueSeen := false, entriesA := [], entriesB := [], tRefA := 0, tRefB := 0, expiryTold := false,
    residueTime := Vector.replicate 16 none, weightSat := 0, requantSat := 0, residueFail := 0, importLate := 0,
    importMismatch := 0, delayEcc := 0, beamRecords := 0, sliceResidue := Vector.replicate 16 0, prods := [] }

def tune : Tune := { ftw := 0, phase0 := 0, shIn := 0, shS1 := 0, shS2 := 0, shNco := 0, shH := [] }

def detector : Detector :=
  { det := .off, floor := 0, learnSum := 0, learnCount := 0, frozenOn := false, stuck := false, run := none, onset := 0,
    peak := 0, decided := 0, crossings := 0, winTaint := false, onTaint := false, last := none, second := none,
    droppedSince := 0, held := false }

def chain : Chain :=
  { state := .undefined, zoom := 0, event := none, capture := none, beam := 0, log2M := 0, slot0 := 0, proto := 0,
    tune := tune, nextTune := none, halfBands := 0, decim := 1, bankA := { coefs := [0], sh := 0, delay := 0 },
    bankB := { coefs := [0], sh := 0, delay := 0 }, active := false, switch := none,
    align := { a := 0, phase := 0, shAl := 0, extDelay := 0 }, nextAlign := none, log2Tz := 6,
    detect := { log2N := 0, lambda := 8, alphaUp := 10, alphaDown := 4, thOn := 1, thOff := 1, nOn := 1, nOff := 1,
                persistMs := 1000, holdS := 60, trigMask := 0, pin := none, toMask := 0, toOffset := 0, seed := none },
    nextDetect := [], nextRebase := none, seed := none, det := detector, ringBase := 0, ringLog2 := 0, pre := 0, post := 0,
    row := 0, first := 0, refHist := [], stop := none, inbox := [], uhist := [], hbHist := [], firHist := [],
    alHist := [], nOut := 0, interval := none, dueIntervals := [], asm := none, carried := 0, opened := none, copying := [],
    capSlots := Vector.replicate 2 none, nextCapture := 0, residueTime := none, satSamples := 0, taintSamples := 0,
    events := 0, eventsDropped := 0, captures := 0, captureMissed := 0, residueFail := 0, toLate := 0,
    flickerCrossings := 0 }

def chisel : Chisel :=
  { chains := Vector.replicate 64 chain, protos := Vector.replicate 8 none, rateLimited := false, residueSeen := false }

def core : Core :=
  { state := .empty, commanded := .empty, v := Vector.replicate 8 0, p := Vector.replicate 8 0,
    k := Vector.replicate 8 0, z := false, n := false, av := false, sat := false, eov := false, bx := 23, inWr := 0,
    inRd := 0, timer := 0, w := Vector.replicate 4 0, base := Vector.replicate 8 0, ext := Vector.replicate 8 0, pc := 0,
    loops := [], calls := [], x := [], y := [], prog := [], image := [], entry := 0,
    haz := { ptr1 := [], ptr2 := [], accs := [], zn := false }, stored := [], waiting := none, attach := none,
    frame := none, frames := [], opened := none, closed := [], slots := Vector.replicate 2 .free, emAv := false,
    emSat := false, emEov := false, collide := false, lastOut := [], cycles := 0, stalls := 0, feedFrames := 0,
    feedDeclined := 0, derivedRecords := 0, eccCorr := 0, portCollide := 0, evt := 0, lastTrap := { pc := 0, cause := 0 } }

def gloss : Gloss := { cores := Vector.replicate 32 core }

end Sys2Proof.Machine.Reset
end

