-- ==== Sys2Proof/Machine/State.lean ====
section
/-! DEFINITION. The state of the block as plain data, the faults and refusals a step can end in, and the state right after
reset. -/

namespace Sys2Proof.Machine

/-- Why a command could not be carried out. No command of this block stops the machine: the spec gives every command an
effect, and a class F fault is a state (17 R486). -/
inductive Fault where
  /-- raised by no command (safe): the block keeps no state from which a command could not go on -/
  | stuck
  deriving DecidableEq, Repr

/-- Why the model refuses a command. -/
inductive Refusal where
  /-- raised by the arm of a command whose meaning is not written (safe) -/
  | notModelled (mnemonic : String)
  deriving DecidableEq, Repr

/-- The state of the block. -/
structure State where
  /-- what left the die, newest first: the model's own record of the bumps (00 R1); reset none -/
  out : List Emission
  /-- how many free values have been used: the model's own field (log 4) -/
  fresh : Nat
  /-- HI words latched by a read of a LO word, by function number times 2^24 plus the HI offset (04 R137); reset none -/
  latches : List (Nat × U32)
  link : HostLink
  world : WorldState
  err : ErrState
  /-- products by product ID (01 R12, 05 R160); reset none -/
  products : List (Nat × Product)
  intake : Intake
  /-- input maps in the order loaded (04 R123); reset none -/
  maps : List InMap
  /-- correlation products in the order defined (05 R143); reset none -/
  corrs : List Corr
  relief : Relief
  istore : Istore
  /-- records that wait for a ring or a feed buffer, in the order offered (05 R171, 11 R360); reset none -/
  offers : List Offer
  hbm : Hbm
  pair : Pair
  /-- commits in the hold buffer of the mirror receiver during a restart of a standby's Armature, oldest first (19 R538); reset
  none -/
  commitHold : List (Maquette × Commit)
  osl : Osl
  plinth : Plinth
  net : NetTime
  clock : Clock
  trims : Trims
  dma : Dma
  boot : Boot
  power : Power
  frieze : Frieze
  chisel : Chisel
  gloss : Gloss
  /-- commands waiting, first in, first out: the model's own field; reset none -/
  pending : List Instr
  deriving DecidableEq, Repr

/-- The block right after reset: every register at the value its map gives, or at the value its docstring names. -/
def State.reset : State :=
  { out := [], fresh := 0, latches := [], link := Reset.link, world := Reset.world, err := Reset.err, products := [],
    intake := Reset.intake, maps := [], corrs := [], relief := Reset.relief, istore := Reset.istore, offers := [],
    hbm := Reset.hbm, pair := Reset.pair, commitHold := [], osl := Reset.osl, plinth := Reset.plinth, net := Reset.net,
    clock := Reset.clock, trims := Reset.trims, dma := Reset.dma, boot := Reset.boot, power := Reset.power,
    frieze := Reset.frieze, chisel := Reset.chisel, gloss := Reset.gloss, pending := [] }

end Sys2Proof.Machine
end

