-- ==== Sys2Proof/Machine/Access.lean ====
section
/-! DEFINITION. Reading and writing the parts of the state by function, index and world, and times in the units of the
Plinth's visible fraction. -/

namespace Sys2Proof.Machine

/-- The number of a function. -/
def fnNum : Fn → Nat
  | .f0 => 0
  | .f1 => 1

/-- The world of a function (11 R340). -/
def worldOf : Fn → World
  | .f0 => .secure
  | .f1 => .nonsecure

/-- The function of a world (11 R340). -/
def fnOf : World → Fn
  | .secure => .f0
  | .nonsecure => .f1

/-- A world as a bit: 0 secure, 1 non-secure. -/
def worldBit : World → Nat
  | .secure => 0
  | .nonsecure => 1

/-- The world a bit names. -/
def worldOfBit (n : Nat) : World := if n % 2 = 0 then .secure else .nonsecure

/-- One more event on the record of the bumps. -/
def State.emit (s : State) (e : Emission) : State := { s with out := e :: s.out }

/-! ### Functions, queue pairs, rings, vectors -/

def State.fn (s : State) : Fn → FnState
  | .f0 => s.link.f0
  | .f1 => s.link.f1

def State.setFn (s : State) (f : Fn) (x : FnState) : State :=
  match f with
  | .f0 => { s with link := { s.link with f0 := x } }
  | .f1 => { s with link := { s.link with f1 := x } }

def State.qp (s : State) (f : Fn) (i : Nat) : Qp := vget (s.fn f).qps i Reset.qp

def State.setQp (s : State) (f : Fn) (i : Nat) (q : Qp) : State :=
  s.setFn f { s.fn f with qps := vset (s.fn f).qps i q }

def State.ring (s : State) (f : Fn) (i : Nat) : Ring := vget (s.fn f).rings i Reset.ring

def State.setRing (s : State) (f : Fn) (i : Nat) (r : Ring) : State :=
  s.setFn f { s.fn f with rings := vset (s.fn f).rings i r }

def State.vec (s : State) (f : Fn) (i : Nat) : Msix := vget (s.fn f).msix i Reset.msix

def State.setVec (s : State) (f : Fn) (i : Nat) (m : Msix) : State :=
  s.setFn f { s.fn f with msix := vset (s.fn f).msix i m }

/-- The function may reach host memory: the link is up and Bus Master Enable is set (11 R339). -/
def State.reach (s : State) (f : Fn) : Bool := s.link.up && (s.fn f).bme

/-! ### Lanes, chains, cores, channels -/

def State.lane (s : State) (i : Nat) : Lane := vget s.osl.lanes i Reset.lane

def State.setLane (s : State) (i : Nat) (l : Lane) : State :=
  { s with osl := { s.osl with lanes := vset s.osl.lanes i l } }

def State.chain (s : State) (i : Nat) : Chain := vget s.chisel.chains i Reset.chain

def State.setChain (s : State) (i : Nat) (c : Chain) : State :=
  { s with chisel := { s.chisel with chains := vset s.chisel.chains i c } }

def State.core (s : State) (i : Nat) : Core := vget s.gloss.cores i Reset.core

def State.setCore (s : State) (i : Nat) (c : Core) : State :=
  { s with gloss := { s.gloss with cores := vset s.gloss.cores i c } }

def State.channel (s : State) (i : Nat) : Channel := vget s.dma.channels i Reset.channel

def State.setChannel (s : State) (i : Nat) (c : Channel) : State :=
  { s with dma := { s.dma with channels := vset s.dma.channels i c } }

def State.stream (s : State) (i : Nat) : Stream := (tabGet i s.intake.streams).getD Reset.stream

def State.setStream (s : State) (i : Nat) (x : Stream) : State :=
  { s with intake := { s.intake with streams := tabSet i x s.intake.streams } }

def State.stack (s : State) (i : Nat) : Stack := vget s.hbm.stackTab i Reset.stack

def State.setStack (s : State) (i : Nat) (x : Stack) : State :=
  { s with hbm := { s.hbm with stackTab := vset s.hbm.stackTab i x } }

/-! ### HBM bytes -/

/-- The area of an owner. -/
def allocOf (s : State) (k : AllocKind) : Option Alloc := s.hbm.allocs.find? fun a => a.kind == k

/-- The base of an HBM allocation. -/
def allocBase (s : State) (k : AllocKind) : Nat :=
  match allocOf s k with
  | some a => a.base
  | none => 0

/-- Words that lie wholly in the bytes from `lo` to `hi - 1` are no longer poisoned (10 R326). -/
def clearPoison (s : State) (lo hi : Nat) : State :=
  { s with hbm := { s.hbm with poison := s.hbm.poison.filter fun w => !(lo ≤ 8 * w && 8 * w + 8 ≤ hi) } }

/-- A poisoned word lies in the bytes from `lo` to `hi - 1` (10 R324). -/
def poisoned (s : State) (lo hi : Nat) : Bool := s.hbm.poison.any fun w => 8 * w < hi && lo < 8 * w + 8

/-- Bytes reach HBM: a write of a whole word clears its poison (10 R326). -/
def putClear (s : State) (addr : Nat) (bs : List Byte) : State :=
  clearPoison { s with hbm := { s.hbm with mem := memPutBytes addr bs s.hbm.mem } } addr (addr + bs.length)

/-- The first word that bytes from `lo` to `hi - 1` cover is covered in part and is poison; the last one. -/
def headLost (s : State) (lo hi : Nat) : Bool :=
  decide (lo < hi) && (lo % 8 != 0 || decide (hi < lo / 8 * 8 + 8)) && poisoned s lo (lo + 1)
def tailLost (s : State) (lo hi : Nat) : Bool := decide (lo < hi) && hi % 8 != 0 && poisoned s (hi - 1) hi

/-- Store bytes in HBM. A word covered in part is read, merged and written; where it is poison its bytes are lost, it stays
poison, and POISON_READS counts it (10 R317). -/
def State.store (s : State) (addr : Nat) (bs : List Byte) : State :=
  let hi := addr + bs.length
  let lo := if headLost s addr hi then min hi (addr / 8 * 8 + 8) else addr
  let lost := b2n (headLost s addr hi) + b2n (tailLost s lo hi)
  let end_ := if tailLost s lo hi then max lo (hi / 8 * 8) else hi
  if lost = 0 then putClear s addr bs
  else
    putClear { s with hbm := { s.hbm with poisonReads := s.hbm.poisonReads + BitVec.ofNat 32 lost } } lo
      ((bs.drop (lo - addr)).take (end_ - lo))

/-- Bytes of HBM. -/
def State.load (s : State) (addr n : Nat) : List Byte := memGetBytes s.hbm.mem addr n

/-! ### Products -/

def State.product (s : State) (pid : Nat) : Option Product := tabGet pid s.products

def State.setProduct (s : State) (pid : Nat) (p : Product) : State :=
  { s with products := tabSet pid p s.products }

def State.delProduct (s : State) (pid : Nat) : State := { s with products := tabDel pid s.products }

def State.corr (s : State) (pid : Nat) : Option Corr := s.corrs.find? fun c => c.pid == pid

/-- Replace the entry of a list whose key equals the new entry's, where there is one. -/
def putBy {α : Type} (key : α → Nat) (x : α) (l : List α) : List α :=
  l.map fun y => if key y = key x then x else y

def State.setCorr (s : State) (c : Corr) : State := { s with corrs := putBy Corr.pid c s.corrs }

def State.fzProd (s : State) (pid : Nat) : Option FzProd := s.frieze.prods.find? fun p => p.pid == pid

def State.setFzProd (s : State) (p : FzProd) : State :=
  { s with frieze := { s.frieze with prods := putBy FzProd.pid p s.frieze.prods } }

/-- A power domain is on and not changing state (20 R552). -/
def domainUp (s : State) (d : Nat) : Bool :=
  s.power.domainOn.getLsbD d && !(s.power.changing.any fun x => x.domain == d)

/-! ### Time, in units of 2^-16 ns (13 R387) -/

/-- One second in units of 2^-16 ns. -/
def second : Nat := 65536000000000

/-- One nanosecond in units of 2^-16 ns. -/
def nanos : Nat := 65536

/-- One microsecond in units of 2^-16 ns. -/
def micros : Nat := 65536000

/-- A Plinth time field as a count of units. -/
def timeOf (t : U96) : Nat :=
  let v := t.toNat
  (bits v 48 48 * 1000000000 + bits v 16 32) * nanos + bits v 0 16

/-- A count of units as a Plinth time field. -/
def timeField (u : Nat) : U96 :=
  BitVec.ofNat 96 (u / second * 2 ^ 48 + u % second)

/-- The fields of a 96-bit Plinth time are in their ranges (13 R387). -/
def timeOk (t : U96) : Bool := bits t.toNat 16 32 < 1000000000

/-- The Plinth's reading (13 R389), truncated to the visible fraction. -/
def State.now (s : State) : Nat :=
  (s.plinth.sec.toNat * 1000000000 + s.plinth.ns.toNat) * nanos + s.plinth.sub.toNat / 2 ^ 24

/-- The FCLK cycle of the Plinth time (01 R17). -/
def State.fclk (s : State) : Nat := s.now * 4 / (5 * nanos)

/-- The Plinth time of sample counter `t`, in units (03 R93). -/
def State.timeAt (s : State) (t : Nat) : Nat :=
  s.intake.t0 + (roundHE ((t * s.intake.den * second : Nat) : Int) s.intake.num).toNat

/-- The sample counter at or after a Plinth time; 0 for a time before T0 (13 R411). -/
def State.counterAt (s : State) (u : Nat) : Nat := ceilDiv ((u - s.intake.t0) * s.intake.num) (s.intake.den * second)

/-- The first counter at least `ns` nanoseconds of sample time beyond the release front: the earliest row that a change
released "at least `ns` after execution" may name (03 R88, 07 R214, R228, 08 R268; log 26). -/
def State.counterIn (s : State) (ns : Nat) : Nat :=
  s.intake.front + ceilDiv (ns * s.intake.num) (s.intake.den * 1000000000)

/-! ### Free values (log 4) -/

/-- A free value below `m` and the state that has used it. -/
def State.free (s : State) (m : Nat) : Nat × State := (Config.free s.fresh % m, { s with fresh := s.fresh + 1 })

/-- `n` free bytes and the state that has used them. -/
def State.freeBytes (s : State) (n : Nat) : List Byte × State :=
  ((List.range n).map fun i => BitVec.ofNat 8 (Config.free (s.fresh + i)), { s with fresh := s.fresh + n })

end Sys2Proof.Machine
end

