-- ==== Sys2Proof/Machine/Osl.lean ====
section
/-! DEFINITION. The coding of OSL frames: Gray levels, precoding, RS(544,514), scrambling and the frame layout (02 R32 to
R42). -/

namespace Sys2Proof.Machine

/-! ### Bits, levels and precoding (02 R32, R33, R36) -/

/-- The bits of a byte string, each byte least significant bit first (02 R36). -/
def bitsOf (bs : List Byte) : List Bool := bs.flatMap fun b => (List.range 8).map fun i => b.getLsbD i

/-- The number whose bits, least significant first, are `l`. -/
def numOf (l : List Bool) : Nat := l.foldr (fun b n => b2n b + 2 * n) 0

/-- Cut a list into pieces of `n`. `fuel` is the most pieces. -/
def chunks {α : Type} (n : Nat) : Nat → List α → List (List α)
  | 0, _ => []
  | fuel + 1, l => match l with
    | [] => []
    | _ => l.take n :: chunks n fuel (l.drop n)

/-- The bytes that bits spell, eight at a time. -/
def bytesOf (l : List Bool) : List Byte := (chunks 8 (l.length / 8 + 1) l).map fun c => BitVec.ofNat 8 (numOf c)

/-- The level of a pair of bits, the earlier one first (02 R32). -/
def grayLevel (msb lsb : Bool) : BitVec 2 :=
  match msb, lsb with
  | false, false => 0
  | false, true => 1
  | true, true => 2
  | true, false => 3

/-- The pair of bits of a level (02 R32). -/
def grayBits (l : BitVec 2) : List Bool := [l.getLsbD 1, l.getLsbD 1 != l.getLsbD 0]

/-- The levels of line bits. -/
def levelsOf : List Bool → List (BitVec 2)
  | a :: b :: t => grayLevel a b :: levelsOf t
  | _ => []

/-- Precoding on transmit: y(n) = x(n) - y(n - 1) (02 R33). -/
def precodeTx : BitVec 2 → List (BitVec 2) → List (BitVec 2)
  | _, [] => []
  | prev, x :: t => (x - prev) :: precodeTx (x - prev) t

/-- Precoding on receive: x(n) = y(n) + y(n - 1) (02 R33). -/
def precodeRx : BitVec 2 → List (BitVec 2) → List (BitVec 2)
  | _, [] => []
  | prev, y :: t => (y + prev) :: precodeRx y t

/-- Inverted polarity maps level l to 3 - l (02 R52). -/
def invert (l : BitVec 2) : BitVec 2 := ~~~l

/-- Hypothesis `h` has inverted polarity; with precoding (02 R52). -/
def hypInv (h : Nat) : Bool := h % 2 == 1
def hypPre (h : Nat) : Bool := h ≥ 2

/-- The line bits of received levels under a hypothesis; `prev` is the level received before them. -/
def lineBits (h : Nat) (prev : BitVec 2) (levels : List (BitVec 2)) : List Bool :=
  let inv (l : BitVec 2) : BitVec 2 := if hypInv h then invert l else l
  let ys := levels.map inv
  (if hypPre h then precodeRx (inv prev) ys else ys).flatMap grayBits

/-! ### GF(2^10) and RS(544,514) (02 R34, R37) -/

/-- Multiplication by x modulo x^10 + x^3 + 1. -/
def gfDouble (a : Nat) : Nat := if 2 * a ≥ 1024 then (2 * a) ^^^ 0x409 else 2 * a

/-- `n` steps of a product. -/
def gfMulStep : Nat → Nat → Nat → Nat → Nat
  | 0, _, _, acc => acc
  | n + 1, a, b, acc => gfMulStep n (gfDouble a) (b / 2) (if b % 2 = 1 then acc ^^^ a else acc)

/-- The product of two elements. -/
def gfMul (a b : Nat) : Nat := gfMulStep 10 a b 0

/-- α^n. -/
def gfExp : Nat → Nat
  | 0 => 1
  | n + 1 => gfDouble (gfExp n)

/-- a^n. -/
def gfPow (a : Nat) : Nat → Nat
  | 0 => 1
  | n + 1 => gfMul a (gfPow a n)

/-- The inverse of a non-zero element. -/
def gfInv (a : Nat) : Nat :=
  -- a^1022 = (a^(2^9 + ... + 2))
  (List.range 9).foldl (fun (p : Nat × Nat) _ => let q := gfMul p.1 p.1
                                                (q, gfMul p.2 q)) (a, 1) |>.2

/-- Value at `x` of a polynomial given with its highest coefficient first. -/
def polyEval (p : List Nat) (x : Nat) : Nat := p.foldl (fun acc c => gfMul acc x ^^^ c) 0

/-- The generator, highest coefficient first: the product of x - α^j for j = 0 to 29 (02 R37). -/
def rsGen : List Nat :=
  (List.range 30).foldl (fun p j =>
    let r := gfExp j
    ((p ++ [0]).zip (0 :: p)).map fun (a, b) => a ^^^ gfMul r b) [1]

/-- One step of the division by the generator. -/
def rsStep (g : List Nat) (reg : List Nat) (m : Nat) : List Nat :=
  match reg with
  | [] => []
  | h :: t =>
    let fb := m ^^^ h
    ((t ++ [0]).zip g).map fun (a, c) => a ^^^ gfMul fb c

/-- The 30 parity symbols of 514 message symbols (02 R37). -/
def rsParity (msg : List Nat) : List Nat := msg.foldl (rsStep rsGen.tail) (List.replicate 30 0)

/-- The 30 syndromes of a received word. -/
def rsSyndromes (r : List Nat) : List Nat := (List.range 30).map fun j => polyEval r (gfExp j)

/-- The state of the Berlekamp-Massey iteration; polynomials have their lowest coefficient first. -/
structure Massey where
  c : List Nat
  b : List Nat
  len : Nat
  shift : Nat
  last : Nat
  deriving DecidableEq, Repr

/-- The sum of two polynomials, lowest coefficient first. -/
def polyAdd : List Nat → List Nat → List Nat
  | [], q => q
  | p, [] => p
  | a :: p, b :: q => (a ^^^ b) :: polyAdd p q

/-- One iteration with syndromes `syn` at index `n`. -/
def masseyStep (syn : List Nat) (m : Massey) (n : Nat) : Massey :=
  let d := (enumFrom0 m.c).foldl (fun acc (i, c) => if i ≤ m.len ∧ i ≤ n then acc ^^^ gfMul c (syn.getD (n - i) 0) else acc) 0
  if d = 0 then { m with shift := m.shift + 1 }
  else
    let k := gfMul d (gfInv m.last)
    let c' := polyAdd m.c (List.replicate m.shift 0 ++ m.b.map (gfMul k))
    if 2 * m.len ≤ n then { c := c', b := m.c, len := n + 1 - m.len, shift := 1, last := d }
    else { m with c := c', shift := m.shift + 1 }

/-- The coefficients of the product of two polynomials below x^30, lowest first. -/
def polyMul30 (p q : List Nat) : List Nat :=
  (List.range 30).map fun n =>
    (List.range (n + 1)).foldl (fun acc i => acc ^^^ gfMul (p.getD i 0) (q.getD (n - i) 0)) 0

/-- The formal derivative, lowest coefficient first. -/
def polyDeriv (p : List Nat) : List Nat := (enumFrom0 p).tail.map fun (i, c) => if i % 2 = 1 then c else 0

/-- A received word of 544 symbols decoded: the word and how many symbols were corrected, or none where it is
uncorrectable: no codeword lies within 15 symbols (02 R34). -/
def rsDecode (r : List Nat) : Option (List Nat × Nat) :=
  let syn := rsSyndromes r
  if syn.all (· == 0) then some (r, 0)
  else
    let m := (List.range 30).foldl (masseyStep syn) { c := [1], b := [1], len := 0, shift := 1, last := 1 }
    if m.len > 15 then none
    else
      let omega := (polyMul30 syn m.c).reverse
      let lam := m.c.reverse
      let der := (polyDeriv m.c).reverse
      let fixed := (enumFrom0 r).map fun (i, v) =>
        let x := gfExp (543 - i)
        let xi := gfInv x
        if polyEval lam xi = 0 then (v ^^^ gfMul x (gfMul (polyEval omega xi) (gfInv (polyEval der xi))), 1) else (v, 0)
      let word := fixed.map Prod.fst
      let n := sumNat (fixed.map Prod.snd)
      if n = m.len ∧ (rsSyndromes word).all (· == 0) then some (word, n) else none

/-! ### Frames (02 R35 to R42) -/

/-- The scrambler from state `s` over message bits (02 R36). -/
def scramble : Nat → List Bool → List Bool
  | _, [] => []
  | s, b :: t =>
    let k := bitOf s 57 != bitOf s 38
    (b != k) :: scramble ((2 * s + b2n k) % 2 ^ 58) t

/-- The fixed 48-bit marker pattern (02 R38). -/
def markerPattern : List Byte := leBytes 6 0x5F0CA3D61B79

/-- The 25,700 message bits with bits 64 on scrambled for a frame count (02 R36). -/
def scrambleFrame (count : Nat) (msg : List Bool) : List Bool :=
  msg.take 64 ++ scramble (2 ^ 57 + count % 65536) (msg.drop 64)

/-- The message bytes of a frame (02 R35): marker, header, payload, CRC and link control. -/
def frameBytes (count : Nat) (header payload link : List Byte) : List Byte :=
  let body := slice header 0 32 ++ slice payload 0 3072
  markerPattern ++ leBytes 2 count ++ body ++ leBytes 4 (crc32c body).toNat ++ slice link 0 96

/-- The line bits of a frame: five codewords with their parity (02 R37). -/
def frameLine (count : Nat) (header payload link : List Byte) : List Bool :=
  let msg := scrambleFrame count (bitsOf (frameBytes count header payload link) ++ List.replicate 4 false)
  (chunks 5140 6 msg).flatMap fun cw =>
    let syms := (chunks 10 515 cw).map numOf
    cw ++ (rsParity syms).flatMap fun p => (List.range 10).map fun i => bitOf p i

/-- The levels a lane sends for a frame, with precoding or without; `prev` is the level sent before (02 R32, R33). -/
def frameLevels (precode : Bool) (prev : BitVec 2) (count : Nat) (header payload link : List Byte) : List (BitVec 2) :=
  let x := levelsOf (frameLine count header payload link)
  if precode then precodeTx prev x else x

/-- A frame after FEC decoding and descrambling: the symbols corrected in each codeword, none for an uncorrectable one, and
the message bytes. -/
structure RxFrame where
  corr : List (Option Nat)
  bytes : List Byte
  deriving DecidableEq, Repr

/-- Decode a frame's line bits (02 R37). -/
def decodeFrame (line : List Bool) : RxFrame :=
  let words := (chunks 5440 6 line).map fun cw => (chunks 10 545 cw).map numOf
  let dec := words.map fun w => (rsDecode w, w)
  let msgSyms := dec.flatMap fun (d, w) => (match d with
    | some (v, _) => v
    | none => w).take 514
  let msg := msgSyms.flatMap fun p => (List.range 10).map fun i => bitOf p i
  let count := numOf ((msg.drop 48).take 16)
  { corr := dec.map fun (d, _) => d.map Prod.snd, bytes := bytesOf ((scrambleFrame count msg).take 25696) }

/-- The marker's 48 bits match exactly (02 R53). -/
def markerExact (f : RxFrame) : Bool := f.bytes.take 6 == markerPattern

/-- In search, a marker counts as seen when at most 3 of its raw bits differ (02 R53). -/
def markerSeen (line : List Bool) : Bool :=
  decide (((line.take 48).zip (bitsOf markerPattern)).countP (fun p => p.1 != p.2) ≤ 3) && decide (48 ≤ line.length)

/-- Some codeword is uncorrectable (02 R55). -/
def frameUncorr (f : RxFrame) : Bool := f.corr.any Option.isNone

/-- The CRC-32C over bytes 8 to 3,111 matches (02 R35, R39). -/
def frameCrcOk (f : RxFrame) : Bool :=
  crc32c (slice f.bytes 8 3104) == BitVec.ofNat 32 (field f.bytes 3112 4)

/-- The frame header and payload (02 R35). -/
def frameHeader (f : RxFrame) : List Byte := slice f.bytes 8 32
def framePayload (f : RxFrame) : List Byte := slice f.bytes 40 3072

/-- The link-control flags and the sleep countdown (02 R40). -/
def linkFlags (f : RxFrame) : Nat := field f.bytes 3116 1
def linkCountdown (f : RxFrame) : Nat := field f.bytes 3117 1

/-- Frame types (02 R42). -/
def ftIdle : Nat := 0
def ftSample : Nat := 1
def ftRecord : Nat := 2
def ftMirror : Nat := 3

end Sys2Proof.Machine
end

