-- ==== Sys2Proof/Machine/Flash.lean ====
section
/-! DEFINITION. Reading the flash: slot headers, boot records and settings (19 R528 to R532). -/

namespace Sys2Proof.Machine

/-- The last four bytes of a block hold the CRC-32C of those before (19 R529, R530, R532). -/
def crcOk (bs : List Byte) : Bool :=
  let n := bs.length - 4
  decide (4 ≤ bs.length) && crc32c (bs.take n) == BitVec.ofNat 32 (field bs n 4)

/-- A block of bytes with its CRC-32C after it. -/
def withCrc (bs : List Byte) : List Byte := bs ++ leBytes 4 (crc32c bs).toNat

/-- A slot header is visible to boot: 512 bytes with a valid magic and CRC (19 R530). -/
def headerOk (h : List Byte) : Bool := h.length == 512 && field h 0 4 == 0x4D504657 && crcOk h

def State.slot (s : State) (n : Nat) : Slot := if n = 0 then s.boot.slotA else s.boot.slotB

def State.setSlot (s : State) (n : Nat) (x : Slot) : State :=
  if n = 0 then { s with boot := { s.boot with slotA := x } } else { s with boot := { s.boot with slotB := x } }

/-- The visible header of a slot. -/
def slotHeader (s : State) (n : Nat) : Option (List Byte) :=
  match (s.slot n).header with
  | some h => if headerOk h then some h else none
  | none => none

/-- The firmware version in a slot, 0 where no header is visible (19 R530, R545). -/
def slotVersion (s : State) (n : Nat) : Nat :=
  match slotHeader s n with
  | some h => field h 4 4
  | none => 0

/-- A valid boot record (19 R529). -/
def bootRecOk (b : BootEntry) : Bool := b.length == 64 && field b 0 2 == 0x4D42 && field b 2 2 == 1 && crcOk b

/-- Sequence number `a` is later than `b` in serial order modulo 2^32 (19 R529). -/
def serialAfter (a b : Nat) : Bool :=
  let d := (a + 2 ^ 32 - b) % 2 ^ 32
  decide (0 < d) && decide (d < 2 ^ 31)

/-- The newest of the valid records of a copy, with its copy. -/
def newestOf (l : List (Bool × BootEntry)) : Option (Bool × BootEntry) :=
  l.foldl (fun best x =>
    match best with
    | none => some x
    | some y => if serialAfter (field x.2 4 4) (field y.2 4 4) then some x else best) none

/-- The newest valid boot record and the copy that holds it, true for copy 1 (19 R529). -/
def newestRecord (s : State) : Option (Bool × BootEntry) :=
  newestOf (((s.boot.rec0.map fun x => (false, x.2)) ++ (s.boot.rec1.map fun x => (true, x.2))).filter fun x =>
    bootRecOk x.2)

/-- The fields of a boot record (19 R529). -/
def recConfirmed (b : BootEntry) : Nat := field b 8 1
def recTrial (b : BootEntry) : Nat := field b 9 1
def recCount (b : BootEntry) : Nat := field b 10 1
def recResult (b : BootEntry) : Nat := field b 11 1

/-- A valid settings copy (19 R532): magic, length and CRC match. -/
def settingsOk (c : List Byte) : Bool :=
  field c 0 2 == 0x5E77 && field c 8 4 == c.length && 64 ≤ c.length && c.length ≤ 65536 && crcOk c

/-- The newest valid settings copy and whether it is copy 1 (19 R532). -/
def newestSettings (s : State) : Option (Bool × List Byte) :=
  let get (o : Option (List Byte)) : Option (List Byte) := o.bind fun c => if settingsOk c then some c else none
  match get s.boot.set0, get s.boot.set1 with
  | none, none => none
  | some a, none => some (false, a)
  | none, some b => some (true, b)
  | some a, some b => if serialAfter (field b 4 4) (field a 4 4) then some (true, b) else some (false, a)

end Sys2Proof.Machine
end

