-- ==== Sys2Proof/Machine/ClauseTab.lean ====
section
/-! DEFINITION. The master opcode table as R345 needs it: which opcodes are listed, which are secure-only, and which bits of
the 64 bytes are fields (11 R344, R367 to R369). -/

namespace Sys2Proof.Machine

/-- A run of field bytes: offset, number of bytes and the mask of its field bits, little-endian. -/
abbrev FieldRun := Nat × Nat × Nat

/-- All bits of `n` bytes at `off`. -/
def whole (off n : Nat) : FieldRun := (off, n, 2 ^ (8 * n) - 1)

/-- The shorthands of the table: H, P (also Ch and Co), G, T and route (11 R367). -/
def hostBuf : List FieldRun := [whole 48 8, whole 56 4]
def timeAt (off : Nat) : FieldRun := whole off 12
def routeAt (off : Nat) : FieldRun := (off, 4, 0x1FFFF)
def prod : FieldRun := whole 8 2
def obj : FieldRun := whole 8 1
def grp : List FieldRun := [whole 8 1, whole 10 1]

/-- The fields of ZOOM_FIR_SWITCH depend on byte 9: by time, bytes 24 to 27 belong to the time (11 R368). -/
def firSwitchFields (byTime : Nat) : List FieldRun :=
  [obj, whole 9 1, whole 10 2, if byTime = 1 then timeAt 16 else whole 16 8]

/-- Block bytes 0 to 31 carried at 16 by ZOOM_SET_TUNE (11 R369). -/
def tuneFields : List FieldRun := [whole 16 15, whole 32 6, whole 40 6]

/-- Block bytes 48 to 63 carried at 16 by ZOOM_SET_ALIGN (11 R369). -/
def alignFields : List FieldRun := [whole 16 5, whole 24 8]

/-- Block bytes 64 to 103 carried at 16 by ZOOM_SET_DETECT (11 R369). -/
def detectFields : List FieldRun := [whole 16 20, (36, 1, 0x87), (37, 1, 0x07), whole 38 1, whole 40 4, whole 48 8]

/-- The field bits of a Clause by opcode; none for an opcode the table does not list. `b9` is the Clause's byte 9. -/
def clauseFields (opcode b9 : Nat) : Option (List FieldRun) :=
  match opcode with
  | 0x0000 => some []
  | 0x0001 => some hostBuf
  | 0x0002 => some [whole 8 1, whole 9 1, whole 10 2, whole 12 4, whole 16 8, whole 24 1, whole 48 8]
  | 0x0003 => some [obj]
  | 0x0004 => some hostBuf
  | 0x0100 => some (whole 9 1 :: grp)
  | 0x0101 => some grp
  | 0x0102 => some (whole 11 1 :: grp)
  | 0x0103 => some grp
  | 0x0104 => some [obj, whole 11 1]
  | 0x0105 => some [obj, whole 12 4]
  | 0x0106 => some [obj, whole 9 1]
  | 0x0200 => some [whole 8 2, whole 10 1, (11, 1, 3), whole 12 8, whole 20 4]
  | 0x0201 => some [whole 8 2]
  | 0x0202 => some [whole 8 2]
  | 0x0203 => some [timeAt 8, whole 20 12]
  | 0x0204 => some ([whole 8 10] ++ hostBuf)
  | 0x0205 => some [whole 8 14, routeAt 24]
  | 0x0206 => some [prod]
  | 0x0300 => some hostBuf
  | 0x0301 => some [obj]
  | 0x0302 => some [prod, whole 10 1, (11, 1, 0x3F), whole 12 5, whole 18 4, whole 24 8, routeAt 32]
  | 0x0303 | 0x0304 | 0x0305 => some [prod]
  | 0x0306 => some [prod, whole 10 1]
  | 0x0307 => some hostBuf
  | 0x0310 => some [prod, whole 10 4, whole 16 16]
  | 0x0311 => some [prod, routeAt 12]
  | 0x0312 => some [prod, whole 10 1]
  | 0x0313 => some hostBuf
  | 0x0320 => some [whole 8 6]
  | 0x0400 => some ([prod, whole 10 1, (11, 1, 0x1F), whole 12 11, routeAt 24] ++ hostBuf)
  | 0x0401 | 0x0402 | 0x0403 => some [prod]
  | 0x0404 => some ([prod, whole 10 4] ++ hostBuf)
  | 0x0405 => some [timeAt 8, timeAt 20]
  | 0x0406 => some ([prod, whole 10 2] ++ hostBuf)
  | 0x0407 => some [obj]
  | 0x0408 => some [prod, whole 10 1, whole 16 16]
  | 0x0409 => some [prod, whole 10 6]
  | 0x040A => some [prod, routeAt 12, whole 16 32]
  | 0x040B => some [prod, whole 10 1, whole 12 8]
  | 0x040C => some hostBuf
  | 0x0500 => some (obj :: hostBuf)
  | 0x0501 => some [obj]
  | 0x0502 => some ([whole 8 8, routeAt 16, routeAt 20, routeAt 24] ++ hostBuf)
  | 0x0503 | 0x0504 | 0x0505 => some [obj]
  | 0x0506 => some ([whole 8 5, whole 14 2] ++ hostBuf)
  | 0x0507 => some (firSwitchFields b9)
  | 0x0508 => some (obj :: tuneFields)
  | 0x0509 => some (obj :: alignFields)
  | 0x050A => some (obj :: detectFields)
  | 0x050B => some [obj, whole 9 1, whole 16 8]
  | 0x050C => some [obj, whole 16 8]
  | 0x050D => some [obj, whole 9 1, routeAt 12]
  | 0x050E => some hostBuf
  | 0x0600 => some (obj :: hostBuf)
  | 0x0601 | 0x0602 => some [obj]
  | 0x0603 => some [whole 8 10, routeAt 20, whole 24 8, (32, 4, 0x7FFFFFFF), (36, 4, 0x7FFFFFFF), (40, 4, 0x7FFFFFFF),
                    (44, 4, 0x7FFFFFFF), whole 48 16]
  | 0x0604 => some [obj]
  | 0x0605 => some [obj, routeAt 12]
  | 0x0606 | 0x0607 => some ([whole 8 6] ++ hostBuf)
  | 0x0608 => some hostBuf
  | 0x0700 => some [whole 8 1, (9, 1, 7), whole 10 1, whole 12 10]
  | 0x0701 => some [whole 8 5, (13, 1, 1)]
  | 0x0702 => some [whole 8 4]
  | 0x0703 => some [timeAt 8]
  | 0x0704 => some [whole 8 2, whole 12 16, whole 32 8]
  | 0x0705 => some [whole 8 3]
  | 0x0706 => some hostBuf
  | 0x0800 => some [whole 8 2, whole 12 24]
  | 0x0801 => some [whole 8 2]
  | 0x0802 => some [whole 8 1, whole 12 8]
  | 0x0803 => some hostBuf
  | 0x0900 => some [(8, 1, 7), whole 10 2]
  | 0x0901 => some [(8, 1, 7), whole 12 4]
  | 0x0902 | 0x0903 => some hostBuf
  | 0x0A00 => some [whole 8 1, (9, 1, 3), whole 10 1, whole 16 16]
  | 0x0A01 => some [whole 8 1, whole 10 5]
  | 0x0A02 => some [whole 8 1, whole 16 8]
  | 0x0A03 => some hostBuf
  | 0x0B00 => some [(8, 1, 1), whole 12 4]
  | 0x0B01 => some [timeAt 8]
  | 0x0B02 => some []
  | 0x0B03 => some hostBuf
  | 0x0C00 => some [obj, timeAt 16]
  | 0x0C01 => some [obj]
  | 0x0C02 => some hostBuf
  | 0x0D00 => some [whole 8 2]
  | 0x0D01 => some []
  | 0x0D02 => some [whole 8 2]
  | 0x0D03 => some [whole 8 2, whole 12 4]
  | 0x0E00 => some hostBuf
  | 0x0E01 => some (whole 11 1 :: grp)
  | _ => none

/-- The secure-only opcodes (11 R368, marked S). -/
def secureOnlyOp (opcode : Nat) : Bool :=
  [0x0202, 0x0203, 0x0320, 0x0405, 0x0407, 0x0700, 0x0701, 0x0702, 0x0703, 0x0800, 0x0801, 0x0802, 0x0900, 0x0901, 0x0902,
   0x0903, 0x0A00, 0x0A01, 0x0A02, 0x0B00, 0x0B01, 0x0B02, 0x0C00, 0x0C01, 0x0D00, 0x0D01, 0x0D02, 0x0D03,
   0x0E01].contains opcode

/-- The field bits of byte `i` of a Clause: those of the table, the opcode, the world bit and the sequence number. -/
def byteMask (fields : List FieldRun) (i : Nat) : Nat :=
  if i < 2 then 255 else if i = 2 then 1 else if i = 3 then 0 else if i < 8 then 255
  else
    match fields.find? fun f => f.1 ≤ i && i < f.1 + f.2.1 with
    | some f => f.2.2 / 2 ^ (8 * (i - f.1)) % 256
    | none => 0

end Sys2Proof.Machine
end

