-- ==== Sys2Proof/Machine/ClauseWords.lean ====
section
/-! DEFINITION. The Clauses as the 64 bytes a submission queue's slot holds: each command's parameters at the offsets of the
master opcode table (11 R344, R367, R368). -/

namespace Sys2Proof.Machine

/-- A Clause: who submitted it, its opcode and its parameters, each as offset, bytes and value (11 R344, R368). -/
structure Clause where
  src : Src
  opcode : Nat
  words : List (Nat × Nat × Nat)
  deriving DecidableEq, Repr

/-- The shorthand H: a host buffer's address and length (11 R367). -/
def bufWords (buf : HBuf) : List (Nat × Nat × Nat) := [(48, 8, buf.addr.toNat), (56, 4, buf.len.toNat)]

/-- The Clause that a command is, with its parameters at their byte offsets; none for a command that is no Clause (11 R368). -/
def clauseOf (i : Instr) : Option Clause :=
  match i with
  | .sysNop src => some ⟨src, 0x0000, []⟩
  | .sysIdentify src buf => some ⟨src, 0x0001, bufWords buf⟩
  | .sysRingDefine src ring vector coalesce timeUs wbAddr k base =>
    some ⟨src, 0x0002, [(8, 1, ring.toNat), (9, 1, vector.toNat), (10, 2, coalesce.toNat), (12, 4, timeUs.toNat), (16, 8,
      wbAddr.toNat), (24, 1, k.toNat), (48, 8, base.toNat)]⟩
  | .sysRingRelease src ring => some ⟨src, 0x0003, [(8, 1, ring.toNat)]⟩
  | .sysEnvelopeQuery src buf => some ⟨src, 0x0004, bufWords buf⟩
  | .laneGroupDefine src first code dir => some ⟨src, 0x0100, [(8, 1, first.toNat), (9, 1, code.toNat), (10, 1, dir.toNat)]⟩
  | .laneGroupRelease src first dir => some ⟨src, 0x0101, [(8, 1, first.toNat), (10, 1, dir.toNat)]⟩
  | .laneSleep src first dir state => some ⟨src, 0x0102, [(8, 1, first.toNat), (10, 1, dir.toNat), (11, 1, state.toNat)]⟩
  | .laneWake src first dir => some ⟨src, 0x0103, [(8, 1, first.toNat), (10, 1, dir.toNat)]⟩
  | .laneTxPrecode src first enable => some ⟨src, 0x0104, [(8, 1, first.toNat), (11, 1, enable.toNat)]⟩
  | .laneSetThresholds src first threshold => some ⟨src, 0x0105, [(8, 1, first.toNat), (12, 4, threshold.toNat)]⟩
  | .laneEgressBind src first egress => some ⟨src, 0x0106, [(8, 1, first.toNat), (9, 1, egress.toNat)]⟩
  | .intakeStreamDefine src stream first flags inBase inCount chBase chCount source =>
    some ⟨src, 0x0200, [(8, 2, stream.toNat), (10, 1, first.toNat), (11, 1, flags.toNat), (12, 2, inBase.toNat), (14, 2,
      inCount.toNat), (16, 2, chBase.toNat), (18, 2, chCount.toNat), (20, 4, source.toNat)]⟩
  | .intakeStreamRelease src stream => some ⟨src, 0x0201, [(8, 2, stream.toNat)]⟩
  | .intakeSetSkew src w => some ⟨src, 0x0202, [(8, 2, w.toNat)]⟩
  | .intakeSetEpoch src t0 num den tolerance =>
    some ⟨src, 0x0203, [(8, 12, t0.toNat), (20, 4, num.toNat), (24, 4, den.toNat), (28, 4, tolerance.toNat)]⟩
  | .intakeSetGains src stream first count chFirst chCount buf _ =>
    some ⟨src, 0x0204, [(8, 2, stream.toNat), (10, 2, first.toNat), (12, 2, count.toNat), (14, 2, chFirst.toNat), (16, 2,
      chCount.toNat)] ++ bufWords buf⟩
  | .intakeStatsDefine src pid stream inBase inCount chBase chCount log2Int tap route =>
    some ⟨src, 0x0205, [(8, 2, pid.toNat), (10, 2, stream.toNat), (12, 2, inBase.toNat), (14, 2, inCount.toNat), (16, 2,
      chBase.toNat), (18, 2, chCount.toNat), (20, 1, log2Int.toNat), (21, 1, tap.toNat), (24, 4, route.toNat)]⟩
  | .intakeStatsRelease src pid => some ⟨src, 0x0206, [(8, 2, pid.toNat)]⟩
  | .corrInputMapLoad src buf _ => some ⟨src, 0x0300, bufWords buf⟩
  | .corrInputMapFree src handle => some ⟨src, 0x0301, [(8, 1, handle.toNat)]⟩
  | .corrDefine src pid handle flags chBase chCount log2Td nInt g base route =>
    some ⟨src, 0x0302, [(8, 2, pid.toNat), (10, 1, handle.toNat), (11, 1, flags.toNat), (12, 2, chBase.toNat), (14, 2,
      chCount.toNat), (16, 1, log2Td.toNat), (18, 2, nInt.toNat), (20, 2, g.toNat), (24, 8, base.toNat), (32, 4,
      route.toNat)]⟩
  | .corrRelease src pid => some ⟨src, 0x0303, [(8, 2, pid.toNat)]⟩
  | .corrSuspend src pid => some ⟨src, 0x0304, [(8, 2, pid.toNat)]⟩
  | .corrResume src pid => some ⟨src, 0x0305, [(8, 2, pid.toNat)]⟩
  | .corrSetMode src pid mode => some ⟨src, 0x0306, [(8, 2, pid.toNat), (10, 1, mode.toNat)]⟩
  | .corrPlanQuery src buf => some ⟨src, 0x0307, bufWords buf⟩
  | .corrSnapshot src pid first count area len =>
    some ⟨src, 0x0310, [(8, 2, pid.toNat), (10, 2, first.toNat), (12, 2, count.toNat), (16, 8, area.toNat), (24, 8,
      len.toNat)]⟩
  | .corrSetRoute src pid route => some ⟨src, 0x0311, [(8, 2, pid.toNat), (12, 4, route.toNat)]⟩
  | .corrSetOutput src pid output => some ⟨src, 0x0312, [(8, 2, pid.toNat), (10, 1, output.toNat)]⟩
  | .corrIstoreQuery src buf => some ⟨src, 0x0313, bufWords buf⟩
  | .corrFaultInject src row pos baseline comp bit mode =>
    some ⟨src, 0x0320, [(8, 1, row.toNat), (9, 1, pos.toNat), (10, 1, baseline.toNat), (11, 1, comp.toNat), (12, 1,
      bit.toNat), (13, 1, mode.toNat)]⟩
  | .beamDefine src pid handle flags chBase chCount beams beamBase log2T log2Np sh shP route buf _ =>
    some ⟨src, 0x0400, [(8, 2, pid.toNat), (10, 1, handle.toNat), (11, 1, flags.toNat), (12, 2, chBase.toNat), (14, 2,
      chCount.toNat), (16, 2, beams.toNat), (18, 1, beamBase.toNat), (19, 1, log2T.toNat), (20, 1, log2Np.toNat), (21, 1,
      sh.toNat), (22, 1, shP.toNat), (24, 4, route.toNat)] ++ bufWords buf⟩
  | .beamRelease src pid => some ⟨src, 0x0401, [(8, 2, pid.toNat)]⟩
  | .beamSuspend src pid => some ⟨src, 0x0402, [(8, 2, pid.toNat)]⟩
  | .beamResume src pid => some ⟨src, 0x0403, [(8, 2, pid.toNat)]⟩
  | .beamDelayLoad src pid first count buf _ =>
    some ⟨src, 0x0404, [(8, 2, pid.toNat), (10, 2, first.toNat), (12, 2, count.toNat)] ++ bufWords buf⟩
  | .beamDelaySwitch src time tRef => some ⟨src, 0x0405, [(8, 12, time.toNat), (20, 12, tRef.toNat)]⟩
  | .beamDelaySwap src pid beam buf _ => some ⟨src, 0x0406, [(8, 2, pid.toNat), (10, 2, beam.toNat)] ++ bufWords buf⟩
  | .beamDelayMode src mode => some ⟨src, 0x0407, [(8, 1, mode.toNat)]⟩
  | .beamSetGains src pid which area boundary =>
    some ⟨src, 0x0408, [(8, 2, pid.toNat), (10, 1, which.toNat), (16, 8, area.toNat), (24, 8, boundary.toNat)]⟩
  | .beamSetScale src pid first count sh shP =>
    some ⟨src, 0x0409, [(8, 2, pid.toNat), (10, 2, first.toNat), (12, 2, count.toNat), (14, 1, sh.toNat), (15, 1, shP.toNat)]⟩
  | .beamSetRoute src pid route mask => some ⟨src, 0x040A, [(8, 2, pid.toNat), (12, 4, route.toNat), (16, 32, mask.toNat)]⟩
  | .beamImportBind src pid first serial remote window =>
    some ⟨src, 0x040B, [(8, 2, pid.toNat), (10, 1, first.toNat), (12, 4, serial.toNat), (16, 2, remote.toNat), (18, 2,
      window.toNat)]⟩
  | .beamQuery src buf => some ⟨src, 0x040C, bufWords buf⟩
  | .zoomProtoLoad src m buf _ => some ⟨src, 0x0500, [(8, 1, m.toNat)] ++ bufWords buf⟩
  | .zoomProtoFree src handle => some ⟨src, 0x0501, [(8, 1, handle.toNat)]⟩
  | .zoomDefine src chain beam zoom event capture routeZ routeE routeC buf _ _ =>
    some ⟨src, 0x0502, [(8, 1, chain.toNat), (9, 1, beam.toNat), (10, 2, zoom.toNat), (12, 2, event.toNat), (14, 2,
      capture.toNat), (16, 4, routeZ.toNat), (20, 4, routeE.toNat), (24, 4, routeC.toNat)] ++ bufWords buf⟩
  | .zoomRelease src chain => some ⟨src, 0x0503, [(8, 1, chain.toNat)]⟩
  | .zoomSuspend src chain => some ⟨src, 0x0504, [(8, 1, chain.toNat)]⟩
  | .zoomResume src chain => some ⟨src, 0x0505, [(8, 1, chain.toNat)]⟩
  | .zoomFirLoad src chain bank len shift delay buf _ =>
    some ⟨src, 0x0506, [(8, 1, chain.toNat), (9, 1, bank.toNat), (10, 2, len.toNat), (12, 1, shift.toNat), (14, 2,
      delay.toNat)] ++ bufWords buf⟩
  | .zoomFirSwitch src chain byTime fade time =>
    some ⟨src, 0x0507, [(8, 1, chain.toNat), (9, 1, byTime.toNat), (10, 2, fade.toNat), (16, 12, time.toNat)]⟩
  | .zoomSetTune src chain block => some ⟨src, 0x0508, [(8, 1, chain.toNat), (16, 32, block.toNat)]⟩
  | .zoomSetAlign src chain block => some ⟨src, 0x0509, [(8, 1, chain.toNat), (16, 16, block.toNat)]⟩
  | .zoomSetDetect src chain block => some ⟨src, 0x050A, [(8, 1, chain.toNat), (16, 40, block.toNat)]⟩
  | .zoomRebaseline src chain kind value =>
    some ⟨src, 0x050B, [(8, 1, chain.toNat), (9, 1, kind.toNat), (16, 8, value.toNat)]⟩
  | .zoomCaptureNow src chain index => some ⟨src, 0x050C, [(8, 1, chain.toNat), (16, 8, index.toNat)]⟩
  | .zoomSetRoute src chain which route =>
    some ⟨src, 0x050D, [(8, 1, chain.toNat), (9, 1, which.toNat), (12, 4, route.toNat)]⟩
  | .zoomQuery src buf => some ⟨src, 0x050E, bufWords buf⟩
  | .glossLoad src core buf _ => some ⟨src, 0x0600, [(8, 1, core.toNat)] ++ bufWords buf⟩
  | .glossStart src core => some ⟨src, 0x0601, [(8, 1, core.toNat)]⟩
  | .glossStop src core => some ⟨src, 0x0602, [(8, 1, core.toNat)]⟩
  | .glossAttach src core log2In source derived inBase log2Feed log2Slot route rate seg0 seg1 seg2 seg3 feedBase slotBase =>
    some ⟨src, 0x0603, [(8, 1, core.toNat), (9, 1, log2In.toNat), (10, 2, source.toNat), (12, 2, derived.toNat), (14, 2,
      inBase.toNat), (16, 1, log2Feed.toNat), (17, 1, log2Slot.toNat), (20, 4, route.toNat), (24, 8, rate.toNat), (32, 4,
      seg0.toNat), (36, 4, seg1.toNat), (40, 4, seg2.toNat), (44, 4, seg3.toNat), (48, 8, feedBase.toNat), (56, 8,
      slotBase.toNat)]⟩
  | .glossDetach src core => some ⟨src, 0x0604, [(8, 1, core.toNat)]⟩
  | .glossSetRoute src core route => some ⟨src, 0x0605, [(8, 1, core.toNat), (12, 4, route.toNat)]⟩
  | .glossMemRead src core space first count buf =>
    some ⟨src, 0x0606, [(8, 1, core.toNat), (9, 1, space.toNat), (10, 2, first.toNat), (12, 2, count.toNat)] ++ bufWords buf⟩
  | .glossMemWrite src core space first count buf _ =>
    some ⟨src, 0x0607, [(8, 1, core.toNat), (9, 1, space.toNat), (10, 2, first.toNat), (12, 2, count.toNat)] ++ bufWords buf⟩
  | .glossQuery src buf => some ⟨src, 0x0608, bufWords buf⟩
  | .timePortSet src port flags domain ip mac =>
    some ⟨src, 0x0700, [(8, 1, port.toNat), (9, 1, flags.toNat), (10, 1, domain.toNat), (12, 4, ip.toNat), (16, 6,
      mac.toNat)]⟩
  | .timeServoSet src threshold code flags =>
    some ⟨src, 0x0701, [(8, 4, threshold.toNat), (12, 1, code.toNat), (13, 1, flags.toNat)]⟩
  | .timeAcceptStep src id => some ⟨src, 0x0702, [(8, 4, id.toNat)]⟩
  | .timeSet src time => some ⟨src, 0x0703, [(8, 12, time.toNat)]⟩
  | .timeOutSet src pin mode width start period =>
    some ⟨src, 0x0704, [(8, 1, pin.toNat), (9, 1, mode.toNat), (12, 4, width.toNat), (16, 12, start.toNat), (32, 8,
      period.toNat)]⟩
  | .timeInSet src pin edges enable => some ⟨src, 0x0705, [(8, 1, pin.toNat), (9, 1, edges.toNat), (10, 1, enable.toNat)]⟩
  | .timeQuery src buf => some ⟨src, 0x0706, bufWords buf⟩
  | .clockRefSet src ref rank nominal accept warn reject disqMs requalMs =>
    some ⟨src, 0x0800, [(8, 1, ref.toNat), (9, 1, rank.toNat), (12, 4, nominal.toNat), (16, 4, accept.toNat), (20, 4,
      warn.toNat), (24, 4, reject.toNat), (28, 4, disqMs.toNat), (32, 4, requalMs.toNat)]⟩
  | .clockSelect src manual ref => some ⟨src, 0x0801, [(8, 1, manual.toNat), (9, 1, ref.toNat)]⟩
  | .clockDpllSet src code slope disagree =>
    some ⟨src, 0x0802, [(8, 1, code.toNat), (12, 4, slope.toNat), (16, 4, disagree.toNat)]⟩
  | .clockQuery src buf => some ⟨src, 0x0803, bufWords buf⟩
  | .trimRun src kinds which => some ⟨src, 0x0900, [(8, 1, kinds.toNat), (10, 2, which.toNat)]⟩
  | .trimSetTrigger src kinds step => some ⟨src, 0x0901, [(8, 1, kinds.toNat), (12, 4, step.toNat)]⟩
  | .trimSave src buf => some ⟨src, 0x0902, bufWords buf⟩
  | .trimRestore src buf _ => some ⟨src, 0x0903, bufWords buf⟩
  | .worldRegionSet src desc flags map base size =>
    some ⟨src, 0x0A00, [(8, 1, desc.toNat), (9, 1, flags.toNat), (10, 1, map.toNat), (16, 8, base.toNat), (24, 8,
      size.toNat)]⟩
  | .worldAssign src kind first count world =>
    some ⟨src, 0x0A01, [(8, 1, kind.toNat), (10, 2, first.toNat), (12, 2, count.toNat), (14, 1, world.toNat)]⟩
  | .worldQuotaSet src item value => some ⟨src, 0x0A02, [(8, 1, item.toNat), (16, 8, value.toNat)]⟩
  | .worldQuery src buf => some ⟨src, 0x0A03, bufWords buf⟩
  | .pairConfigure src enable partner => some ⟨src, 0x0B00, [(8, 1, enable.toNat), (12, 4, partner.toNat)]⟩
  | .pairSwap src time => some ⟨src, 0x0B01, [(8, 12, time.toNat)]⟩
  | .pairResync src => some ⟨src, 0x0B02, []⟩
  | .pairQuery src buf => some ⟨src, 0x0B03, bufWords buf⟩
  | .updateActivate src slot time => some ⟨src, 0x0C00, [(8, 1, slot.toNat), (16, 12, time.toNat)]⟩
  | .updateConfirm src slot => some ⟨src, 0x0C01, [(8, 1, slot.toNat)]⟩
  | .updateQuery src buf => some ⟨src, 0x0C02, bufWords buf⟩
  | .powerHbmRate src rate => some ⟨src, 0x0D00, [(8, 2, rate.toNat)]⟩
  | .powerHbmRetrain src => some ⟨src, 0x0D01, []⟩
  | .powerHbmState src state mask => some ⟨src, 0x0D02, [(8, 1, state.toNat), (9, 1, mask.toNat)]⟩
  | .powerDomain src domain off limit => some ⟨src, 0x0D03, [(8, 1, domain.toNat), (9, 1, off.toNat), (12, 4, limit.toNat)]⟩
  | .diagErrorLog src buf => some ⟨src, 0x0E00, bufWords buf⟩
  | .diagLoopback src first dir mode => some ⟨src, 0x0E01, [(8, 1, first.toNat), (10, 1, dir.toNat), (11, 1, mode.toNat)]⟩
  | _ => none

/-- Byte `i` of a parameter list: 0 where no parameter lies (11 R367). -/
def wordByte (words : List (Nat × Nat × Nat)) (i : Nat) : Byte :=
  match words.find? fun w => w.1 ≤ i && i < w.1 + w.2.1 with
  | some w => BitVec.ofNat 8 (w.2.2 / 2 ^ (8 * (i - w.1)))
  | none => 0

/-- The 64 bytes of a Clause: opcode, world, sequence number and parameters, every other byte 0 (11 R344, R345). -/
def clauseBytes (c : Clause) : List Byte :=
  leBytes 2 c.opcode ++ leBytes 1 (fnNum c.src.fn) ++ leBytes 1 0 ++ leBytes 4 c.src.seq.toNat ++
    (List.range 56).map fun i => wordByte c.words (i + 8)

/-- The first byte of a Clause with a bit set outside its fields (11 R345 check 4). -/
def rsvdByte (fields : List FieldRun) (bytes : List Byte) : Option Nat :=
  (List.range 64).find? fun i => (bytes.getD i 0).toNat &&& (255 ^^^ byteMask fields i) != 0

/-- The first byte of a command's Clause with a bit set outside the fields of its opcode (11 R345 check 4). -/
def rsvdOf (c : Clause) : Option Nat :=
  let bytes := clauseBytes c
  match clauseFields c.opcode (field bytes 9 1) with
  | some fields => rsvdByte fields bytes
  | none => none

end Sys2Proof.Machine
end

