-- ==== Sys2Proof/Machine/Err.lean ====
section
/-! DEFINITION. Interrupt messages and ATTN_N (11 R339, R363, R365, R562), error records, logs and incidents (17). -/

namespace Sys2Proof.Machine

/-! ### Messages and ATTN_N -/

/-- A message of vector `v` falls due: sent, or left pending while the function cannot send or the vector is masked (11
R339, R363). -/
def sendVector (s : State) (f : Fn) (v : Nat) : State :=
  let m := s.vec f v
  if s.reach f && !m.mask then s.emit (.msix f v) else s.setVec f v { m with pending := true }

/-- Each vector whose pending bit is set and whose mask is clear sends one message and clears its bit (11 R339). -/
def sendPending (s : State) (f : Fn) : State :=
  if s.reach f then
    (List.range 64).foldl (fun t v =>
      let m := t.vec f v
      if m.pending && !m.mask then (t.setVec f v { m with pending := false }).emit (.msix f v) else t) s
  else s

/-- ATTN_N is low while a bit of ATTN_CAUSE is set whose ATTN_MASK bit is 1 (11 R365). -/
def attnLow (s : State) : Bool := s.link.attnCause &&& s.link.attnMask != 0

/-- The link registers changed from those of `s0`: the pin follows. -/
def attnFollow (s0 s : State) : State :=
  if attnLow s0 = attnLow s then s else s.emit (.pin "ATTN_N" (!attnLow s))

/-- Raise a cause of ATTN_CAUSE: the bit sets, and F0's ATTN vector sends a message when it was clear (11 R365, R562). -/
def raiseAttn (s : State) (bit : Nat) : State :=
  if s.link.attnCause.getLsbD bit then s
  else
    let s1 := { s with link := { s.link with attnCause := s.link.attnCause ||| (BitVec.ofNat 11 (2 ^ bit)) } }
    sendVector (attnFollow s s1) .f0 1

/-! ### Error records and logs (17 R474, R481, R482) -/

/-- The code of a class (17 R472). -/
def clsCode : Cls → Nat
  | .c => 0
  | .t => 1
  | .l => 2
  | .f => 3

/-- The code of a record kind (17 R474). -/
def kindCode : EKind → Nat
  | .event => 0
  | .opened => 1
  | .escalate => 2
  | .closed => 3

/-- Byte 4 of an error record (17 R474). -/
def errByte4 (e : ErrRec) : Nat :=
  clsCode e.cls + 4 * kindCode e.kind + 16 * b2n e.persistent + 32 * worldBit e.world + 64 * b2n e.device +
    128 * b2n e.more

/-- The 32 bytes of an error record (17 R474). -/
def errBytes (x : LogEntry) : List Byte :=
  leBytes 2 x.err.cause.toNat ++ leBytes 2 x.err.incident.toNat ++ leBytes 1 (errByte4 x.err) ++ zeros 3 ++
    leBytes 4 x.index.toNat ++ leBytes 12 x.time.toNat ++ leBytes 4 x.err.resource.toNat ++ leBytes 4 x.err.detail.toNat

/-- Entries free in a log of 1,024 (17 R481). -/
def logFree (l : ErrLog) : Nat := 1024 - (l.tail - l.head).toNat

/-- The entry written at the log's tail. -/
def logAppend (l : ErrLog) (time : U96) (e : ErrRec) : ErrLog :=
  { l with entries := tabSet (l.tail.toNat % 1024) { index := l.nextIndex, time := time, err := e } l.entries,
           tail := l.tail + 1, nextIndex := l.nextIndex + 1 }

/-- An ordinary record reaches a log: written while at least two entries are free, else counted lost with its index
consumed (17 R482). The flag says whether it was written. -/
def logOffer (l : ErrLog) (time : U96) (e : ErrRec) : ErrLog × Bool :=
  if logFree l < 2 then
    ({ l with nextIndex := l.nextIndex + 1, lost := l.lost + 1, lostSince := l.lostSince + 1 }, false)
  else (logAppend l time e, true)

/-- The LOG_LOST record of a log (17 R476, R482). -/
def logLostRec (l : ErrLog) (w : World) : ErrRec :=
  { cause := 0x0E07, incident := 0xFFFF, cls := .c, kind := .event, persistent := false, world := w, device := true,
    more := false, resource := 0, detail := l.lostSince }

def State.log (s : State) : Fn → ErrLog
  | .f0 => s.err.log0
  | .f1 => s.err.log1

def State.setLog (s : State) (f : Fn) (l : ErrLog) : State :=
  match f with
  | .f0 => { s with err := { s.err with log0 := l } }
  | .f1 => { s with err := { s.err with log1 := l } }

/-- A record offered to one function's log, with its vector or the overflow (17 R481, R482). -/
def logTo (s : State) (f : Fn) (e : ErrRec) : State :=
  let r := logOffer (s.log f) (timeField s.now) e
  let s1 := s.setLog f r.1
  if r.2 then sendVector s1 f 0 else raiseAttn s1 7

/-- When two entries are free again the log first writes a LOG_LOST record (17 R482). -/
def logRecover (s : State) (f : Fn) : State :=
  let l := s.log f
  if l.lostSince = 0 || logFree l < 2 then s
  else
    let l1 := logAppend l (timeField s.now) (logLostRec l (worldOf f))
    sendVector (s.setLog f { l1 with lostSince := 0 }) f 0

/-- A record goes to F1's log only when its world bit is non-secure or DEVICE is set; the OPEN record of a class F fault
goes to both (17 R481, R486). -/
def inLog1 (e : ErrRec) : Bool := e.world == .nonsecure || e.device || e.cls == .f

/-- The log unit takes a record (17 R481). -/
def logRecord (s : State) (e : ErrRec) : State :=
  let s1 := logTo s .f0 e
  if inLog1 e then logTo s1 .f1 e else s1

/-- A record of kind EVENT. -/
def eventRec (cause : U16) (cls : Cls) (w : World) (device : Bool) (res det : Nat) : ErrRec :=
  { cause := cause, incident := 0xFFFF, cls := cls, kind := .event, persistent := false, world := w, device := device,
    more := false, resource := BitVec.ofNat 32 res, detail := BitVec.ofNat 32 det }

/-- Raise a single record of kind EVENT for a resource of a world (17 R477). -/
def raise (s : State) (cause : U16) (cls : Cls) (w : World) (res det : Nat) : State :=
  logRecord s (eventRec cause cls w false res det)

/-- Raise a single record of kind EVENT for a resource that belongs to no world. -/
def raiseDev (s : State) (cause : U16) (cls : Cls) (res det : Nat) : State :=
  logRecord s (eventRec cause cls .secure true res det)

/-- The resource field of a queue pair (17 R475). -/
def qpRes (f : Fn) (qp : Nat) : Nat := fnNum f * 256 + qp

/-- The resource field of a register (17 R475). -/
def regRes (f : Fn) (off : Nat) : Nat := off % 2 ^ 25 + fnNum f * 2 ^ 31

/-- The resource field of a Relief instance (17 R475). -/
def tileRes (t : Tile) : Nat := t.pid + t.chan * 4096 + t.u * 2 ^ 22 + t.v * 2 ^ 26

/-- The world of a product, secure when it is not defined. -/
def State.worldOfProduct (s : State) (pid : Nat) : World :=
  match s.product pid with
  | some p => p.world
  | none => .secure

/-! ### Incidents (17 R477 to R480) -/

/-- The next incident ID, skipping 0xFFFF (17 R478). -/
def nextId (n : U16) : U16 := if n + 1 = 0xFFFF then 0 else n + 1

/-- Incidents that count in ERR_STATUS.OPEN (17 R478, R494). -/
def countedIncidents (s : State) : List Incident := s.err.incidents.filter Incident.counted

/-- An error hits the resource of an open incident: the same block byte and resource, and for Relief instances the same
detail (17 R475). -/
def sameResource (i : Incident) (cause : U16) (res det : Nat) : Bool :=
  (i.cause >>> 8 == cause >>> 8) && (i.resource == BitVec.ofNat 32 res) &&
    (i.cause >>> 8 != 3 || i.detail == BitVec.ofNat 32 det)

/-- The open incident on a resource, if any. -/
def findIncident (s : State) (cause : U16) (res det : Nat) : Option Incident :=
  s.err.incidents.find? fun i => sameResource i cause res det

/-- Record of an incident. -/
def incRec (i : Incident) (kind : EKind) (cause : U16) (cls : Cls) (persistent : Bool) (det : U32) : ErrRec :=
  { cause := cause, incident := i.id, cls := cls, kind := kind, persistent := persistent, world := i.world,
    device := i.device, more := false, resource := i.resource, detail := det }

/-- Open an incident that takes the next ID and writes its OPEN record (17 R478). -/
def openIncident (s : State) (cause : U16) (cls : Cls) (w : World) (device : Bool) (res det : Nat) (counted : Bool) :
    State × U16 :=
  let i : Incident := { id := s.err.nextIncident, cls := cls, cause := cause, world := w, device := device,
                        resource := BitVec.ofNat 32 res, detail := BitVec.ofNat 32 det, counted := counted }
  let s1 := { s with err := { s.err with nextIncident := nextId s.err.nextIncident,
                                         incidents := s.err.incidents ++ [i] } }
  (logRecord s1 (incRec i .opened cause cls false i.detail), i.id)

/-- An incident that counts opens only while fewer than 16 are open; otherwise the error is written as an EVENT record of
class L and contained at once (17 R478). -/
def tryIncident (s : State) (cause : U16) (cls : Cls) (w : World) (device : Bool) (res det : Nat) : State × Option U16 :=
  if (countedIncidents s).length < 16 then
    let r := openIncident s cause cls w device res det true
    (r.1, some r.2)
  else (logRecord s (eventRec cause .l w device res det), none)

def setIncident (s : State) (i : Incident) : State :=
  { s with err := { s.err with incidents := s.err.incidents.map fun x => if x.id = i.id then i else x } }

/-- Escalate an open incident to class L, writing an ESCALATE record; an incident already of class L or F writes nothing
further (17 R479). -/
def escalate (s : State) (id : U16) (cause : U16) (persistent : Bool) : State :=
  match s.err.incidents.find? fun i => i.id == id with
  | none => s
  | some i =>
    if i.cls = .l || i.cls = .f then s
    else logRecord (setIncident s { i with cls := .l }) (incRec i .escalate cause .l persistent i.detail)

/-- Close an incident with its final class and outcome cause (17 R480). A class F incident never closes, and incidents
open at a class F fault stay open. -/
def closeIncident (s : State) (id : U16) (cause : U16) (cls : Cls) (det : U32) : State :=
  if s.err.fault then s
  else
    match s.err.incidents.find? fun i => i.id == id with
    | none => s
    | some i =>
      let s1 := { s with err := { s.err with incidents := s.err.incidents.filter fun x => x.id != id } }
      logRecord s1 (incRec i .closed cause cls false det)

/-! ### Class F (17 R486) -/

/-- Drive FAULT_N. -/
def setFaultN (s : State) (high : Bool) : State :=
  if s.err.faultN = high then s
  else ({ s with err := { s.err with faultN := high } }).emit (.pin "FAULT_N" high)

/-- A DMA transfer is to end with DEVICE_FAULT at its next burst boundary; one that is loaded ends at once (17 R486). -/
def faultChannel (c : Channel) : Channel :=
  { c with act := c.act.map fun a =>
      if a.ended then a else { a with endAs := some 0x0500, ended := !a.running } }

/-- The steps of a class F fault after its record: FAULT_N asserted, ATTN_CAUSE.FAULT and ERR_STATUS.FAULT set, LAST_FAULT
written, the role FAULTED, transfers ending with DEVICE_FAULT (17 R486, 18 R502). -/
def faultSteps (s : State) (cause id : U16) : State :=
  let s1 := { s with err := { s.err with fault := true, lastFaultCause := cause, lastFaultId := id },
                     pair := { s.pair with role := .faulted },
                     dma := { s.dma with channels := s.dma.channels.map faultChannel } }
  raiseAttn (setFaultN s1 false) 0

/-- A class F fault on a resource with no open incident of its own opens one; on the resource of an open incident it
escalates that one to class F, which keeps its entry (17 R478, R479, R486). -/
def classF (s : State) (cause : U16) (w : World) (device : Bool) (res det : Nat) : State :=
  match findIncident s cause res det with
  | some i =>
    let s1 := logRecord (setIncident s { i with cls := .f }) (incRec i .escalate cause .f false i.detail)
    faultSteps s1 cause i.id
  | none =>
    let r := openIncident s cause .f w device res det false
    faultSteps r.1 cause r.2

/-- The data path is gated: after a class F fault, on a cold standby, or in reset (17 R486, 18 R505, 20 R554). -/
def gated (s : State) : Bool := s.err.fault || s.pair.role == .standby || s.pair.stillGated || s.power.inReset

end Sys2Proof.Machine
end

