-- ==== Sys2Proof/Machine/Rings.lean ====
section
/-! DEFINITION. Delivery rings and feed buffers: writing, declining and GAP records (11 R358 to R364, 09 R292). -/

namespace Sys2Proof.Machine

/-! ### Record bytes (05 R160, R167) -/

/-- The 64-byte record header with its CRC field as given (05 R160). `routing` is byte 6 without its world bit. -/
def headerBytes (rtype flags pid : Nat) (w : World) (routing stream seq time start span len aux : Nat) (crc : U32) :
    List Byte :=
  leBytes 1 rtype ++ leBytes 1 1 ++ leBytes 2 flags ++ leBytes 2 pid ++ leBytes 1 (worldBit w + routing) ++
    leBytes 1 stream ++ leBytes 8 seq ++ leBytes 12 (timeField time).toNat ++ zeros 4 ++ leBytes 8 start ++
    leBytes 4 span ++ leBytes 4 len ++ leBytes 8 aux ++ leBytes 4 crc.toNat ++ zeros 4

/-- A whole record: the CRC-32C runs over the header, with bytes 56 to 63 taken as zero, and the payload (05 R160). -/
def recordBytes (rtype flags pid : Nat) (w : World) (routing stream seq time start span aux : Nat) (payload : List Byte) :
    List Byte :=
  let n := payload.length
  let bare := headerBytes rtype flags pid w routing stream seq time start span n aux 0
  headerBytes rtype flags pid w routing stream seq time start span n aux (crc32c (bare ++ payload)) ++ payload

/-- Flag bits of a record (05 R162). -/
def flagVerified : Nat := 1
def flagPartial : Nat := 2
def flagTakeover : Nat := 4
def flagStale : Nat := 8
def flagSaturated : Nat := 16
def flagFlagged : Nat := 32
def flagGap : Nat := 64
def flagUnprotected : Nat := 128
def flagSuspended : Nat := 256

/-- The 32-byte payload of a GAP record (05 R167): causes 1 SUSPENDED, 2 DESTINATION_FULL, 3 POISON. -/
def gapPayload (first count cause rtype : Nat) : List Byte :=
  leBytes 8 first ++ leBytes 8 count ++ leBytes 2 cause ++ leBytes 2 rtype ++ zeros 12

/-- A GAP record's flags (05 R167). -/
def gapFlags (cause : Nat) : Nat := flagGap + (if cause = 1 then flagSuspended else 0)

/-! ### Delivery rings -/

/-- The size of a ring in bytes (11 R358). -/
def ringSize (r : Ring) : Nat := 2 ^ r.k

/-- Free bytes of a ring (11 R360). -/
def ringFree (r : Ring) : Nat := ringSize r - (r.tail - r.head)

/-- The host writes of `bytes` at running count `tail`, in one piece or in two across the end of the ring (11 R359). -/
def ringWrites (s : State) (f : Fn) (r : Ring) (bytes : List Byte) : State :=
  let pos := r.tail % ringSize r
  let room := ringSize r - pos
  if bytes.length ≤ room then s.emit (.hostWrite f (r.base.toNat + pos) bytes)
  else (s.emit (.hostWrite f (r.base.toNat + pos) (bytes.take room))).emit (.hostWrite f r.base.toNat (bytes.drop room))

/-- A whole record written at the tail, then the tail write-back, then the ring's message when it is due (11 R359, R364). -/
def ringAppend (s : State) (f : Fn) (n : Nat) (bytes : List Byte) : State :=
  let r := s.ring f n
  let s1 := ringWrites s f r bytes
  let tail := r.tail + bytes.length
  let s2 := s1.emit (.hostWrite f r.wbAddr.toNat (leBytes 8 tail))
  let since := r.since + 1
  if since ≥ r.coalesce || r.timeUs = 0 then
    sendVector (s2.setRing f n { r with tail := tail, since := 0, sinceTime := none }) f r.vector
  else
    let t0 := match r.sinceTime with
      | some t => some t
      | none => some s.now
    s2.setRing f n { r with tail := tail, since := since, sinceTime := t0 }

/-- The list of pending declines with one more record of a product (11 R361). -/
def addDecline (l : List Decline) (o : Offer) (w : World) : List Decline :=
  if l.any fun d => d.pid == o.pid then
    l.map fun d => if d.pid = o.pid then { d with last := o.seq, count := d.count + 1 } else d
  else l ++ [{ pid := o.pid, world := w, first := o.seq, last := o.seq, count := 1, start := o.start, time := o.time,
               rtype := o.rtype }]

/-- The 96-byte GAP record that tells of declines (11 R361). `routing` names the destination. -/
def declineGap (d : Decline) (routing : Nat) : List Byte :=
  recordBytes 0x0E (gapFlags 2) d.pid d.world routing 0 d.last d.time d.start 0 0 (gapPayload d.first d.count 2 d.rtype)

/-- A ring may be written: it is ACTIVE and its function reaches the host (11 R339, R360). -/
def ringOpen (s : State) (f : Fn) (n : Nat) : Bool := s.reach f && (s.ring f n).state == .active

/-- The GAP record of one product with declines pending is written, when 96 bytes are free (11 R361). -/
def ringGap (s : State) (f : Fn) (n : Nat) (pid : Nat) : State :=
  let r := s.ring f n
  match r.declines.find? fun d => d.pid == pid with
  | none => s
  | some d =>
    if ringOpen s f n && !s.err.fault && ringFree r ≥ 96 then
      ringAppend (s.setRing f n { r with declines := r.declines.filter fun x => x.pid != pid }) f n (declineGap d 2)
    else s

/-- One GAP record for each product with declines pending, while 96 bytes are free (11 R361). -/
def ringGaps (s : State) (f : Fn) (n : Nat) : State :=
  ((s.ring f n).declines.map Decline.pid).foldl (fun t pid => ringGap t f n pid) s

/-- The ring declines a record (11 R360). -/
def ringDecline (s : State) (f : Fn) (n : Nat) (o : Offer) : State :=
  let r := s.ring f n
  s.setRing f n { r with declined := r.declined + 1, declining := true,
                         declines := addDecline r.declines o (s.worldOfProduct o.pid) }

/-- A record reaches a ring: its product's pending GAP record first, then it is accepted or declined (11 R360, R361). -/
def ringTake (s : State) (f : Fn) (n : Nat) (o : Offer) : State :=
  let s1 := ringGap s f n o.pid
  let r := s1.ring f n
  let blocked := r.declines.any fun d => d.pid == o.pid
  if ringOpen s1 f n && !blocked && ringFree r ≥ o.bytes.length + 96 then
    ringAppend (s1.setRing f n { r with declining := false }) f n o.bytes
  else ringDecline s1 f n o

/-! ### Feed buffers (09 R292) -/

/-- Free bytes of a feed buffer. -/
def feedFree (a : Attach) : Nat := 2 ^ a.feedLog2 - (a.tail - a.head)

/-- The bytes of a buffer of `size` bytes at `base`, written from running count `pos` on, across its end. -/
def putWrapped (s : State) (base size pos : Nat) (bytes : List Byte) : State :=
  let off := pos % size
  (s.store (base + off) (bytes.take (size - off))).store base (bytes.drop (size - off))

/-- The `n` bytes of a buffer from running count `pos` on, across its end. -/
def getWrapped (m : List Host.Cell) (base size pos n : Nat) : List Byte :=
  let off := pos % size
  let head := min n (size - off)
  memGetBytes m (base + off) head ++ memGetBytes m base (n - head)

/-- A record written into a core's feed buffer. -/
def feedAppend (s : State) (core : Nat) (a : Attach) (seq rtype start time : Nat) (bytes : List Byte) : State :=
  let c := s.core core
  let s1 := putWrapped s a.feedBase (2 ^ a.feedLog2) a.tail bytes
  s1.setCore core { c with attach := some { a with tail := a.tail + bytes.length,
                                                   recs := a.recs ++ [{ pos := a.tail, len := bytes.length, seq := seq,
                                                                        rtype := rtype, start := start, time := time }] } }

/-- The GAP record of the source's pending declines, when 96 bytes are free (09 R292, 11 R361). -/
def feedGap (s : State) (core : Nat) : State :=
  match (s.core core).attach with
  | none => s
  | some a =>
    match a.declines with
    | [] => s
    | d :: rest =>
      if feedFree a ≥ 96 then feedAppend s core { a with declines := rest } d.last 0x0E d.start d.time (declineGap d 0)
      else s

/-- A record reaches a feed buffer: accepted or declined exactly as at a ring (09 R292). -/
def feedTake (s : State) (core : Nat) (o : Offer) : State :=
  let s1 := feedGap s core
  match (s1.core core).attach with
  | none => s1
  | some a =>
    if a.declines = [] ∧ feedFree a ≥ o.bytes.length + 96 then
      feedAppend s1 core { a with declining := false } o.seq o.rtype o.start o.time o.bytes
    else
      let c := s1.core core
      s1.setCore core { c with feedDeclined := c.feedDeclined + 1,
                               attach := some { a with declining := true,
                                                       declines := addDecline a.declines o (s1.worldOfProduct o.pid) } }

/-! ### Offers -/

/-- The waiting record that a destination takes next: the first one offered to it. -/
def nextOffer (s : State) (d : Dest) : Option (Offer × List Offer) := takeFirst (fun o => o.dest == d) s.offers

/-- The first record at a destination that has waited 2 ms since it was offered there (11 R360). -/
def expiredOffer (s : State) (d : Dest) : Option (Offer × List Offer) :=
  takeFirst (fun o => o.dest == d && o.since.any fun t => decide (t + 2000 * micros ≤ s.now)) s.offers

/-- After a record has left a destination, the next one of its product is offered there from now on (11 R360). -/
def startNext (l : List Offer) (d : Dest) (pid now : Nat) : List Offer :=
  match takeFirst (fun o => o.dest == d && o.pid == pid) l with
  | none => l
  | some _ =>
    let rec go : List Offer → List Offer
      | [] => []
      | o :: t => if o.dest = d ∧ o.pid = pid then { o with since := some (o.since.getD now) } :: t else o :: go t
    go l

/-- A record waits for a destination. -/
def pushOffer (s : State) (o : Offer) : State :=
  let waits := s.offers.any fun x => x.dest == o.dest && x.pid == o.pid
  { s with offers := s.offers ++ [{ o with since := if waits then none else some s.now }] }

/-- The next record at a destination is taken or declined there (11 R360). No record begins after a class F fault (17 R486). -/
def takeOffer (s : State) (d : Dest) : State :=
  if s.err.fault then s
  else
    match nextOffer s d with
    | none => s
    | some (o, rest) =>
      let s1 := { s with offers := startNext rest d o.pid s.now }
      match d with
      | .ring f n => ringTake s1 f n.val o
      | .feed c => feedTake s1 c.val o

end Sys2Proof.Machine
end

