-- ==== Sys2Proof/Machine/Records.lean ====
section
/-! DEFINITION. Emitting records: routing, sequence numbers, reservations, ERROR and GAP records, egress frames (05 R160 to
R172, 02 R50, 17 R484, 18 R508, R513). -/

namespace Sys2Proof.Machine

/-! ### Route words (11 R367) -/

def routeRing (r : U32) : Nat := bits r.toNat 0 6
def routeHasRing (r : U32) : Bool := bitOf r.toNat 6
def routeHasEgress (r : U32) : Bool := bitOf r.toNat 7
def routeEgress (r : U32) : Nat := bits r.toNat 8 8
def routeTap (r : U32) : Bool := bitOf r.toNat 16

/-- The routing entry under which a sequence number is sent (05 R170). -/
def routeOf (p : Product) (seq : Nat) : U32 :=
  match p.routeChange with
  | some c => if seq ≥ c.fromSeq then c.route else p.route
  | none => p.route

/-- The routing entries that name destinations for records to come: a replaced one names none once every number below the
first under the new one has been given out (05 R170). -/
def routesNamed (p : Product) : List U32 :=
  match p.routeChange with
  | some c => if p.seq ≥ c.fromSeq then [c.route] else [p.route, c.route]
  | none => [p.route]

/-- The core a product feeds, if any (09 R292): one of the product's own world (09 R273). -/
def coreFed (s : State) (pid : Nat) : Option Nat :=
  (List.range 32).find? fun i => ((s.core i).attach.bind Attach.source) == some pid &&
    vget s.world.cores i .secure == s.worldOfProduct pid

/-- Where the records of a product go under a route word: rings and feed buffers, and an egress stream. A product that
feeds a core keeps its own destinations only with TAP (05 R169). -/
def destsOf (s : State) (p : Product) (route : U32) : List Dest × Option Nat :=
  let fed := coreFed s p.pid
  let own := fed.isNone || routeTap route
  let rings := if own && routeHasRing route then [Dest.ring p.fn (Fin.ofNat 64 (routeRing route))] else []
  let feeds := match fed with
    | some c => [Dest.feed (Fin.ofNat 32 c)]
    | none => []
  (rings ++ feeds, if own && routeHasEgress route then some (routeEgress route) else none)

/-- Byte 6 of a header without its world bit: RING and EGRESS (05 R160). -/
def routingByte (route : U32) : Nat := 2 * b2n (routeHasRing route) + 4 * b2n (routeHasEgress route)

/-- Byte 7 of a header (05 R160). -/
def streamByte (route : U32) : Nat := if routeHasEgress route then routeEgress route else 0

/-! ### Egress frames (02 R50) -/

/-- Frames of at most 3,072 bytes made of an egress stream's bytes. `rec` is the record the bytes belong to; the header of
the record begins at the first byte of `bytes`. -/
def newFrames (ready group egress : Nat) (rec : Nat × Nat) : Nat → Bool → Nat → Nat → List Byte → List ReadyFrame
  | 0, _, _, _, _ => []
  | fuel + 1, starts, seq, pos, bytes =>
    match bytes with
    | [] => []
    | _ =>
      let part := bytes.take 3072
      { ready := ready, group := group, egress := egress, seq := seq, pos := pos, firstRec := if starts then some 0 else none,
        recs := [rec], bytes := part } ::
        newFrames ready group egress rec fuel false (seq + 1) (pos + part.length) (bytes.drop 3072)

/-- Add bytes to the last unsent frame of an egress stream on its group where it has room; gives the frames and the bytes left. -/
def topUp (group egress : Nat) (rec : Nat × Nat) (bytes : List Byte) : List ReadyFrame → Option (List ReadyFrame × List Byte)
  | [] => none
  | f :: t =>
    match topUp group egress rec bytes t with
    | some (t', b) => some (f :: t', b)
    | none =>
      if f.egress = egress ∧ f.group = group then
        let room := 3072 - f.bytes.length
        if room = 0 then some (f :: t, bytes)
        else
          some ({ f with bytes := f.bytes ++ bytes.take room, recs := f.recs ++ [rec],
                         firstRec := some (f.firstRec.getD f.bytes.length) } :: t, bytes.drop room)
      else none

/-- A record handed to its egress stream: back to back with the bytes before it (02 R50). -/
def egressAppend (s : State) (eg : Nat) (pid seq : Nat) (bytes : List Byte) : State :=
  let e := vget s.osl.egress eg Reset.egress
  match e.group with
  | none => s
  | some g =>
    let r := (topUp g eg (pid, seq) bytes s.osl.frames).getD (s.osl.frames, bytes)
    let fr := newFrames s.fclk g eg (pid, seq) (r.2.length / 3072 + 1) (r.2.length == bytes.length) e.seq
      (e.pos + (bytes.length - r.2.length)) r.2
    { s with osl := { s.osl with
        frames := r.1 ++ fr,
        egress := vset s.osl.egress eg { e with pos := e.pos + bytes.length, seq := e.seq + fr.length } } }

/-! ### Mirror messages (18 R501) -/

/-- Send a mirror message: it takes the next number, joins the unacknowledged ones and the bytes to send. Its length is in
8-byte units with the header. -/
def sendMsg (s : State) (type : Nat) (payload : List Byte) : State × Nat :=
  let body := payload ++ zeros (roundUp payload.length 8 - payload.length)
  let n := s.pair.nextMsg
  let bytes := leBytes 2 type ++ leBytes 2 ((body.length + 8) / 8) ++ leBytes 4 n ++ body
  ({ s with pair := { s.pair with nextMsg := (n + 1) % 2 ^ 32,
                                  out := s.pair.out ++ [{ number := n, type := type, payload := body }],
                                  txBytes := s.pair.txBytes ++ bytes } }, n)

/-- The unit is active and its standby holds every reservation it uses (18 R502, R508). -/
def reserving (s : State) : Bool := s.pair.role == .active && s.pair.guarded

/-- The least power of two that is at least `n`. -/
def pow2Up (n : Nat) : Nat := if n ≤ 1 then 1 else 2 ^ (Nat.log2 (n - 1) + 1)

/-- The block size m_p (18 R508): the larger of 64 and the product's record rate over 1 ms, up to a power of two. -/
def blockSize (p : Product) : Nat := pow2Up (max 64 (p.demand.records / 1000).ceil.toNat)

/-- The payload of a RESERVE message: product, S_p and E_p (18 R501; the field layout is the model's, log 27). -/
def reservePayload (pid spNext ep : Nat) : List Byte := leBytes 8 pid ++ leBytes 8 (spNext - 1) ++ leBytes 8 ep

/-- A RESERVE message of a product with a reservation up to `spNext - 1`. -/
def sendReserve (s : State) (p : Product) (spNext : Nat) : State :=
  let r := sendMsg s 2 (reservePayload p.pid spNext p.ep)
  r.1.setProduct p.pid { p with spSent := some (spNext, r.2), epTold := p.ep, epTime := s.now }

/-- When the next number comes within m_p / 2 of S_p, a RESERVE raises S_p to the next number + m_p - 1 (18 R508). -/
def reserveAhead (s : State) (pid : Nat) : State :=
  match s.product pid with
  | none => s
  | some p =>
    if reserving s && p.spSent.isNone && p.seq + blockSize p / 2 + 1 ≥ p.spNext then
      sendReserve s p (p.seq + blockSize p)
    else s

/-! ### Emission -/

/-- A record to emit: everything but its number, CRC and routing. -/
structure RecOut where
  rtype : Nat
  flags : Nat
  start : Nat
  span : Nat
  time : Nat
  aux : Nat
  payload : List Byte
  deriving DecidableEq, Repr

/-- UNPROTECTED: an active member of an enabled pair that was not PROTECTED at some moment between the start of the span
and now (18 R513). -/
def unprotectedFlag (s : State) (time : Nat) : Nat :=
  if s.pair.role = .active then
    if !s.pair.guarded then flagUnprotected
    else match s.pair.unguarded with
      | some u => if time ≤ u then flagUnprotected else 0
      | none => 0
  else 0

/-- Hand a numbered record to its destinations. -/
def handOver (s : State) (h : HeldRec) : State :=
  let s1 := h.dests.foldl (fun t d =>
    pushOffer t { dest := d, pid := h.pid, seq := h.seq, rtype := h.rtype, start := h.start, time := h.time,
                  since := none, bytes := h.bytes }) s
  match h.egress with
  | some e => egressAppend s1 e h.pid h.seq h.bytes
  | none => s1

/-- E_p moves to the end of a record's span (18 R509). -/
def emittedThrough (s : State) (h : HeldRec) : State :=
  match s.product h.pid with
  | some p => s.setProduct h.pid { p with ep := max p.ep ((h.start + h.span) % 2 ^ 64) }
  | none => s

/-- A numbered record leaves, or waits for the acknowledgement of a reservation that covers its number (18 R508). -/
def release (s : State) (h : HeldRec) : State :=
  match s.product h.pid with
  | none => handOver s h
  | some p =>
    if reserving s && (h.seq ≥ p.spNext || s.pair.held.any fun x => x.pid == h.pid) then
      { s with pair := { s.pair with held := s.pair.held ++ [h], reserveStall := s.pair.reserveStall + 1 } }
    else emittedThrough (handOver s h) h

/-- The routing entry settles once a number under the new entry has been sent (05 R170). -/
def settleRoute (p : Product) (seq : Nat) : Product :=
  match p.routeChange with
  | some c => if seq ≥ c.fromSeq then { p with route := c.route, routeChange := none } else p
  | none => p

/-- A record that has its number is built once for all its destinations and leaves (05 R161). -/
def sendNumbered (s : State) (pid seq : Nat) (r : RecOut) : State :=
  match s.product pid with
  | none => s
  | some p =>
    let route := routeOf p seq
    let d := destsOf s p route
    let flags := r.flags ||| (if r.rtype = 0x10 ∨ r.rtype = 0x0F then 0 else unprotectedFlag s r.time)
    let bytes := recordBytes r.rtype flags pid p.world (routingByte route) (streamByte route) seq r.time r.start r.span
      r.aux r.payload
    let s1 := s.setProduct pid (settleRoute p seq)
    reserveAhead (release s1 { pid := pid, seq := seq, rtype := r.rtype, start := r.start, span := r.span, time := r.time,
                               dests := d.1, egress := d.2, bytes := bytes }) pid

/-- A product's next number is taken (05 R161). -/
def takeNumber (s : State) (pid : Nat) : State × Nat :=
  match s.product pid with
  | none => (s, 0)
  | some p => (s.setProduct pid { p with seq := p.seq + 1 }, p.seq)

/-- The record takes its product's next number and leaves. No record begins after a class F fault (17 R486). -/
def emitNumbered (s : State) (pid : Nat) (r : RecOut) : State :=
  if s.err.fault then s
  else
    let n := takeNumber s pid
    sendNumbered n.1 pid n.2 r

/-- One owed ERROR record, with the start and span of the record it precedes (17 R484). -/
def errorOut (x : OwedErr) (start span time : Nat) : RecOut :=
  { rtype := 0x10, flags := 0, start := start, span := span, time := time,
    aux := x.entry.err.cause.toNat + x.entry.err.incident.toNat * 65536, payload := errBytes x.entry }

/-- An owed ERROR record goes before the record with a key (17 R484). -/
def owedFor (key : Option (Nat × Nat)) (x : OwedErr) : Bool := x.key.isNone || x.key == key

/-- The errors owed before the record with a key: at most 16, the 16th with MORE (17 R484). -/
def errorsBefore (p : Product) (key : Option (Nat × Nat)) : List OwedErr :=
  (enumFrom0 ((p.owedErrs.filter (owedFor key)).take 16)).map fun a =>
    if a.1 = 15 then { a.2 with entry := { a.2.entry with err := { a.2.entry.err with more := true } } } else a.2

/-- The ERROR records that a product owes before the record with a key, which starts at `start` (17 R484). -/
def flushErrors (s : State) (pid : Nat) (key : Option (Nat × Nat)) (start span time : Nat) : State :=
  match s.product pid with
  | none => s
  | some p =>
    (errorsBefore p key).foldl (fun t x => emitNumbered t pid (errorOut x start span time))
      (s.setProduct pid { p with owedErrs := p.owedErrs.filter fun x => !owedFor key x })

/-- Emit the VIS record of a group and integration, or a record without a key, preceded by the ERROR records owed. -/
def emitKeyed (s : State) (pid : Nat) (key : Option (Nat × Nat)) (r : RecOut) : State :=
  emitNumbered (flushErrors s pid key r.start r.span r.time) pid r

/-- The errors owed before a record that will not come go before the product's next record instead. -/
def owedAnyway (p : Product) (key : Option (Nat × Nat) → Bool) : Product :=
  { p with owedErrs := p.owedErrs.map fun x => if key x.key then { x with key := none } else x }

/-- Emit a record of a product, preceded by the ERROR records it owes. -/
def emitRecord (s : State) (pid : Nat) (r : RecOut) : State := emitKeyed s pid none r

/-- Add an error to those owed before a record; beyond 16 for one record it appears only in the log (17 R484). -/
def oweError (s : State) (pid : Nat) (key : Option (Nat × Nat)) (x : LogEntry) : State :=
  match s.product pid with
  | none => s
  | some p =>
    if (p.owedErrs.filter fun y => y.key == key).length ≥ 16 then s
    else s.setProduct pid { p with owedErrs := p.owedErrs ++ [{ entry := x, key := key }] }

/-- The record an error affects (17 R484): none, the product's next one, that of a group and integration, or that of a beam
and record interval. -/
inductive Affects where
  | nothing
  | next
  | vis (group j : Nat)
  | beam (b j : Nat)
  deriving DecidableEq, Repr

/-- Log a record whose resource is a Relief super-tile or a product, and emit it as an ERROR record when it is an EVENT or
CLOSE record of class T or L: before the record it affects, or at once (17 R484). -/
def logForProduct (s : State) (pid : Nat) (e : ErrRec) (affects : Affects) : State :=
  let entry : LogEntry := { index := (s.log (fnOf (s.worldOfProduct pid))).nextIndex, time := timeField s.now, err := e }
  let s1 := logRecord s e
  if (e.kind = .event ∨ e.kind = .closed) ∧ (e.cls = .t ∨ e.cls = .l) then
    match affects with
    | .nothing => emitNumbered s1 pid (errorOut { entry := entry, key := none } 0 0 (s.timeAt 0))
    | .next => oweError s1 pid none entry
    | .vis q j => oweError s1 pid (some (q, j)) entry
    | .beam b j => oweError s1 pid (some (b, j)) entry
  else s1

/-- Raise an EVENT record of class L whose resource is a product (17 R475, R484). -/
def raiseProduct (s : State) (cause : U16) (pid det : Nat) (affects : Affects) : State :=
  logForProduct s pid (eventRec cause .l (s.worldOfProduct pid) false pid (min det (2 ^ 32 - 1))) affects

/-! ### GAP records a product emits (05 R153, R167, R168) -/

/-- A GAP record that has its number. Where both destinations miss records, it is one record to both, with RING and EGRESS set
and identical copies (05 R161, R167; log 28). -/
def sendGap (s : State) (pid seq cause rtype first count start span time : Nat) : State :=
  sendNumbered s pid seq
    { rtype := 0x0E, flags := gapFlags cause, start := start, span := span, time := time, aux := 0,
      payload := gapPayload (if count = 0 then seq + 1 else first) count cause rtype }

/-- A GAP record preceded by the ERROR records owed before the record with a key. -/
def emitGapKeyed (s : State) (pid : Nat) (key : Option (Nat × Nat)) (cause rtype first count start span time : Nat) : State :=
  if s.err.fault then s
  else
    let n := takeNumber (flushErrors s pid key start span time) pid
    sendGap n.1 pid n.2 cause rtype first count start span time

/-- A GAP record, preceded by the ERROR records the product owes. -/
def emitGap (s : State) (pid cause rtype first count start span time : Nat) : State :=
  emitGapKeyed s pid none cause rtype first count start span time

/-- The GAP record of a suspension (05 R168): own number, span 0. -/
def gapSuspended (s : State) (pid rtype start time : Nat) : State := emitGap s pid 1 rtype 0 0 start 0 time

/-! ### Emit slots -/

/-- A numbered record has left every destination (05 R152): no copy waits, is held or stands in an unsent frame. -/
def recordGone (s : State) (pid seq : Nat) : Bool :=
  !(s.offers.any fun o => o.pid == pid && o.seq == seq) && !(s.pair.held.any fun h => h.pid == pid && h.seq == seq) &&
    !(s.osl.frames.any fun f => f.recs.any fun r => r.1 == pid && r.2 == seq)

/-- Records held for a reservation go out once it is acknowledged (18 R508). -/
def releaseHeld (s : State) (pid : Nat) : State :=
  let mine := s.pair.held.filter fun h => h.pid == pid
  let rest := s.pair.held.filter fun h => h.pid != pid
  mine.foldl release { s with pair := { s.pair with held := rest } }

end Sys2Proof.Machine
end

