-- ==== Sys2Proof/Machine/Clauses.lean ====
section
/-! DEFINITION. Running a Clause: its answer, the commit, its completion and the completion queue (11 R349 to R357, 17 R489,
18 R506, R507, R512). -/

namespace Sys2Proof.Machine

/-! ### Answers -/

/-- Completion statuses (11 R357). -/
def stDone : Nat := 0x0000
def stDoneUnprotected : Nat := 0x0001
def stDeferred : Nat := 0x0002
def stBadOpcode : Nat := 0x0100
def stBadParam : Nat := 0x0101
def stBadLength : Nat := 0x0102
def stStalePacket : Nat := 0x0103
def stWorldDenied : Nat := 0x0200
def stQuotaExceeded : Nat := 0x0201
def stQuotaCut : Nat := 0x0202
def stTileConflict : Nat := 0x0300
def stOverflowRisk : Nat := 0x0301
def stEnvelope : Nat := 0x0302
def stBusy : Nat := 0x0400
def stDeviceFault : Nat := 0x0500
def stAborted : Nat := 0x0501
def stSettingsIncompatible : Nat := 0x0502

/-- What a Clause answers: the fields of its completion (11 R352, R355), whether a follow entry is due later, what its wait
phase waits for, and whether a host buffer read failed. -/
structure Reply where
  status : Nat
  kind : Nat
  a : Nat
  b : Nat
  c : Nat
  followDue : Bool
  wait : Option (List Nat)
  hostRead : Bool
  deriving DecidableEq, Repr

/-- An answer with a status and A, B and C. -/
def Reply.mk' (status kind a b c : Nat) : Reply :=
  { status := status, kind := kind, a := a, b := b, c := c, followDue := false, wait := none, hostRead := false }

/-- The result of a Clause: a refusal that changes nothing, or the new state and the answer. -/
abbrev Result := Except Reply (State × Reply)

/-- DONE with a result in A. -/
def done (s : State) (a : Nat := 0) : Result := .ok (s, .mk' stDone 0 a 0 0)

/-- DONE_DEFERRED with a boundary (11 R355). -/
def deferred (s : State) (kind boundary : Nat) : Result := .ok (s, .mk' stDeferred kind (boundary % 2 ^ 64) 0 0)

/-- DONE_DEFERRED naming a Plinth time (11 R355). -/
def deferredTime (s : State) (t : U96) : Result :=
  .ok (s, .mk' stDeferred 2 (t.toNat % 2 ^ 64) 0 (t.toNat / 2 ^ 64))

/-- The Clause enters its wait phase (11 R351). -/
def waits (s : State) (args : List Nat) : Result := .ok (s, { Reply.mk' stDone 0 0 0 0 with wait := some args })

/-- BAD_PARAM, WORLD_DENIED and BUSY name the Clause byte offset of the first failing field in C (11 R355). -/
def refuse {α : Type} (status off : Nat) : Except Reply α := .error (.mk' status 0 0 0 off)

/-- Refuse when a condition holds. -/
def refuseIf (bad : Bool) (status off : Nat) : Except Reply Unit := if bad then refuse status off else .ok ()

/-- BAD_LENGTH (11 R355). -/
def badLength {α : Type} (need given : Nat) : Except Reply α := .error (.mk' stBadLength 0 need given 56)

/-- The bytes of a host buffer, or ABORTED when the read failed or returned poison (11 R357). -/
def readBuf (buf : HBuf) (data : HRead) : Except Reply (List Byte) :=
  match data with
  | some bs => .ok bs
  | none => .error { Reply.mk' stAborted 0 0 buf.len.toNat 0 with hostRead := true }

/-- The value of an option, or a refusal. -/
def orRefuse {α : Type} (o : Option α) (status off : Nat) : Except Reply α :=
  match o with
  | some x => .ok x
  | none => refuse status off

/-! ### The completion queue (11 R343, R349, R352) -/

/-- The 32 bytes of a completion entry (11 R352). -/
def completionBytes (x : Completion) (phase : Bool) (taken : U16) : List Byte :=
  leBytes 4 x.seq.toNat ++ leBytes 2 x.status.toNat ++ leBytes 1 (b2n phase + 2 * b2n x.follow + 4 * b2n x.followDue) ++
    leBytes 1 x.kind.toNat ++ leBytes 8 x.a.toNat ++ leBytes 8 x.b.toNat ++ leBytes 4 x.c.toNat ++
    leBytes 2 taken.toNat ++ leBytes 2 x.opcode.toNat

/-- Entries written and not consumed. -/
def cqUsed (q : Qp) : Nat := (q.cqTail - q.cqHead).toNat

/-- The number of slots D of a submission queue (11 R343). -/
def sqDepth (q : Qp) : Nat := 2 ^ q.sqLog2.toNat

/-- A pair that is DRAINING becomes DISABLED once nothing remains owed (11 R351). -/
def drained (q : Qp) : Qp :=
  if q.state = .draining ∧ q.owed = [] ∧ q.waiting = none then { q with state := .disabled } else q

/-- One owed entry is written, when the host can be reached and fewer than 2D entries are unconsumed (11 R339, R349). -/
def writeEntry (s : State) (f : Fn) (i : Nat) : State :=
  let q := s.qp f i
  match q.owed with
  | [] => s
  | x :: rest =>
    if s.reach f && cqUsed q < 2 * sqDepth q then
      let slot := q.cqTail.toNat % 2 ^ q.cqLog2.toNat
      let wrap := slot + 1 = 2 ^ q.cqLog2.toNat
      let s1 := s.emit (.hostWrite f (q.cqBase.toNat + 32 * slot) (completionBytes x q.phase q.sqHead))
      let s2 := s1.setQp f i { q with cqTail := q.cqTail + 1, phase := if wrap then !q.phase else q.phase, owed := rest }
      if q.irqEn then sendVector s2 f (8 + i) else s2
    else s

/-- The Armature has taken a Clause of this pair and not answered it. -/
def takenFrom (s : State) (f : Fn) (i : Nat) : Bool :=
  match s.err.taken with
  | some t => t.src.fn == f && t.src.qp.val == i
  | none => false

/-- The completions of this pair that wait for the standby (18 R507). -/
def heldOf (s : State) (f : Fn) (i : Nat) : List HeldCompletion :=
  s.pair.heldCompletions.filter fun h => h.fn == f && h.qp == i

/-- A Clause of this pair is owed its first completion: the Armature runs it, or the standby has not acknowledged it. -/
def unanswered (s : State) (f : Fn) (i : Nat) : Bool := takenFrom s f i || !(heldOf s f i).isEmpty

/-- Every owed entry that can be written is written, oldest first; then a drained pair is DISABLED (11 R351, R353). -/
def flushQueue (s : State) (f : Fn) (i : Nat) : State :=
  let s1 := (List.range (s.qp f i).owed.length).foldl (fun t _ => writeEntry t f i) s
  if unanswered s1 f i then s1 else s1.setQp f i (drained (s1.qp f i))

/-- Every queue pair of a function. -/
def flushQueues (s : State) (f : Fn) : State := (List.range 8).foldl (fun t i => flushQueue t f i) s

/-- An entry joins those owed; a pair that is DISABLED discards it (11 R351). -/
def owe (s : State) (f : Fn) (i : Nat) (x : Completion) : State :=
  let q := s.qp f i
  if q.state = .disabled then s else flushQueue (s.setQp f i { q with owed := q.owed ++ [x] }) f i

/-- A completion made of an answer. -/
def completionOf (seq : U32) (opcode : Nat) (r : Reply) : Completion :=
  { seq := seq, status := BitVec.ofNat 16 r.status, follow := false, followDue := r.followDue,
    kind := BitVec.ofNat 8 r.kind, a := BitVec.ofNat 64 r.a, b := BitVec.ofNat 64 r.b, c := BitVec.ofNat 32 r.c,
    opcode := BitVec.ofNat 16 opcode }

/-- A completion waits for an acknowledgement of the standby (18 R507). -/
def holdCompletion (s : State) (src : Src) (msg : Nat) (waited : Bool) (x : Completion) : State :=
  { s with pair := { s.pair with heldCompletions := s.pair.heldCompletions ++
      [{ msg := msg, waited := waited, fn := src.fn, qp := src.qp.val, comp := x }] } }

/-- A completion that waited is owed. -/
def releaseCompletion (s : State) (h : HeldCompletion) (x : Completion) : State :=
  owe { s with pair := { s.pair with heldCompletions := s.pair.heldCompletions.erase h } } h.fn h.qp x

/-- A follow entry falls due: status DONE, the sequence number and opcode of its Clause, after the Clause's first completion (11
R353). It waits for the Armature while a restart runs, so it is owed and written when service resumes (17 R488, R490). -/
def followEntry (s : State) (src : Src) (opcode kind a b : Nat) : State :=
  let x := { completionOf src.seq opcode (.mk' stDone kind a b 0) with follow := true }
  let q := s.qp src.fn src.qp.val
  match (heldOf s src.fn src.qp.val).find? fun h => h.comp.seq == src.seq with
  | some h => holdCompletion s src h.msg h.waited x
  | none =>
  if q.state = .disabled then s
  else
    let s1 := s.setQp src.fn src.qp.val { q with owed := q.owed ++ [x] }
    if s.err.service then flushQueue s1 src.fn src.qp.val else s1

/-! ### Clauses -/

/-- The opcodes a standby answers (18 R506). -/
def standbyAnswers (opcode : Nat) : Bool :=
  [0x0000, 0x0001, 0x0002, 0x0003, 0x0004, 0x0307, 0x0313, 0x040C, 0x050E, 0x0608, 0x0706, 0x0803, 0x0A03, 0x0B03, 0x0C02,
   0x0E00, 0x0902, 0x0903, 0x0705, 0x0B00, 0x0C00, 0x0C01].contains opcode

/-- The opcodes that leave the Maquette as it is: SYS, the queries, TRIM_SAVE, GLOSS_MEM_READ and GLOSS_MEM_WRITE, the
diagnostics, and the Clauses of the pair and of the update (18 R506, 19 R537). -/
def readsOnly (opcode : Nat) : Bool :=
  [0x0000, 0x0001, 0x0002, 0x0003, 0x0004, 0x0307, 0x0310, 0x0313, 0x0320, 0x040C, 0x050E, 0x0606, 0x0607, 0x0608, 0x0706,
   0x0803, 0x0900, 0x0902, 0x0A03, 0x0B00, 0x0B01, 0x0B02, 0x0B03, 0x0C00, 0x0C01, 0x0C02, 0x0E00,
   0x0E01].contains opcode

/-- The unit is an active member of an enabled pair and not PROTECTED (18 R512). -/
def unprotected (s : State) : Bool := s.pair.role == .active && !s.pair.guarded

/-- DONE is answered as DONE_UNPROTECTED while the unit is unprotected (18 R512). -/
def protectStatus (s : State) (r : Reply) : Reply :=
  if r.status = stDone && unprotected s then { r with status := stDoneUnprotected } else r

/-- A commit goes to the standby with the last commit record, also while a resynchronisation runs (18 R507, R511). Gives the
message's number where one is sent. -/
def mirrorCommit (s : State) : State × Option Nat :=
  if reserving s || (s.pair.role == .active && s.pair.resync.any fun x => x.phase < 3) then
    let rec_ := match s.err.commit with
      | some c => leBytes 1 (fnNum c.fn) ++ leBytes 1 c.qp ++ zeros 2 ++ leBytes 4 c.seq.toNat
      | none => zeros 8
    let r := sendMsg s 1 rec_
    (r.1, some r.2)
  else (s, none)

/-- The major version of a firmware version (19 R530). -/
def majorOf (version : Nat) : Nat := version / 2 ^ 24

/-- A commit of a confirmed image converts the Maquette to the image's own format, when pair operation is DISABLED or the
partner's firmware is at least as new (19 R541). -/
def convertFormat (s : State) : State :=
  match slotHeader s s.boot.runSlot with
  | some h =>
    if !s.boot.trial && (s.pair.role == .disabled || majorOf (field h 4 4) ≤ majorOf s.pair.peerVersion) then
      { s with boot := { s.boot with maqFormat := field h 18 2 } }
    else s
  | none => s

/-- The Maquette has been committed once more. -/
def countCommit (s : State) : State :=
  convertFormat { s with pair := { s.pair with commitCount := s.pair.commitCount + 1 } }

/-- The commit of a Clause: the last commit record and the commit count; in a protected pair a COMMIT message (17 R489, 18
R507). Gives the message's number where one is sent. -/
def commitClause (s : State) (src : Src) (opcode : Nat) : State × Option Nat :=
  if readsOnly opcode then (s, none)
  else
    let s1 := countCommit { s with err := { s.err with commit := some { fn := src.fn, qp := src.qp.val, seq := src.seq } } }
    let r := mirrorCommit s1
    (r.1, if reserving s1 then r.2 else none)

/-- The first completion of a Clause: written, or held until the standby acknowledges the commit (11 R354, 18 R507). One that
needs no acknowledgement follows those of its queue that wait for one (11 R353). -/
def complete (s : State) (src : Src) (opcode : Nat) (r : Reply) (held : Option Nat) (waited : Bool := false) : State :=
  let x := completionOf src.seq opcode r
  match held, (heldOf s src.fn src.qp.val).getLast? with
  | some n, _ => holdCompletion s src n waited x
  | none, some h => holdCompletion s src h.msg h.waited x
  | none, none => owe s src.fn src.qp.val x

/-- The Clause leaves the Armature. -/
def untake (s : State) (src : Src) : State :=
  match s.err.taken with
  | some t => if t.src = src then { s with err := { s.err with taken := none } } else s
  | none => s

/-- The Clause's queue is held while it waits (11 R350, R351). -/
def enterWait (s : State) (src : Src) (opcode : Nat) (args : List Nat) : State :=
  let q := s.qp src.fn src.qp.val
  s.setQp src.fn src.qp.val { q with waiting := some { opcode := BitVec.ofNat 16 opcode, seq := src.seq, args := args } }

/-- The answer of a Clause before its own checks: after a class F fault DEVICE_FAULT with the incident in A (17 R486); a
secure-only Clause from F1 is WORLD_DENIED and a bit set outside the fields BAD_PARAM (11 R345); a standby answers only some (18
R506). -/
def gate (s : State) (c : Clause) : Except Reply Unit :=
  if s.err.fault then .error (.mk' stDeviceFault 0 s.err.lastFaultId.toNat 0 0)
  else if secureOnlyOp c.opcode && c.src.fn == .f1 then refuse stWorldDenied 0
  else
    match rsvdOf c with
    | some off => refuse stBadParam off
    | none => if s.pair.role == .standby && !standbyAnswers c.opcode then refuse stBusy 0 else .ok ()

/-- The Clause is the one the Armature has taken from that queue under that sequence number: its bytes are those of the slot
(11 R344). -/
def isTaken (s : State) (c : Clause) : Bool :=
  match s.err.taken with
  | some t => t.src != c.src || t.bytes == clauseBytes c
  | none => true

/-- Run a Clause. Its body refuses, changing nothing, or gives the new state and the answer. While Clause service is
stopped the Clause waits in its host queue (17 R488), and one that the slot does not hold is no Clause of that queue: nothing
happens. -/
def runAs (c : Clause) (s0 : State) (body : State → Result) : Host.Outcome State Fault Refusal :=
  if !s0.err.service || !isTaken s0 c then .next s0
  else
    let src := c.src
    let opcode := c.opcode
    let s := untake s0 src
    match (do gate s c; body s : Result) with
    | .error r =>
      let s1 := if r.hostRead then raise s 0x0905 .l (worldOf src.fn) (qpRes src.fn src.qp.val)
                    (s.qp src.fn src.qp.val).expectSeq.toNat else s
      .next (complete s1 src opcode r none)
    | .ok (s1, r) =>
      let c := commitClause s1 src opcode
      match r.wait with
      | some args => .next (enterWait c.1 src opcode args)
      | none => .next (complete c.1 src opcode (protectStatus c.1 r) c.2)

/-- Run the Clause that a command is (11 R344, R368). -/
def runClause (i : Instr) (s : State) (body : State → Result) : Host.Outcome State Fault Refusal :=
  match clauseOf i with
  | some c => runAs c s body
  | none => .next s

/-- A query writes its result to the host buffer, or completes BAD_LENGTH when it does not fit (11 R367). -/
def answerQuery (s : State) (src : Src) (buf : HBuf) (bytes : List Byte) : Result :=
  if bytes.length > buf.len.toNat then badLength bytes.length buf.len.toNat
  else done (s.emit (.hostWrite src.fn buf.addr.toNat bytes)) bytes.length

/-- A query that the spec gives no layout: its contents are the report, and their bytes are free (log 10). -/
def answerReport (s : State) (src : Src) (buf : HBuf) (r : Report) : Result := answerQuery s src buf (Config.reportBytes r)

/-- A function's query reports what is of its world; F0's reports both worlds. -/
def seenBy (f : Fn) (w : World) : Bool := f == .f0 || w == .nonsecure

end Sys2Proof.Machine
end

