-- ==== Sys2Proof/Machine/Envelope.lean ====
section
/-! DEFINITION. Admission: the demands of the admitted products, the limits of the envelope, the quotas of the non-secure
world and the placement of HBM areas (01 R20 to R30, 04 R129, 05 R141, R142, 16 R458 to R467). -/

namespace Sys2Proof.Machine

/-! ### Demands -/

/-- A demand on nothing. -/
def Demand.zero : Demand :=
  { relief := 0, hbm := 0, frieze := 0, delay := 0, beams := 0, chains := 0, bytes := 0, route := 0, records := 0,
    chanDwell := 0, dwell := 0, uses := [] }

/-- What a suspended product goes on demanding: its delay entries, beams and chains (01 R28). -/
def releasedDemand (d : Demand) : Demand :=
  { Demand.zero with delay := d.delay, beams := d.beams, chains := d.chains }

/-- The demands that count for a product: its own and, before a deferred boundary, the one reserved (01 R25, R28). -/
def demandsOf (p : Product) : List Demand :=
  let l := p.demand :: p.reserve.map Prod.fst
  if p.suspended then l.map releasedDemand else l

/-- The larger of a product's demands on one term (01 R25). -/
def most (l : List Demand) (term : Demand → Rat) : Rat := l.foldl (fun m d => max m (term d)) 0

/-- Products of a world, or of both. -/
def productsIn (s : State) (w : Option World) : List Product :=
  (s.products.map Prod.snd).filter fun p => match w with
    | some x => p.world == x
    | none => true

/-- The sum of one term over products. -/
def total (ps : List Product) (term : Demand → Rat) : Rat := sumRat (ps.map fun p => most (demandsOf p) term)

/-- Record bytes per second routed to host rings (01 R21 Delivery). -/
def deliveryOf (d : Demand) : Rat := if routeHasRing d.route then d.bytes else 0

/-- Record bytes per second routed to a transmit group, through the egress stream bound to it (01 R21 Egress). -/
def egressOf (s : State) (first : Nat) (d : Demand) : Rat :=
  if routeHasEgress d.route && (vget s.osl.egress (routeEgress d.route) Reset.egress).group == some first then d.bytes else 0

/-- The slot sample rate num / den (03 R93). -/
def slotRate (s : State) : Rat := (s.intake.num : Rat) / (s.intake.den : Rat)

/-- The (input, slot) pairs of a stream that the given uses name: each pair once (01 R11, R21). -/
def pairsUsed (d : StreamDef) (uses : List (List Nat × Nat × Nat)) : Nat :=
  sumNat ((List.range d.inCount).map fun i =>
    ((List.range d.chCount).filter fun c =>
      uses.any fun u => u.1.contains (d.inBase + i) && u.2.1 ≤ d.chBase + c && d.chBase + c < u.2.1 + u.2.2).length)

/-- Every use of the given products. -/
def usesOf (ps : List Product) : List (List Nat × Nat × Nat) :=
  ps.flatMap fun p => (demandsOf p).flatMap Demand.uses

/-- The streams that are defined. -/
def definedStreams (s : State) : List StreamDef := s.intake.streams.filterMap fun x => x.2.entry

/-- Ingest in bits per second of one stream under the given uses (01 R21). -/
def streamIngest (s : State) (d : StreamDef) (uses : List (List Nat × Nat × Nat)) : Rat :=
  8 * (if d.c8 then 2 else 1) * slotRate s * (pairsUsed d uses : Rat)

/-- Ingest of the streams that satisfy `p`. STATS products consume none (03 R98; log 67). -/
def ingestOf (s : State) (ps : List Product) (p : StreamDef → Bool) : Rat :=
  let uses := usesOf (ps.filter fun x => x.kind != .stats)
  sumRat (((definedStreams s).filter p).map fun d => streamIngest s d uses)

/-- Lanes of a group of size code `c` (02 R41). -/
def groupLanes (c : Nat) : Nat := 2 ^ c

/-- Egress demand in bits per second on a transmit group (01 R21). -/
def groupEgress (s : State) (ps : List Product) (first : Nat) : Rat :=
  8 * total ps (egressOf s first)

/-- Egress demand of products on every egress stream, in bits per second. -/
def allEgress (ps : List Product) : Rat :=
  8 * total ps fun d => if routeHasEgress d.route then d.bytes else 0

/-! ### HBM areas -/

/-- The envelope term an allocation counts under: 3 corner turn, 4 ISTORE, 5 others (01 R21). -/
def allocTerm : AllocKind → Nat
  | .ctSet _ => 3
  | .istore _ => 4
  | _ => 5

/-- An area counts as HBM capacity: all but gain and snapshot areas that host software names (01 R21, 05 R156, 07 R214) and an
emit buffer that a larger one replaces at a boundary, because the larger of both is reserved (01 R25). -/
def countedAlloc (a : Alloc) : Bool :=
  match a.kind with
  | .namedGain _ | .snapshot _ | .emitOld _ => false
  | _ => true

/-- Bytes allocated in all. -/
def allAlloc (s : State) : Nat := sumNat ((s.hbm.allocs.filter countedAlloc).map Alloc.size)

/-- Bytes allocated under one term. -/
def allocBytes (s : State) (term : Nat) : Nat :=
  sumNat ((s.hbm.allocs.filter fun a => countedAlloc a && allocTerm a.kind == term).map Alloc.size)

/-- The world of an HBM granule: that of the valid descriptor that covers it (16 R458). -/
def granuleWorld (s : State) (g : Nat) : Option World :=
  if s.world.fill.any fun x => x.granules.contains g then none
  else (s.world.regions.toList.find? fun r => r.valid && r.base ≤ g && g < r.base + r.size).map Region.world

/-- An area lies wholly within valid descriptors of a world (05 R141). -/
def inWorld (s : State) (w : World) (base size : Nat) : Bool :=
  (List.range (ceilDiv (base % granule + size) granule)).all fun i => granuleWorld s (base / granule + i) == some w

/-- Two areas overlap. -/
def overlaps (b1 n1 b2 n2 : Nat) : Bool := b1 < b2 + n2 && b2 < b1 + n1

/-- The product whose allocation it is, 0xFFFF for one that is no product's (11 R355). -/
def holder (s : State) (k : AllocKind) : Nat :=
  match k with
  | .istore p => p
  | .emitBuf p => p
  | .emitOld p => p
  | .gain p => p
  | .snapshot p => p
  | .namedGain p => p
  | .validity p => p
  | .ctSet i => ((s.corrs.filter fun c => c.set == i).map Corr.pid).foldl min 0xFFFF
  | .capRing c => (s.chain c).capture.getD 0xFFFF
  | .chainEmit c => (s.chain c).zoom
  | .feedBuf c | .coreSlots c => ((s.core c).attach.map Attach.derived).getD 0xFFFF

/-- The area of a pending snapshot, which R141 does not list among the allocations. -/
def snapshotArea (a : Alloc) : Bool :=
  match a.kind with
  | .snapshot _ => true
  | _ => false

/-- TILE_CONFLICT when an area overlaps an allocation: the first overlapping address and its holder (05 R141, 11 R355). -/
def tileCheck (s : State) (base size off : Nat) : Except Reply Unit :=
  let hits := s.hbm.allocs.filter fun a => !snapshotArea a && overlaps base size a.base a.size
  match minBy (fun a => max base a.base) hits with
  | none => .ok ()
  | some a => .error (.mk' stTileConflict 0 (max base a.base) (holder s a.kind) off)

/-- A granule the Maelpin may allocate in: of the world and in no allocation (05 R142). -/
def granuleFree (s : State) (w : World) (g : Nat) : Bool :=
  granuleWorld s g == some w && !(s.hbm.allocs.any fun a => overlaps (g * granule) granule a.base a.size)

/-- The lowest granule at which a run of `need` free granules begins (05 R142): from granule `g`, with `run` free ones
just before it, looking at `fuel` more. -/
def findRun (s : State) (w : World) (need : Nat) : Nat → Nat → Nat → Option Nat
  | 0, g, run => if run ≥ need then some (g - run) else none
  | fuel + 1, g, run =>
    if run ≥ need then some (g - run)
    else if granuleFree s w g then findRun s w need fuel (g + 1) (run + 1) else findRun s w need fuel (g + 1) 0

/-- The total size of a world's valid descriptors in bytes (16 R462, items 3 to 5). -/
def regionBytes (s : State) (w : World) : Nat :=
  granule * sumNat ((s.world.regions.toList.filter fun r => r.valid && r.world == w).map Region.size)

/-- Add an allocation. -/
def addAlloc (s : State) (a : Alloc) : State := { s with hbm := { s.hbm with allocs := s.hbm.allocs ++ [a] } }

/-- Remove the allocations that satisfy `p`. -/
def freeAllocs (s : State) (p : AllocKind → Bool) : State :=
  { s with hbm := { s.hbm with allocs := s.hbm.allocs.filter fun a => !p a.kind } }

/-- Place an area of `bytes` for a world, or QUOTA_EXCEEDED naming item 3 or 5 (05 R142, 11 R355). -/
def place (s : State) (w : World) (k : AllocKind) (bytes : Nat) : Except Reply (State × Nat) :=
  let size := roundUp bytes granule
  match findRun s w (size / granule) s.hbm.capacity 0 0 with
  | some g => .ok (addAlloc s { kind := k, base := g * granule, size := size, world := w }, g * granule)
  | none => .error (.mk' stQuotaExceeded (if allocTerm k = 3 then 3 else 5) (allAlloc s + size) (regionBytes s w) 0xFFFFFFFF)

/-! ### Requantized streams (03 R85, R87) -/

/-- The entries of an input map. -/
def mapEntries (s : State) (handle : Nat) : List Nat :=
  match s.maps.find? fun m => m.handle == handle with
  | some m => m.entries
  | none => []

/-- A stream feeds a WIDE or NARROW correlation product, so that a C8 stream is requantized (03 R85). -/
def feedsC4 (s : State) (d : StreamDef) : Bool :=
  s.corrs.any fun c => c.mode != 2 && (mapEntries s c.map).any fun i =>
    d.inBase ≤ i && i < d.inBase + d.inCount && d.chBase < c.chBase + c.chCount && c.chBase < d.chBase + d.chCount

/-- The gains that the requantizer's table holds (03 R87). -/
def gainTable : Nat := 1048576

/-- A product takes an input from a C8 stream in some slot. -/
def takesC8 (s : State) (c : Corr) (i : Nat) : Bool :=
  (definedStreams s).any fun d => d.c8 && d.inBase ≤ i && i < d.inBase + d.inCount &&
    d.chBase < c.chBase + c.chCount && c.chBase < d.chBase + d.chCount

/-- A C8 input of the product is also used by a product of the other kind: BYTE against WIDE and NARROW (03 R85). -/
def mixesC8 (s : State) (c : Corr) : Bool :=
  s.corrs.any fun o => o.pid != c.pid && (o.mode == 2) != (c.mode == 2) &&
    (mapEntries s c.map).any fun i => (mapEntries s o.map).contains i && takesC8 s c i && takesC8 s o i

/-- A stream is requantized (03 R85). -/
def requantized (s : State) (d : StreamDef) : Bool := d.c8 && feedsC4 s d

/-- Requantizer gains in use by the streams that satisfy `p` (03 R87). -/
def gainsUsed (s : State) (p : StreamDef → Bool) : Nat :=
  sumNat (((definedStreams s).filter fun d => p d && requantized s d).map fun d => d.inCount * d.chCount)

/-! ### Quotas (16 R462, R463) -/

/-- Usage of the non-secure world on a quota item. -/
def usage (s : State) (item : Nat) : Rat :=
  let ps := productsIn s (some .nonsecure)
  match item with
  | 1 => total ps Demand.relief
  | 2 => ingestOf s ps fun d => d.world == .nonsecure
  | 3 | 4 | 5 => (sumNat ((s.hbm.allocs.filter fun a => countedAlloc a && a.world == .nonsecure).map Alloc.size) : Nat)
  | 6 => total ps Demand.hbm
  | 7 => total ps Demand.frieze
  | 8 => total ps fun d => (d.delay : Nat)
  | 9 => total ps fun d => (d.beams : Nat)
  | 10 => total ps fun d => (d.chains : Nat)
  | 11 => total ps deliveryOf
  | 12 => allEgress ps
  | 13 => (ps.length : Nat)
  | 14 => ((List.range 32).filter fun i =>
            vget s.world.cores i .secure == .nonsecure && (s.core i).state != .empty).length
  | 15 => (sumNat ((s.maps.filter fun m => m.world == .nonsecure).map fun m => m.entries.length) : Nat)
  | 16 => (gainsUsed s fun d => d.world == .nonsecure : Nat)
  | 17 => (((definedStreams s).filter fun d => d.world == .nonsecure).length : Nat)
  | 18 => ((s.intake.stats.filter fun x => s.worldOfProduct x.pid == .nonsecure).length : Nat)
  | _ => 0

/-- The quota of an item: the capacity items follow the world's descriptors (16 R462). -/
def quotaOf (s : State) (item : Nat) : Nat :=
  if 3 ≤ item ∧ item ≤ 5 then regionBytes s .nonsecure else vget s.world.quotas item 0

/-- The quota items in order. -/
def quotaItems : List Nat := (List.range 18).map (· + 1)

/-- The first of some items on which the change from `s` to `s'` raises usage above the quota: QUOTA_EXCEEDED (16 R463). -/
def quotasAmong (items : List Nat) (s s' : State) (w : World) : Except Reply Unit :=
  if w = .secure then .ok ()
  else
    match items.find? fun i => usage s' i > (quotaOf s' i : Nat) && usage s' i > usage s i with
    | none => .ok ()
    | some i => .error (.mk' stQuotaExceeded i (usage s' i).ceil.toNat (quotaOf s' i) 0xFFFFFFFF)

/-- Every item is within its quota, or lower than before. -/
def quotaCheck (s s' : State) (w : World) : Except Reply Unit := quotasAmong quotaItems s s' w

/-- The items that come before those of HBM capacity, which the placing of areas decides (05 R142, 16 R463). -/
def ratesFirst (s s' : State) (w : World) : Except Reply Unit := quotasAmong [1, 2] s s' w

/-! ### The envelope (01 R21, R24) -/

/-- Stacks in service (10 R308). -/
def stacksInService (s : State) : Nat := s.hbm.serving.length

/-- HBM peak in bytes per second: 768 GB/s for each Gb/s with six stacks (10 R305). -/
def hbmPeak (n rate : Nat) : Rat := ((n * 128000000 * rate : Nat) : Rat)

/-- The limit of the Relief term: the lower of that of R21 and that of R129. -/
def reliefLimit (s : State) : Rat :=
  let ds := ((productsIn s none).filter fun p => !p.suspended).flatMap demandsOf
  let cs := ds.filter fun d => d.dwell > 0
  match cs with
  | [] => 1600000000
  | d :: t =>
    let lmax := t.foldl (fun m x => max m x.chanDwell) d.chanDwell
    let dmin := t.foldl (fun m x => min m x.dwell) d.dwell
    min 1600000000 (1600000000 * (1 - lmax / dmin))

/-- The limit of the delay-store term: per bank (01 R21, 07 R206). -/
def delayLimit (s : State) : Nat := if s.frieze.single then 2097152 else 1048576

/-- The delivery limit: 90 % of the trained bandwidth per direction (01 R21, 11 R337). A link that has not trained since reset
counts as its full 512 GB/s (log 17). -/
def deliveryLimit (s : State) : Rat :=
  if s.link.trained then ((s.link.mod0 + s.link.mod1 : Nat) : Rat) * 8000000000 * 9 / 10 else 460800000000

/-- A refusal ENVELOPE_EXCEEDED: the demand rounded up, the limit rounded down (11 R355, R356). -/
def exceeded (term : Nat) (demand limit : Rat) (c : Nat) : Reply :=
  .mk' stEnvelope term demand.ceil.toNat limit.floor.toNat c

/-- One term holds. -/
def termCheck (term : Nat) (demand limit : Rat) : Except Reply Unit :=
  if demand > limit then .error (exceeded term demand limit 0xFFFFFFFF) else .ok ()

/-- Ingest demand in bits per second charged to a receive group. -/
def groupIngest (s : State) (ps : List Product) (first : Nat) : Rat := ingestOf s ps fun d => d.first == first

/-- The per-group limits of a term, in ascending first lane (11 R356). -/
def groupChecks (term : Nat) (groups : List LaneGroup) (demand : Nat → Rat) : Except Reply Unit :=
  let bad := groups.filter fun g => demand g.first > (96000000000 * groupLanes g.code : Nat)
  match minBy LaneGroup.first bad with
  | none => .ok ()
  | some g => .error (exceeded term (demand g.first) (96000000000 * groupLanes g.code : Nat) g.first)

/-- The first of terms 3 to 5 in which the change asks for more (11 R356). -/
def capacityKind (s s' : State) : Nat :=
  if allocBytes s' 3 > allocBytes s 3 then 3
  else if allocBytes s' 4 > allocBytes s 4 then 4
  else if allocBytes s' 5 > allocBytes s 5 then 5
  else 3

/-- Every term of the envelope holds in `s'` at a given HBM peak, with `extra` bytes per second of HBM traffic that are no
product's demand; the first that fails is named (01 R24, R27, R29). -/
def envelopeAt (s s' : State) (peak : Rat) (extra : Rat := 0) : Except Reply Unit := do
  let ps := productsIn s' none
  termCheck 1 (total ps Demand.relief) (reliefLimit s')
  termCheck 2 (ingestOf s' ps fun _ => true) 4608000000000
  groupChecks 2 s'.osl.rxGroups (groupIngest s' ps)
  termCheck (capacityKind s s') (allAlloc s' : Nat) (s'.hbm.capacity * granule : Nat)
  termCheck 6 (total ps Demand.hbm + extra) (peak * 4 / 5)
  termCheck 7 (total ps Demand.frieze) 81920000000000
  termCheck 8 (total ps fun d => (d.delay : Nat)) (delayLimit s' : Nat)
  termCheck 9 (total ps fun d => (d.beams : Nat)) 256
  termCheck 10 (total ps fun d => (d.chains : Nat)) 64
  termCheck 11 (total ps deliveryOf) (deliveryLimit s')
  groupChecks 12 s'.osl.txGroups (groupEgress s' ps)

/-- Step 6 of the admission checks (01 R24): the change from `s` to `s'` keeps every term. -/
def envelopeCheck (s s' : State) (extra : Rat := 0) : Except Reply Unit :=
  envelopeAt s s' (hbmPeak (stacksInService s') s'.hbm.rate) extra

/-- Admission of a change from `s` to `s'` for a world: quotas, then the caller's checks, then the envelope (01 R24). -/
def admission (s s' : State) (w : World) (between : Except Reply Unit := .ok ()) (extra : Rat := 0) : Except Reply Unit := do
  quotaCheck s s' w
  between
  envelopeCheck s s' extra

/-- Replace a product's demand from a boundary on: until then the larger of both is reserved (01 R25). -/
def reserveDemand (p : Product) (d : Demand) (boundary : Nat) : Product :=
  { p with reserve := p.reserve ++ [(d, boundary)] }

/-- The demand that will hold once every pending change is in effect. -/
def latestDemand (p : Product) : Demand := ((p.reserve.getLast?).map Prod.fst).getD p.demand

/-- The state in which a product's old demand is replaced by its new one, as the check of a change sees it (01 R25). -/
def replaced (s : State) (pid : Nat) : State :=
  match s.product pid with
  | some p => s.setProduct pid { p with demand := latestDemand p, reserve := [] }
  | none => s

/-- A boundary has been reached: the release front has come to the counter, or the product's next number has passed the
sequence number. -/
def boundaryReached (front : Nat) (p : Product) (b : Nat) : Bool :=
  if b < 2 ^ 64 then b ≤ front else b - 2 ^ 64 < p.seq

/-- At the boundary the new demand replaces the reservation (01 R25). -/
def settleDemand (front : Nat) (p : Product) : Product :=
  let due := p.reserve.takeWhile fun r => boundaryReached front p r.2
  { p with demand := ((due.getLast?).map Prod.fst).getD p.demand, reserve := p.reserve.drop due.length }

/-! ### Checks every defining Clause makes -/

/-- A product ID is 12 bits wide and not in use (05 R160). -/
def pidFree (s : State) (pid : Nat) : Bool := pid < 4096 && (s.product pid).isNone

/-- RSVD bits [31:17] of a route word. -/
def routeRsvd (r : U32) : Bool := bits r.toNat 17 15 == 0

/-- A routing entry's own fields: at least one destination, and a defined ring at least twice the largest record (05 R169,
11 R358). -/
def routeParams (s : State) (f : Fn) (route : U32) (maxRecord off : Nat) : Except Reply Unit := do
  refuseIf (!routeRsvd route || !(routeHasRing route || routeHasEgress route)) stBadParam off
  let r := s.ring f (routeRing route)
  refuseIf (routeHasRing route && r.state != .undefined && ringSize r < 2 * maxRecord) stBadParam off

/-- An egress stream a routing entry names belongs to the world and is bound to a transmit group of it (05 R169). -/
def egressUsable (s : State) (w : World) (e : Nat) : Bool :=
  vget s.world.egress e .secure == w &&
    match (vget s.osl.egress e Reset.egress).group with
    | some x => s.osl.txGroups.any fun y => y.first == x && y.world == w
    | none => false

/-- Every destination belongs to the product's world (05 R169). -/
def routeWorld (s : State) (w : World) (route : U32) (off : Nat) : Except Reply Unit :=
  refuseIf (routeHasEgress route && !egressUsable s w (routeEgress route)) stWorldDenied off

/-- A fresh product (05 R160, R161). -/
def newProduct (pid : Nat) (kind : PKind) (w : World) (f : Fn) (route : U32) (d : Demand) (maxRecord : Nat) : Product :=
  { pid := pid, kind := kind, world := w, fn := f, route := route, routeChange := none, seq := 0, suspended := false,
    demand := d, reserve := [], maxRecord := maxRecord, owedErrs := [], spNext := 0, spSent := none, ep := 0, epTold := 0,
    epTime := 0 }

/-- The product a Clause names: BAD_PARAM unless it is defined with one of the kinds (01 R24, step 1). -/
def findProduct (s : State) (pid : Nat) (kinds : List PKind) (off : Nat) : Except Reply Product := do
  let p ← orRefuse (s.product pid) stBadParam off
  refuseIf (!kinds.contains p.kind) stBadParam off
  return p

/-- WORLD_DENIED for a product of the other world (01 R24, step 2). -/
def ownWorld (p : Product) (f : Fn) (off : Nat) : Except Reply Unit := refuseIf (p.world != worldOf f) stWorldDenied off

/-- The product a Clause names, of the Clause's world, where no later parameter is checked (01 R24). -/
def namedProduct (s : State) (f : Fn) (pid : Nat) (kinds : List PKind) (off : Nat) : Except Reply Product := do
  let p ← findProduct s pid kinds off
  ownWorld p f off
  return p

end Sys2Proof.Machine
end

