-- ==== Sys2Proof/Machine/Queue.lean ====
section
/-! DEFINITION. Doorbells, queue pairs, queue service, the host link and delivery events (11 R337 to R364). -/

namespace Sys2Proof.Machine

/-- The outcome of every command of this block: a next state. -/
abbrev Out := Host.Outcome State Fault Refusal

/-! ### Doorbells (11 R349, R343, R351) -/

/-- A write of SQ_TAIL (11 R349). -/
def sqTailWrite (s : State) (f : Fn) (i : Nat) (val : U32) : State :=
  let q := s.qp f i
  let tail : U16 := val.setWidth 16
  if q.state = .disabled ∨ q.state = .draining then s
  else if (tail - q.sqHead).toNat > sqDepth q then
    raise (s.setQp f i { q with tailErr := true }) 0x0904 .c (worldOf f) (qpRes f i) q.expectSeq.toNat
  else s.setQp f i { q with sqTail := tail }

def execSqTailWrite (fn : Fn) (qp : Fin 8) (val : U32) (s : State) : Out := .next (sqTailWrite s fn qp.val val)

/-- A write of CQ_HEAD (11 R349). -/
def cqHeadWrite (s : State) (f : Fn) (i : Nat) (val : U32) : State :=
  let q := s.qp f i
  let head : U16 := val.setWidth 16
  if q.state = .disabled then s
  else if (head - q.cqHead).toNat > cqUsed q then
    raise (s.setQp f i { q with headErr := true }) 0x0907 .c (worldOf f) (qpRes f i) q.expectSeq.toNat
  else flushQueue (s.setQp f i { q with cqHead := head }) f i

def execCqHeadWrite (fn : Fn) (qp : Fin 8) (val : U32) (s : State) : Out := .next (cqHeadWrite s fn qp.val val)

/-- SQ_LOG2 and CQ_LOG2 as a QP_CTRL value carries them. -/
def ctrlSizes (q : Qp) (val : U32) : Qp :=
  { q with sqLog2 := BitVec.ofNat 4 (bits val.toNat 1 4), cqLog2 := BitVec.ofNat 4 (bits val.toNat 5 4) }

/-- The configuration an ENABLE write is checked for (11 R343). -/
def configOk (q : Qp) : Bool :=
  4 ≤ q.sqLog2.toNat && q.sqLog2.toNat ≤ 12 && 5 ≤ q.cqLog2.toNat && q.cqLog2.toNat ≤ 13 &&
    q.sqLog2.toNat + 1 ≤ q.cqLog2.toNat && q.sqBase.toNat % 4096 == 0 && q.cqBase.toNat % 4096 == 0

/-- A refused ENABLE write (11 R343, R351). -/
def configError (s : State) (f : Fn) (i : Nat) : State :=
  let q := s.qp f i
  raise (s.setQp f i { q with cfgErr := true }) 0x0903 .c (worldOf f) (qpRes f i) q.expectSeq.toNat

/-- Enabling sets the heads, the tails and the expected sequence number to 0 and the phase to 1 (11 R343). -/
def startPair (q : Qp) : Qp :=
  { q with enable := true, state := .running, sqHead := 0, sqTail := 0, cqHead := 0, cqTail := 0, expectSeq := 0,
           phase := true, retry := none, waiting := none, owed := [] }

/-- A write of QP_CTRL (11 R343, R351, R366). -/
def qpCtrlWrite (s : State) (f : Fn) (i : Nat) (val : U32) : State :=
  let q := s.qp f i
  let irq := bitOf val.toNat 9
  if bitOf val.toNat 0 then
    match q.state with
    | .draining => configError s f i
    | .disabled =>
      let q1 := ctrlSizes q val
      if configOk q1 then s.setQp f i (startPair { q1 with irqEn := irq }) else configError s f i
    | .running | .halted => s.setQp f i { q with irqEn := irq }
  else
    match q.state with
    | .disabled => s.setQp f i { ctrlSizes q val with irqEn := irq }
    | .draining => s.setQp f i { q with irqEn := irq }
    | .running | .halted =>
      flushQueue (s.setQp f i { q with irqEn := irq, enable := false, state := .draining, retry := none }) f i

def execQpEnable (fn : Fn) (qp : Fin 8) (val : U32) (s : State) : Out := .next (qpCtrlWrite s fn qp.val val)

def execQpDisable (fn : Fn) (qp : Fin 8) (val : U32) (s : State) : Out := .next (qpCtrlWrite s fn qp.val val)

/-! ### Ring heads and the log head (11 R362, 17 R483) -/

/-- The resource field of a ring (17 R475). -/
def ringRes (f : Fn) (n : Nat) : Nat := fnNum f * 256 + n

/-- A HEAD_HI write takes the new head, then the pending GAP records are written (11 R361, R362). -/
def ringHeadWrite (s : State) (f : Fn) (n : Nat) (hi : U32) : State :=
  let r := s.ring f n
  let head := r.headLo.toNat + hi.toNat * 2 ^ 32
  if r.state = .undefined then s
  else if r.head ≤ head ∧ head ≤ r.tail then ringGaps (s.setRing f n { r with head := head }) f n
  else raise s 0x0906 .c (worldOf f) (ringRes f n) 0

def execRingHeadWrite (fn : Fn) (ring : Fin 64) (hi : U32) (s : State) : Out := .next (ringHeadWrite s fn ring.val hi)

/-- A write of LOG_HEAD (17 R483). -/
def logHeadWrite (s : State) (f : Fn) (val : U32) : State :=
  let l := s.log f
  let head : U16 := val.setWidth 16
  if (head - l.head).toNat ≤ (l.tail - l.head).toNat then logRecover (s.setLog f { l with head := head }) f
  else s.setLog f { l with headErr := true }

def execLogHeadWrite (fn : Fn) (val : U32) (s : State) : Out := .next (logHeadWrite s fn val)

/-! ### Queue service (11 R345, R346, R348, R350) -/

/-- The function of a position of the service cycle: F0 QP0 to QP7, then F1 QP0 to QP7 (11 R350). -/
def visitFn (v : Nat) : Fn := if v % 16 < 8 then .f0 else .f1

/-- The outstanding count of a queue. -/
def outstanding (q : Qp) : Nat := (q.sqTail - q.sqHead).toNat

/-- The conditions of R350 under which a Clause is taken from a queue. A completion that waits for the standby belongs to a
Clause whose first completion is not written. -/
def eligible (s : State) (f : Fn) (i : Nat) : Bool :=
  let q := s.qp f i
  s.reach f && q.state == .running && outstanding q != 0 && q.waiting.isNone && (heldOf s f i).isEmpty &&
    cqUsed q + q.owed.length + 2 ≤ 2 * sqDepth q

/-- The host address of the slot of the next Clause: the n-th Clause since enabling lies in slot n mod D (11 R346). -/
def slotAddress (q : Qp) : Nat := q.sqBase.toNat + 64 * (q.sqHead.toNat % sqDepth q)

/-- The Armature reads the slot of the next Clause (11 R346). -/
def readSlot (s : State) (f : Fn) (i : Nat) : State := s.emit (.hostRead f (slotAddress (s.qp f i)) 64)

/-- Checks 2 to 4 of R345 on a Clause of a function; none when all pass. -/
def precheck (f : Fn) (bytes : List Byte) : Option Reply :=
  let op := field bytes 0 2
  match clauseFields op (field bytes 9 1) with
  | none => some (.mk' stBadOpcode 0 0 0 0)
  | some fields =>
    if field bytes 2 1 % 2 ≠ fnNum f then some (.mk' stWorldDenied 0 0 0 2)
    else if secureOnlyOp op && f == .f1 then some (.mk' stWorldDenied 0 0 0 0)
    else (rsvdByte fields bytes).map fun i => .mk' stBadParam 0 0 0 i

/-- The slot counts as taken: SQ_HEAD and the expected sequence number move on (11 R346, R348). -/
def takeSlot (s : State) (f : Fn) (i : Nat) : State :=
  let q := s.qp f i
  s.setQp f i { q with sqHead := q.sqHead + 1, expectSeq := q.expectSeq + 1, retry := none }

/-- A Clause whose sequence number matches is taken: it completes with the first check it fails, or the Armature runs it
(11 R345). -/
def takeClause (s : State) (f : Fn) (qp : Fin 8) (bytes : List Byte) : State :=
  let seq := (s.qp f qp.val).expectSeq
  let s1 := takeSlot s f qp.val
  let src : Src := { fn := f, qp := qp, seq := seq }
  match precheck f bytes with
  | some r => complete s1 src (field bytes 0 2) r none
  | none => { s1 with err := { s1.err with taken := some { src := src, bytes := bytes.take 64 } } }

/-- The slot read carries the expected sequence number (11 R346, R348). -/
def seqMatches (q : Qp) (slot : HRead) : Bool :=
  match slot with
  | some bytes => field bytes 4 4 == q.expectSeq.toNat
  | none => false

/-- A queue whose slot is being read again, if any. -/
def retrying (s : State) : Option (Fn × Fin 8) :=
  ([Fn.f0, Fn.f1].flatMap fun f => (List.finRange 8).map fun i => (f, i)).find? fun x =>
    (s.qp x.1 x.2.val).retry.isSome

/-- The Armature is between visits: it runs no Clause, re-reads no slot and waits for no acknowledgement of a Clause that it ran
(11 R350). -/
def idleArmature (s : State) : Bool :=
  s.err.taken.isNone && (retrying s).isNone && s.pair.heldCompletions.all fun h => h.waited

/-- A visit to the next queue of the cycle (11 R350): nothing while Clause service is stopped, or while the Armature is not
between visits. -/
def queueVisit (s : State) (slot : HRead) : State :=
  if !s.err.service || !idleArmature s then s
  else
    let f := visitFn s.err.visit
    let i : Fin 8 := Fin.ofNat 8 s.err.visit
    let s1 := { s with err := { s.err with visit := (s.err.visit + 1) % 16 } }
    if !eligible s f i.val then s1
    else
      let s2 := readSlot s1 f i.val
      let q := s2.qp f i.val
      if seqMatches q slot then takeClause s2 f i (slot.getD [])
      else s2.setQp f i.val { q with retry := some 0 }

def execQueueVisit (slot : HRead) (s : State) : Out := .next (queueVisit s slot)

/-- The queue halts with STALE_PACKET after the third re-read that differs (11 R348, R355, R562). -/
def stale (s : State) (f : Fn) (i : Fin 8) (slot : HRead) : State :=
  let q := s.qp f i.val
  let seqRead := match slot with
    | some bytes => (field bytes 4 4, s)
    | none => s.free (2 ^ 32)
  let s1 := takeSlot seqRead.2 f i.val
  let s2 := s1.setQp f i.val { s1.qp f i.val with state := .halted }
  let s3 := raise s2 0x0902 .l (worldOf f) (qpRes f i.val) q.expectSeq.toNat
  let s4 := raiseAttn s3 6
  let s5 := if f = .f1 then sendVector s4 .f1 1 else s4
  complete s5 { fn := f, qp := i, seq := q.expectSeq } 0 (.mk' stStalePacket 0 q.expectSeq.toNat seqRead.1 3) none

/-- A slot is read again 1 us after a mismatch (11 R348), while its function reaches the host (11 R339). -/
def clauseReread (s : State) (slot : HRead) : State :=
  if !s.err.service then s
  else
    match retrying s with
    | none => s
    | some (f, i) =>
      let q := s.qp f i.val
      let n := q.retry.getD 0 + 1
      let s1 := (readSlot s f i.val).setQp f i.val { q with rereads := q.rereads + 1, retry := some n }
      if !s.reach f then s
      else if seqMatches q slot then
        takeClause (raise s1 0x0901 .t (worldOf f) (qpRes f i.val) q.expectSeq.toNat) f i (slot.getD [])
      else if n ≥ 3 then stale s1 f i slot
      else s1

def execClauseReread (slot : HRead) (s : State) : Out := .next (clauseReread s slot)

/-- A quota cut whose selected products have all stopped owes its follow entry (16 R466). -/
def cutFollows (s : State) (f : Fn) (i : Nat) : State :=
  let due := s.world.cuts.filter fun c => c.selected.isEmpty && c.src.fn == f && c.src.qp.val == i
  due.foldl (fun t c =>
    followEntry { t with world := { t.world with cuts := t.world.cuts.filter (· != c) } } c.src 0x0A02 c.item c.count
      (usage t c.item).ceil.toNat) s

/-- A follow entry that has fallen due is written, once Clause service runs (11 R353, 17 R488). -/
def followEntryWrite (s : State) (f : Fn) (i : Nat) : State := if s.err.service then flushQueue (cutFollows s f i) f i else s

def execFollowEntryWrite (fn : Fn) (qp : Fin 8) (s : State) : Out := .next (followEntryWrite s fn qp.val)

/-! ### The host link (11 R337, R339, R342) -/

/-- A rate a module can train at (11 R336); any other leaves it out of service. -/
def trainedRate (gts : Nat) : Nat := if gts = 32 ∨ gts = 24 ∨ gts = 16 then gts else 0

/-- A fall-back or a loss of one module: a class L record (11 R337). -/
def moduleRecord (s : State) (m gts : Nat) : State :=
  if gts < 32 then raiseAttn (raiseDev s 0x0004 .l m 0) 9 else s

/-- What waits for the host goes out: owed completions and pending messages (11 R339). -/
def hostReturns (s : State) (f : Fn) : State := sendPending (flushQueues s f) f

/-- The link comes up where a module is in service (11 R339). -/
def linkUp (s : State) : State :=
  if s.link.mod0 + s.link.mod1 = 0 || s.link.up then s
  else hostReturns (hostReturns { s with link := { s.link with up := true } } .f0) .f1

/-- The host link goes down (11 R339). -/
def linkDown (s : State) : State :=
  if s.link.up then raiseDev { s with link := { s.link with up := false } } 0x0005 .l 0 0 else s

/-- The modules train, each at 32 GT/s, at a fall-back rate, or not at all (11 R336, R337). With no module in service the link is
down. -/
def linkTrain (s : State) (gts0 gts1 : Nat) : State :=
  let g0 := trainedRate gts0
  let g1 := trainedRate gts1
  let link := { s.link with mod0 := g0, mod1 := g1, trained := s.link.trained || g0 + g1 != 0 }
  let s1 := moduleRecord (moduleRecord { s with link := link } 0 g0) 1 g1
  if g0 + g1 = 0 then linkDown s1 else linkUp s1

def execUcieLinkTrain (gts0 gts1 : Nat) (s : State) : Out := .next (linkTrain s gts0 gts1)

def execUcieLinkDown (s : State) : Out := .next (linkDown s)

def execUcieLinkUp (s : State) : Out := .next (linkUp s)

/-- Bus Master Enable of a function changes (11 R339). -/
def busMaster (s : State) (f : Fn) (on : Bool) : State :=
  let x := s.fn f
  if x.bme = on then s
  else
    let s1 := s.setFn f { x with bme := on }
    if on then hostReturns s1 f else raiseDev s1 0x0005 .l 0 0

def execBusMasterEnableChange (fn : Fn) (on : Bool) (s : State) : Out := .next (busMaster s fn on)

/-! ### Delivery (11 R360, R364) -/

/-- The next record of a destination is taken or declined there. A record that waits for a ring needs its product's
earlier ones gone, which the order of offers gives. -/
def execRingRecordOffer (dest : Dest) (s : State) : Out := .next (takeOffer s dest)

/-- The ring declines the first record that has waited 2 ms at the host link since it was offered there (11 R360). -/
def ringDeclineTimeout (s : State) (d : Dest) : State :=
  match d, expiredOffer s d with
  | .ring f n, some (o, rest) => ringDecline { s with offers := startNext rest d o.pid s.now } f n.val o
  | _, _ => s

def execRingDeclineTimeout (dest : Dest) (s : State) : Out := .next (ringDeclineTimeout s dest)

/-- The coalesce time expires: one message when one is owed (11 R364). -/
def ringCoalesce (s : State) (f : Fn) (n : Nat) : State :=
  let r := s.ring f n
  match r.sinceTime with
  | some t =>
    if r.since > 0 ∧ s.now ≥ t + r.timeUs * micros then
      sendVector (s.setRing f n { r with since := 0, sinceTime := none }) f r.vector
    else s
  | none => s

def execRingCoalesceTimeout (fn : Fn) (ring : Fin 64) (s : State) : Out := .next (ringCoalesce s fn ring.val)

end Sys2Proof.Machine
end

