-- ==== Sys2Proof/Machine/Sys.lean ====
section
/-! DEFINITION. The SYS Clauses (11 R358, R367, R368, 19 R545). -/

namespace Sys2Proof.Machine

def execSysNop (src : Src) (s : State) : Out := runClause (.sysNop src) s fun s => done s

/-- What the configuration space of each function reports: vendor, device, revision ID, programming interface, subclass and class
code (00 R2, 11 R340). No command of the table reads it. -/
def functionIdentity : List Byte :=
  leBytes 2 Config.vendorId.toNat ++ leBytes 2 0x9400 ++ leBytes 1 Config.siliconRevision.toNat ++ leBytes 1 0x00 ++
    leBytes 1 0x80 ++ leBytes 1 0x11

/-- The identity block (19 R545). -/
def identityBlock (s : State) : List Byte :=
  let b := s.boot
  leBytes 2 Config.vendorId.toNat ++ leBytes 2 0x9400 ++ leBytes 1 Config.siliconRevision.toNat ++
    leBytes 1 Config.romVersion.toNat ++ zeros 2 ++ leBytes 8 Config.serial.toNat ++
    leBytes 4 (slotVersion s b.runSlot) ++ leBytes 4 (slotVersion s (1 - b.runSlot)) ++
    leBytes 1 (b.runSlot % 2 + 2 * b2n b.trial + 4 * (b.trialCount % 4)) ++ leBytes 1 b.lastResult ++
    leBytes 2 b.maqFormat ++ leBytes 2 b.setFormat ++ zeros 2 ++
    leBytes 1 (b2n b.keyHash.isSome + 2 * b2n (b.mode == .recovery)) ++ zeros 31

def execSysIdentify (src : Src) (buf : HBuf) (s : State) : Out :=
  runClause (.sysIdentify src buf) s fun s => answerQuery s src buf (identityBlock s)

/-- The products of a function that a ring serves, with the ring's route in effect or due (11 R358). -/
def ringProducts (s : State) (f : Fn) (n : Nat) : List Product :=
  (s.products.map Prod.snd).filter fun p => p.fn == f &&
    (routesNamed p).any fun r => routeHasRing r && routeRing r == n

/-- SYS_RING_DEFINE (11 R358, R368): head and tail start at 0, 0 is written to the tail write-back address and the ring
becomes ACTIVE. Declines recorded before are kept. -/
def ringDefine (s : State) (f : Fn) (ring vector coalesce timeUs : Nat) (wb : U64) (k : Nat) (base : U64) : Result := do
  refuseIf (ring ≥ 64) stBadParam 8
  refuseIf (vector < 16 || vector ≥ 64) stBadParam 9
  refuseIf (coalesce == 0) stBadParam 10
  refuseIf (timeUs > 1000000) stBadParam 12
  refuseIf (wb.toNat % 8 != 0) stBadParam 16
  refuseIf (k < 16 || k > 32) stBadParam 24
  refuseIf (base.toNat % 4096 != 0) stBadParam 48
  refuseIf ((ringProducts s f ring).any fun p => 2 ^ k < 2 * p.maxRecord) stBadParam 24
  let r := s.ring f ring
  refuseIf (r.state == .active) stBusy 8
  let s1 := s.setRing f ring { r with state := .active, base := base, k := k, vector := vector, coalesce := coalesce,
                                      timeUs := timeUs, wbAddr := wb, head := 0, tail := 0, headLo := 0, since := 0,
                                      sinceTime := none, declining := false }
  done (s1.emit (.hostWrite f wb.toNat (zeros 8)))

def execSysRingDefine (src : Src) (ring vector : U8) (coalesce : U16) (timeUs : U32) (wbAddr : U64) (k : U8) (base : U64)
    (s : State) : Out :=
  runClause (.sysRingDefine src ring vector coalesce timeUs wbAddr k base) s fun s =>
    ringDefine s src.fn ring.toNat vector.toNat coalesce.toNat timeUs.toNat wbAddr k.toNat base

/-- SYS_RING_RELEASE (11 R358, R368): every pending decline is discarded. -/
def ringRelease (s : State) (f : Fn) (ring : Nat) : Result := do
  refuseIf (ring ≥ 64) stBadParam 8
  let r := s.ring f ring
  if r.state = .undefined then done s
  else
    refuseIf ((ringProducts s f ring) != []) stBusy 8
    done (s.setRing f ring { r with state := .undefined, declines := [], declining := false, since := 0,
                                    sinceTime := none })

def execSysRingRelease (src : Src) (ring : U8) (s : State) : Out :=
  runClause (.sysRingRelease src ring) s fun s => ringRelease s src.fn ring.toNat

/-- Demand of products on a term in the units of the query (11 R356). `dev` is false for a world's own demand. -/
def queryDemand (s : State) (w : Option World) (term : Nat) : Rat :=
  let ps := productsIn s w
  let bytesOf (t : Nat) : Rat :=
    (sumNat ((s.hbm.allocs.filter fun a => allocTerm a.kind == t && (match w with
      | some x => a.world == x
      | none => true)).map Alloc.size) : Nat)
  match term with
  | 1 => total ps Demand.relief
  | 2 => ingestOf s (productsIn s none) fun d => match w with
      | some x => d.world == x
      | none => true
  | 3 | 4 | 5 => bytesOf term
  | 6 => total ps Demand.hbm
  | 7 => total ps Demand.frieze
  | 8 => total ps fun d => (d.delay : Nat)
  | 9 => total ps fun d => (d.beams : Nat)
  | 10 => total ps fun d => (d.chains : Nat)
  | 11 => total ps deliveryOf
  | _ => allEgress ps

/-- The limit of a term (11 R356, R368). -/
def queryLimit (s : State) (term : Nat) : Rat :=
  match term with
  | 1 => reliefLimit s
  | 2 => 4608000000000
  | 3 | 4 | 5 => (s.hbm.capacity * granule : Nat)
  | 6 => hbmPeak (stacksInService s) s.hbm.rate * 4 / 5
  | 7 => 81920000000000
  | 8 => (delayLimit s : Nat)
  | 9 => 256
  | 10 => 64
  | 11 => deliveryLimit s
  | _ => (96000000000 * sumNat (s.osl.txGroups.map fun g => groupLanes g.code) : Nat)

/-- One 24-byte entry of a lane group (11 R368). -/
def groupEntry (s : State) (dir : Nat) (g : LaneGroup) : List Byte :=
  let ps := productsIn s none
  let d := if dir = 0 then groupIngest s ps g.first else groupEgress s ps g.first
  leBytes 1 g.first ++ leBytes 1 dir ++ leBytes 1 g.code ++ leBytes 1 (worldBit g.world) ++ zeros 4 ++
    leBytes 8 d.ceil.toNat ++ leBytes 8 (96000000000 * groupLanes g.code)

/-- The lane groups a function sees, in ascending first lane, receive before transmit (11 R368). -/
def groupEntries (s : State) (f : Fn) : List (Nat × LaneGroup) :=
  let see (g : LaneGroup) : Bool := f == .f0 || g.world == .nonsecure
  (List.range 48).flatMap fun l =>
    ((s.osl.rxGroups.filter fun g => g.first == l && see g).map fun g => (0, g)) ++
      ((s.osl.txGroups.filter fun g => g.first == l && see g).map fun g => (1, g))

/-- The result of SYS_ENVELOPE_QUERY (11 R368). -/
def envelopeBlock (s : State) (f : Fn) : List Byte :=
  let triple (t : Nat) : List Byte :=
    leBytes 8 (if f = .f1 then 0 else (queryDemand s none t).ceil.toNat) ++
      leBytes 8 (queryDemand s (some (worldOf f)) t).ceil.toNat ++ leBytes 8 (queryLimit s t).floor.toNat
  let gs := groupEntries s f
  ((List.range 12).flatMap fun i => triple (i + 1)) ++ leBytes 4 gs.length ++ zeros 4 ++
    gs.flatMap fun x => groupEntry s x.1 x.2

def execSysEnvelopeQuery (src : Src) (buf : HBuf) (s : State) : Out :=
  runClause (.sysEnvelopeQuery src buf) s fun s => answerQuery s src buf (envelopeBlock s src.fn)

end Sys2Proof.Machine
end

