-- ==== Sys2Proof/Machine/Plinth.lean ====
section
/-! DEFINITION. The Plinth's clock (13 R389). -/

namespace Sys2Proof.Machine

/-- One PCLK cycle: the increment is added to the fraction, and 10^9 ns carry into a second (13 R389). -/
def plinthAdd (p : Plinth) : Plinth :=
  let v := p.ns.toNat * 2 ^ 40 + p.sub.toNat + p.inc.toNat
  let ns := v / 2 ^ 40
  if ns ≥ 1000000000 then
    { p with sec := p.sec + 1, ns := BitVec.ofNat 32 (ns - 1000000000), sub := BitVec.ofNat 40 v }
  else { p with ns := BitVec.ofNat 32 ns, sub := BitVec.ofNat 40 v }

/-- What a step does on an empty queue: one cycle of PCLK (log 2). In reset the Plinth stands at its reset value. -/
def tick (s : State) : State := if s.power.inReset then s else { s with plinth := plinthAdd s.plinth }

end Sys2Proof.Machine
end

