-- ==== Sys2Proof/Machine/Lanes.lean ====
section
/-! DEFINITION. Lane groups, bring-up, sleep states and the LANE Clauses (02 R45 to R65, R70), and DIAG_LOOPBACK (17 R495). -/

namespace Sys2Proof.Machine

/-! ### Groups -/

/-- The group of a direction with a first lane: 0 receive, 1 transmit. -/
def findGroup (s : State) (dir first : Nat) : Option LaneGroup :=
  (if dir = 0 then s.osl.rxGroups else s.osl.txGroups).find? fun g => g.first == first

/-- The lanes of a group. -/
def groupLaneList (g : LaneGroup) : List Nat := (List.range (groupLanes g.code)).map (· + g.first)

/-- The group of a direction that a lane belongs to. -/
def groupOfLane (s : State) (dir l : Nat) : Option LaneGroup :=
  (if dir = 0 then s.osl.rxGroups else s.osl.txGroups).find? fun g => g.first ≤ l && l < g.first + groupLanes g.code

/-- Replace the receive group with the same first lane. -/
def setRxGroup (s : State) (g : LaneGroup) : State :=
  { s with osl := { s.osl with rxGroups := putBy LaneGroup.first g s.osl.rxGroups } }

/-- The world of the receive side of a lane; the mirror lanes are secure (02 R51). -/
def rxWorld (s : State) (l : Nat) : World := vget s.world.laneRx l .secure

/-- The world of the transmit side of a lane. -/
def txWorld (s : State) (l : Nat) : World := vget s.world.laneTx l .secure

/-- An admitted product that is not suspended uses a stream bound to the receive group (02 R64). -/
def groupUsed (s : State) (first : Nat) : Bool :=
  (definedStreams s).any fun d => d.first == first && pairsUsed d (usesOf (productsIn s none)) > 0

/-- An egress stream is bound to the transmit group (02 R64). -/
def groupBound (s : State) (first : Nat) : Bool := s.osl.egress.toList.any fun e => e.group == some first

/-- The conditions of R64 on one direction of a group. -/
def groupBusy (s : State) (dir first : Nat) : Bool := if dir = 0 then groupUsed s first else groupBound s first

/-! ### Trim runs of a lane (15 R438 to R440) -/

def State.laneTrim (s : State) (l : Nat) : LaneTrim := vget s.trims.lanes l Reset.laneTrim

def State.setLaneTrim (s : State) (l : Nat) (t : LaneTrim) : State :=
  { s with trims := { s.trims with lanes := vset s.trims.lanes l t } }

/-- A lane trim run starts (15 R440), with LANE_STATUS.STALE set. -/
def startTrim (s : State) (l : Nat) (bringUp : Bool) : State :=
  let t := s.laneTrim l
  let run : TrimRun := { index := 0, dir := 1, steps := 0, best := none, trial := false, startCodes := t.codes,
                         bringUp := bringUp }
  (s.setLaneTrim l { t with run := some run, pending := false }).setLane l { s.lane l with stale := true }

/-- A run ends without finishing: every value returns to its code at the start of the run (15 R439). -/
def dropTrim (s : State) (l : Nat) : State :=
  let t := s.laneTrim l
  match t.run with
  | some r => (s.setLaneTrim l { t with run := none, codes := r.startCodes }).setLane l { s.lane l with stale := false }
  | none => s

/-- OFF loses the trims (02 R61). -/
def loseTrims (s : State) (l : Nat) : State :=
  let s1 := dropTrim s l
  let t := s1.laneTrim l
  s1.setLaneTrim l { t with codes := Reset.laneTrim.codes, valid := false, pending := false }

/-! ### Bring-up (02 R59, R60) -/

/-- A receive lane that has not locked: what it knew of the signal is gone. -/
def unlocked (l : Lane) : Lane := { l with locked := false, markers := 0, misses := 0, history := [], disagree := 0, tried := 0 }

/-- Step 1 of receive bring-up. -/
def rxStart (s : State) (l : Nat) : State :=
  s.setLane l { unlocked (s.lane l) with rx := .pll, fails := 0, retryDue := false, bondRetry := false }

/-- Step 1 of receive bring-up of a lane whose group has just been defined: it has not locked since (02 R52). -/
def rxDefine (s : State) (l : Nat) : State :=
  rxStart (s.setLane l { s.lane l with hyp := 0, lastHyp := none, member := none, noLock := false }) l

/-- Step 1 of transmit bring-up: y(-1) is 0 at the start of transmission (02 R33). -/
def txStart (s : State) (l : Nat) : State := s.setLane l { s.lane l with tx := .pll, txPrev := 0, txSleep := none }

/-- Step 1 of transmit bring-up of a lane whose group has just been defined. A lane that still announces OFF for the group it
left goes OFF first (02 R62; log 19). -/
def txDefine (s : State) (l : Nat) : State :=
  let x := s.lane l
  if x.tx = .active ∧ x.txSleep.isSome then s.setLane l { x with txOps := x.txOps ++ [0] } else txStart s l

/-- Step 4: marker search, from the hypothesis under which the lane last locked (02 R52). -/
def startSearch (s : State) (l : Nat) : State :=
  let x := s.lane l
  s.setLane l { unlocked x with rx := .search, hyp := x.lastHyp.getD 0 }

/-- Step 3: adaptation from the codes held, or from those restored for this bring-up, with a lane trim run (15 R440, R452). -/
def startAdapt (s : State) (l : Nat) : State :=
  let t := s.laneTrim l
  let s1 := s.setLaneTrim l { t with codes := t.stored.getD t.codes, stored := none }
  startTrim (s1.setLane l { s1.lane l with rx := .adapt }) l true

/-! ### Sleep transitions (02 R61 to R65) -/

/-- The receive side of a lane is in a sleep state. -/
def rxAsleep (x : Lane) : Bool := x.rx == .off || x.rx == .l1 || x.rx == .l2

/-- The transmit side of a lane is in a sleep state. -/
def txAsleep (x : Lane) : Bool := x.tx == .off || x.tx == .l1 || x.tx == .l2

/-- The receive side enters a state: 1 L1, 2 L2, 3 OFF. Its member mapping is found again after the wake (02 R46; log 18). -/
def rxEnter (s : State) (l k : Nat) : State :=
  let s1 := if k = 3 then loseTrims s l else dropTrim s l
  s1.setLane l { unlocked (s1.lane l) with member := none,
                                           rx := if k = 1 then .l1 else if k = 2 then .l2 else .off,
                                           fromL2 := false, retryDue := false, bondRetry := false }

/-- The transmit side enters a state: 1 L1, 2 L2, 3 OFF. -/
def txEnter (s : State) (l k : Nat) : State :=
  s.setLane l { s.lane l with tx := if k = 1 then .l1 else if k = 2 then .l2 else .off, txSleep := none }

/-- The receive side leaves its sleep state: from L1 to marker search, from L2 and OFF through bring-up (02 R61). A
trigger that fired in L1 runs its trim (15 R440). -/
def rxWake (s : State) (l : Nat) : State :=
  match (s.lane l).rx with
  | .l1 =>
    let s1 := startSearch (s.setLane l { s.lane l with fails := 0 }) l
    if (s1.laneTrim l).pending then startTrim s1 l false else s1
  | .l2 => let s1 := rxStart s l; s1.setLane l { s1.lane l with fromL2 := true }
  | .off => rxStart s l
  | _ => s

/-- The receive side's wake is finished: the lane has locked, or its attempt has failed (02 R60, R65). -/
def rxAwake (x : Lane) : Bool := !rxAsleep x && (x.locked || x.rx == .up || x.fails > 0)

/-- The oldest receive transition: begun when it can be, and finished when it is done; a sleep waits for a bring-up in
progress (02 R65). The flag says it has finished. -/
def rxAdvance (s : State) (l : Nat) : State × Bool :=
  match (s.lane l).rxOps with
  | [] => (s, false)
  | 0 :: rest =>
    let s1 := if rxAsleep (s.lane l) then rxWake s l else s
    let x := s1.lane l
    if rxAwake x then (s1.setLane l { x with rxOps := rest, rxDone := x.rxDone + 1 }, true) else (s1, false)
  | k :: rest =>
    if rxAsleep (s.lane l) || rxAwake (s.lane l) then
      let s1 := rxEnter s l k
      let x := s1.lane l
      (s1.setLane l { x with rxOps := rest, rxDone := x.rxDone + 1 }, true)
    else (s, false)

/-- The oldest transmit transition. A sleep announces at least 16 frames first; a wake owes 64 IDLE frames (02 R62) and goes
through the PLL, which keeps running in L1 only (02 R61). -/
def txAdvance (s : State) (l : Nat) : State × Bool :=
  let x := s.lane l
  match x.txOps with
  | [] => (s, false)
  | 0 :: rest =>
    if txAsleep x then
      let s1 := if x.tx = .l1 then s.setLane l { x with tx := .active, txSleep := none } else txStart s l
      (s1.setLane l { s1.lane l with idleOwed := max (s1.lane l).idleOwed 64 }, false)
    else if x.tx = .active then (s.setLane l { x with txOps := rest, txDone := x.txDone + 1 }, true)
    else (s, false)
  | k :: rest =>
    if txAsleep x then
      let s1 := txEnter s l k
      (s1.setLane l { s1.lane l with txOps := rest, txDone := x.txDone + 1 }, true)
    else if x.tx = .active then
      match x.txSleep with
      | none => (s.setLane l { x with txSleep := some 16 }, false)
      | some 0 =>
        let s1 := txEnter s l k
        (s1.setLane l { s1.lane l with txOps := rest, txDone := x.txDone + 1 }, true)
      | some _ => (s, false)
    else (s, false)

/-- Run the transitions of a lane as far as they go. -/
def rxSettle (s : State) (l : Nat) : State :=
  (List.range ((s.lane l).rxOps.length + 1)).foldl (fun t _ => (rxAdvance t l).1) s

def txSettle (s : State) (l : Nat) : State :=
  (List.range ((s.lane l).txOps.length + 1)).foldl (fun t _ => (txAdvance t l).1) s

/-- A transition joins those of a lane; gives its number. -/
def addOp (s : State) (dir l k : Nat) : State × Nat :=
  let x := s.lane l
  if dir = 0 then
    (rxSettle (s.setLane l { x with rxOps := x.rxOps ++ [k] }) l, x.rxDone + x.rxOps.length + 1)
  else (txSettle (s.setLane l { x with txOps := x.txOps ++ [k] }) l, x.txDone + x.txOps.length + 1)

/-- A transition on every lane of a group; gives each lane and the transition's number there. -/
def addOps (s : State) (dir k : Nat) (lanes : List Nat) : State × List Nat :=
  lanes.foldl (fun (t, l) n => let r := addOp t dir n k
                               (r.1, l ++ [n, r.2])) (s, [])

/-- The lanes and numbers of a wait: every transition is finished. -/
def opsDone (s : State) (dir : Nat) : List Nat → Bool
  | n :: k :: t => (if dir = 0 then (s.lane n).rxDone else (s.lane n).txDone) ≥ k && opsDone s dir t
  | _ => true

/-- What a waiting LANE_GROUP_DEFINE waits for: every member has reached step 3 or failed its first attempt (02 R70). -/
def stepThree (s : State) (dir l : Nat) : Bool :=
  let x := s.lane l
  if dir = 0 then x.fails > 0 || x.rx == .adapt || x.rx == .search || x.rx == .up || x.locked || rxAsleep x
  else (x.tx == .active && !x.txOps.contains 3) || txAsleep x

/-! ### LANE Clauses (02 R70) -/

/-- The group a Clause names: BAD_PARAM unless its direction is 0 or 1 and the group is defined. -/
def namedGroup (s : State) (first dir : Nat) : Except Reply LaneGroup := do
  let g := findGroup s dir first
  refuseIf (g.isNone && dir ≤ 1 || first ≥ 48) stBadParam 8
  refuseIf (dir > 1) stBadParam 10
  orRefuse g stBadParam 8

/-- The group belongs to the submitting world. -/
def groupWorld (f : Fn) (g : LaneGroup) : Except Reply Unit := refuseIf (g.world != worldOf f) stWorldDenied 8

/-- LANE_GROUP_DEFINE. -/
def laneDefine (s : State) (f : Fn) (first code dir : Nat) : Result := do
  refuseIf (first ≥ 48) stBadParam 8
  refuseIf (code > 3) stBadParam 9
  refuseIf (dir > 1) stBadParam 10
  let g : LaneGroup := { first := first, code := code, world := worldOf f, bondReported := false, up := false }
  let lanes := groupLaneList g
  refuseIf (first % groupLanes code != 0 || lanes.any fun l => (groupOfLane s dir l).isSome) stBadParam 8
  refuseIf (lanes.any fun l => (if dir = 0 then rxWorld s l else txWorld s l) != worldOf f) stWorldDenied 8
  let s1 := if dir = 0 then { s with osl := { s.osl with rxGroups := s.osl.rxGroups ++ [g] } }
    else { s with osl := { s.osl with txGroups := s.osl.txGroups ++ [g] } }
  let s2 := lanes.foldl (fun t l => if dir = 0 then rxDefine t l else txDefine t l) s1
  envelopeCheck s s2
  waits s2 (dir :: lanes)

def execLaneGroupDefine (src : Src) (first code dir : U8) (s : State) : Out :=
  runClause (.laneGroupDefine src first code dir) s fun s => laneDefine s src.fn first.toNat code.toNat dir.toNat

/-- The receive group of a lane; the mirror link is one group of four lanes (02 R51). -/
def rxGroupOf (s : State) (l : Nat) : Option LaneGroup :=
  if l < 48 then groupOfLane s 0 l
  else some { first := 48, code := 2, world := .secure, bondReported := s.osl.mirrorBond, up := s.osl.mirrorUp }

/-- Whether BOND_ORDER has been reported for the group, and whether all its members are UP (02 R49, R59). -/
def setBond (s : State) (g : LaneGroup) (reported up : Bool) : State :=
  if g.first < 48 then setRxGroup s { g with bondReported := reported, up := up }
  else { s with osl := { s.osl with mirrorBond := reported, mirrorUp := up } }

/-- A lane's direction is turned OFF with its group; transitions still waiting there are over. An ACTIVE transmit side first
announces OFF in its last 16 frames (02 R62). -/
def laneOff (s : State) (dir l : Nat) : State :=
  if dir = 0 then
    let s1 := rxEnter s l 3
    let x := s1.lane l
    s1.setLane l { x with member := none, degWindow := false, degLoss := false, peerSleep := false, noLock := false,
                          fails := 0, rxDone := x.rxDone + x.rxOps.length, rxOps := [] }
  else
    let x := s.lane l
    let ended : Lane := { x with txDone := x.txDone + x.txOps.length, txOps := [], idleOwed := 0, precodeSwitch := none }
    if x.tx = .active ∧ x.loopback ≠ 2 then s.setLane l { ended with txOps := [3], txSleep := some 16 }
    else txEnter (s.setLane l ended) l 3

/-- LANE_GROUP_RELEASE. -/
def laneRelease (s : State) (f : Fn) (first dir : Nat) : Result := do
  let g ← namedGroup s first dir
  groupWorld f g
  refuseIf (groupBusy s dir first) stBusy 8
  let keep (l : List LaneGroup) : List LaneGroup := l.filter fun x => x.first != first
  let s1 := if dir = 0 then { s with osl := { s.osl with rxGroups := keep s.osl.rxGroups } }
    else { s with osl := { s.osl with txGroups := keep s.osl.txGroups,
                                      frames := s.osl.frames.filter fun x => x.group != first } }
  envelopeCheck s s1
  done ((groupLaneList g).foldl (fun t l => laneOff t dir l) s1)

def execLaneGroupRelease (src : Src) (first dir : U8) (s : State) : Out :=
  runClause (.laneGroupRelease src first dir) s fun s => laneRelease s src.fn first.toNat dir.toNat

/-- LANE_SLEEP and LANE_WAKE: the transition on every lane of the group; the Clause completes when its own is finished
(02 R64, R65). A receive group put to sleep is no longer UP (log 18). -/
def laneTransition (s : State) (f : Fn) (first dir k : Nat) (bad : Bool) : Result := do
  let g ← namedGroup s first dir
  refuseIf bad stBadParam 11
  groupWorld f g
  refuseIf (k != 0 && groupBusy s dir first) stBusy 8
  envelopeCheck s s
  let s1 := if dir = 0 && k != 0 then setRxGroup s { g with up := false } else s
  let r := addOps s1 dir k (groupLaneList g)
  waits r.1 (dir :: r.2)

def execLaneSleep (src : Src) (first dir state : U8) (s : State) : Out :=
  runClause (.laneSleep src first dir state) s fun s =>
    laneTransition s src.fn first.toNat dir.toNat state.toNat (state.toNat == 0 || state.toNat > 3)

def execLaneWake (src : Src) (first dir : U8) (s : State) : Out :=
  runClause (.laneWake src first dir) s fun s => laneTransition s src.fn first.toNat dir.toNat 0 false

/-- LANE_TX_PRECODE: the switch takes effect after 16 IDLE frames (02 R70). -/
def laneTxPrecode (s : State) (f : Fn) (first enable : Nat) : Result := do
  let g ← namedGroup s first 1
  refuseIf (enable > 1) stBadParam 11
  groupWorld f g
  done ((groupLaneList g).foldl (fun t l => t.setLane l { t.lane l with precodeSwitch := some (enable == 1, 16) }) s)

def execLaneTxPrecode (src : Src) (first enable : U8) (s : State) : Out :=
  runClause (.laneTxPrecode src first enable) s fun s => laneTxPrecode s src.fn first.toNat enable.toNat

/-- A threshold from the next window on: the one that the next frame begins where none is in progress (02 R56). -/
def setThreshold (x : Lane) (threshold : U32) : Lane :=
  if x.winFrames = 0 then { x with threshold := threshold, nextThreshold := none }
  else { x with nextThreshold := some threshold }

/-- LANE_SET_THRESHOLDS: from 1,024 to 1,048,576, from the next window (02 R56). -/
def laneThresholds (s : State) (f : Fn) (first : Nat) (threshold : U32) : Result := do
  let g ← namedGroup s first 0
  refuseIf (threshold.toNat < 1024 || threshold.toNat > 1048576) stBadParam 12
  groupWorld f g
  done ((groupLaneList g).foldl (fun t l => t.setLane l (setThreshold (t.lane l) threshold)) s)

def execLaneSetThresholds (src : Src) (first : U8) (threshold : U32) (s : State) : Out :=
  runClause (.laneSetThresholds src first threshold) s fun s => laneThresholds s src.fn first.toNat threshold

/-- LANE_EGRESS_BIND (02 R70): a rebinding takes effect at the boundary of the last record handed to the old group (log 29). -/
def laneEgressBind (s : State) (f : Fn) (first egress : Nat) : Result := do
  let g ← namedGroup s first 1
  groupWorld f g
  refuseIf (vget s.world.egress egress .secure != worldOf f) stWorldDenied 9
  let e := vget s.osl.egress egress Reset.egress
  let s1 := { s with osl := { s.osl with egress := vset s.osl.egress egress { e with group := some first } } }
  envelopeCheck s s1
  if e.group.isNone || e.group == some first then done s1 else deferred s1 6 e.pos

def execLaneEgressBind (src : Src) (first egress : U8) (s : State) : Out :=
  runClause (.laneEgressBind src first egress) s fun s => laneEgressBind s src.fn first.toNat egress.toNat

/-! ### DIAG_LOOPBACK (17 R495) -/

/-- The lanes of a group leave loopback: bring-up runs on each side that belongs to a group. The search starts with the
hypothesis that locked last (02 R52). -/
def loopOff (s : State) (l : Nat) : State :=
  let s1 := s.setLane l { s.lane l with loopback := 0, member := none }
  let s2 := if (groupOfLane s1 0 l).isSome then rxStart s1 l else s1
  if (groupOfLane s2 1 l).isSome then txStart s2 l else s2

/-- DIAG_LOOPBACK: 0 off, 1 near-end, 2 far-end. -/
def diagLoopback (s : State) (f : Fn) (first dir mode : Nat) : Result := do
  let g ← namedGroup s first dir
  refuseIf (mode > 2) stBadParam 11
  groupWorld f g
  let lanes := groupLaneList g
  let used (d : Nat) : Bool := lanes.any fun l => (groupOfLane s d l).any fun x => groupBusy s d x.first
  refuseIf (used 0 || used 1) stBusy 8
  if mode = 0 then done (lanes.foldl loopOff s)
  else done (lanes.foldl (fun t l => t.setLane l { t.lane l with loopback := mode }) s)

def execDiagLoopback (src : Src) (first dir mode : U8) (s : State) : Out :=
  runClause (.diagLoopback src first dir mode) s fun s => diagLoopback s src.fn first.toNat dir.toNat mode.toNat

/-! ### Bring-up events -/

/-- A receive attempt fails (02 R60): after three a class L record, unless the source announced sleep; the retry is due. -/
def attemptFailed (s : State) (l : Nat) : State :=
  let x := s.lane l
  let tell := x.fails + 1 ≥ 3 && !x.noLock && !x.peerSleep
  let s1 := s.setLane l { unlocked x with fails := x.fails + 1, retryDue := true, noLock := x.noLock || tell }
  rxSettle (if tell then raise s1 0x0103 .l (rxWorld s l) l 0 else s1) l

/-- A receive lane is in one of the steps of its bring-up. -/
def bringingUp (x : Lane) : Bool := x.rx == .pll || x.rx == .cdr || x.rx == .adapt || x.rx == .search

/-- A step of bring-up exceeds its limit, or no valid signal is there (02 R60). -/
def bringupTimeout (s : State) (l : Nat) : State :=
  let x := s.lane l
  if bringingUp x && !x.retryDue then attemptFailed (dropTrim s l) l else s

def execBringupStepTimeout (lane : Fin 52) (s : State) : Out := .next (bringupTimeout s lane.val)

/-- 100 ms after the failure the attempt repeats: from step 2, or from marker search (02 R49, R60). -/
def bringupRetry (s : State) (l : Nat) : State :=
  let x := s.lane l
  if !x.retryDue then s
  else
    let s1 := s.setLane l { x with retryDue := false, bondRetry := false }
    if x.bondRetry then startSearch s1 l else s1.setLane l { unlocked (s1.lane l) with rx := .cdr }

def execBringupRetry (lane : Fin 52) (s : State) : Out := .next (bringupRetry s lane.val)

/-- A stage of bring-up is done: PLL, CDR, adaptation with its trim run over, or the transmit PLL (02 R59). -/
def stageDone (s : State) (l : Nat) (tx : Bool) : State :=
  let x := s.lane l
  if tx then
    if x.tx = .pll then txSettle (s.setLane l { x with tx := .active }) l else s
  else if x.retryDue then s
  else
    match x.rx with
    | .pll => s.setLane l { x with rx := .cdr }
    | .cdr => startAdapt s l
    | .adapt => if (s.laneTrim l).run.isNone then startSearch (s.setLane l { x with fromL2 := false }) l else s
    | _ => s

def execBringupStageDone (lane : Fin 52) (tx : Bool) (s : State) : Out := .next (stageDone s lane.val tx)

/-! ### Search and lock (02 R52 to R54, R57) -/

/-- After 64 frame times the search moves to the next hypothesis (02 R52). -/
def nextHypothesis (s : State) (l : Nat) : State :=
  let x := s.lane l
  if x.rx = .search ∧ !x.locked ∧ !x.retryDue then s.setLane l { unlocked x with hyp := (x.hyp + 1) % 4 } else s

def execMarkerHypothesisTimeout (lane : Fin 52) (s : State) : Out := .next (nextHypothesis s lane.val)

/-- Frame lock is declared: four consecutive markers have been seen (02 R53). PEER_SLEEP clears (02 R63). -/
def frameLock (s : State) (l : Nat) : State :=
  let x := s.lane l
  if x.rx = .search ∧ !x.locked ∧ !x.retryDue ∧ x.markers ≥ 4 then
    rxSettle (s.setLane l { x with locked := true, markers := 0, misses := 0, history := [], disagree := 0,
                                   polInv := hypInv x.hyp, precode := hypPre x.hyp, lastHyp := some x.hyp,
                                   peerSleep := false, fails := 0, noLock := false }) l
  else s

def execFrameLock (lane : Fin 52) (s : State) : Out := .next (frameLock s lane.val)

/-- A locked lane must drop lock (02 R49, R54): four consecutive markers failed, 8 of 64 frames held an uncorrectable
codeword, or 64 frames in a row disagreed with the mapping. -/
def dropDue (x : Lane) : Bool := x.locked && (x.misses ≥ 4 || x.history.count true ≥ 8 || x.disagree ≥ 64)

/-- A lane leaves lock for marker search; a trim run ends and bring-up resumes at step 3 (15 R439). The loss cause of
DEGRADED sets on a member of a group that is UP, also while PEER_SLEEP is set (02 R57, R63). -/
def leaveLock (s : State) (l : Nat) : State :=
  let x := s.lane l
  let s1 := s.setLane l { unlocked x with rx := .search, fails := 0, member := none,
                                          degLoss := x.degLoss || (rxGroupOf s l).any LaneGroup.up }
  if (s1.laneTrim l).run.isSome then startAdapt (dropTrim s1 l) l else startSearch s1 l

/-- A lane drops lock (02 R54, R57, R63). -/
def lockLoss (s : State) (l : Nat) : State :=
  let x := s.lane l
  if !dropDue x then s
  else if x.peerSleep then leaveLock s l
  else
    let s1 := s.setLane l { x with lockLoss := x.lockLoss + 1 }
    leaveLock (raise s1 0x0101 .l (rxWorld s l) l 0) l

def execLockLoss (lane : Fin 52) (s : State) : Out := .next (lockLoss s lane.val)

/-- The end of a window of 4,096 frames (02 R56, R67). No record is raised while PEER_SLEEP is set (02 R63). -/
def windowEnd (s : State) (l : Nat) : State :=
  let x := s.lane l
  if x.winFrames < 4096 then s
  else
    let exceeds := x.winSyms > x.threshold.toNat
    let clear := 2 * x.winSyms ≤ x.threshold.toNat
    let s1 := s.setLane l { x with peak := min 15 x.winPeak, degWindow := exceeds || (x.degWindow && !clear),
                                   threshold := x.nextThreshold.getD x.threshold, nextThreshold := none, winFrames := 0,
                                   winSyms := 0, winPeak := 0 }
    if exceeds && !x.degWindow && !x.peerSleep then raise s1 0x0102 .c (rxWorld s l) l 0 else s1

def execFecWindowEnd (lane : Fin 52) (s : State) : Out := .next (windowEnd s lane.val)

/-- After the announced frames the transmit side enters its sleep state (02 R62). -/
def execTxSleepEnter (lane : Fin 52) (s : State) : Out :=
  .next (if (s.lane lane.val).txSleep = some 0 then txSettle s lane.val else s)

/-- After 16 IDLE frames the new precoding takes effect (02 R70). -/
def precodeSwitch (s : State) (l : Nat) : State :=
  let x := s.lane l
  match x.precodeSwitch with
  | some (v, 0) => s.setLane l { x with txPrecode := v, precodeSwitch := none }
  | _ => s

def execPrecodeSwitch (lane : Fin 52) (s : State) : Out := .next (precodeSwitch s lane.val)

end Sys2Proof.Machine
end

