-- ==== Sys2Proof/Machine/Cuts.lean ====
section
/-! DEFINITION. What happens to a product whose boundary has come: quota cuts resolve, and reserved demands settle (16 R466,
01 R25). -/

namespace Sys2Proof.Machine

/-- A product has stopped: a cut that waited for it has one fewer to wait for, and the follow entry of a cut whose last
selected product has stopped falls due (16 R466). -/
def productStopped (s : State) (pid : Nat) : State :=
  s.world.cuts.foldl (fun t c =>
    if c.selected.contains pid then
      let rest := c.selected.filter (· != pid)
      let others := t.world.cuts.filter (· != c)
      if rest = [] then
        let t1 := { t with world := { t.world with cuts := others } }
        followEntry t1 c.src 0x0A02 c.item c.count (usage t1 c.item).ceil.toNat
      else { t with world := { t.world with cuts := { c with selected := rest } :: others } }
    else t) s

/-- A product becomes suspended (01 R28). -/
def suspendProduct (s : State) (pid : Nat) : State :=
  match s.product pid with
  | some p => s.setProduct pid { p with suspended := true }
  | none => s

/-- The demand reserved for a deferred change replaces the old one at its boundary (01 R25). -/
def settleProduct (s : State) (pid : Nat) : State :=
  match s.product pid with
  | some p => s.setProduct pid (settleDemand s.intake.front p)
  | none => s

/-- Clauses that admit a product complete BUSY until the release front has started, and BAD_PARAM until the epoch is set
(03 R75, R95), and BUSY while the
memory accepts no allocation (10 R328). -/
def admitGate (s : State) : Except Reply Unit := do
  refuseIf (!s.intake.started || !s.hbm.filled) stBusy 8
  refuseIf (!s.intake.epochSet) stBadParam 8

end Sys2Proof.Machine
end

