-- ==== Sys2Proof/Machine/Geom.lean ====
section
/-! DEFINITION. The geometry of correlation products: blocks, super-tiles, record groups, integrations, records and demands
(01 R20 to R22, 04 R113, R116, R124, 05 R139 to R146, R163). -/

namespace Sys2Proof.Machine

/-! ### Blocks and super-tiles -/

/-- Row blocks b of N inputs (01 R21). -/
def blocksOf (n : Nat) : Nat := ceilDiv n 512

/-- Super-tiles S of b row blocks (04 Super-tiles). -/
def tilesOf (b : Nat) : Nat := b * (b + 1) / 2

/-- Positions w of a row block (03 R89). -/
def blockWidth (n beta : Nat) : Nat := min 512 (n - 512 * beta)

/-- The samples k that a cell takes per RCLK cycle in a mode (04 R108). -/
def modeK (mode : Nat) : Rat := if mode = 0 then 2 else if mode = 1 then 4 else 1 / 2

/-- The numbers from `lo` to `hi - 1`. -/
def span (lo hi : Nat) : List Nat := (List.range (hi - lo)).map (· + lo)

/-- The super-tiles of one band (04 R113). -/
def bandTiles (b m : Nat) : List (Nat × Nat) :=
  let top := min (4 * m + 3) (b - 1)
  ((List.range (4 * m)).flatMap fun v => (span (4 * m) (top + 1)).map fun u => (u, v)) ++
    ((span (4 * m) (top + 1)).flatMap fun v => (span v (top + 1)).map fun u => (u, v))

/-- The super-tiles of a channel-dwell in the order in which the Relief runs them (04 R113). -/
def tileOrder (b : Nat) : List (Nat × Nat) := (List.range (ceilDiv b 4)).flatMap (bandTiles b)

/-- The index of the baseline of map positions i ≥ j (04 R124). -/
def baselineIndex (i j : Nat) : Nat := i * (i + 1) / 2 + j

/-- Baselines of N inputs. -/
def baselines (n : Nat) : Nat := n * (n + 1) / 2

/-! ### Products -/

/-- T_d. -/
def Corr.td (c : Corr) : Nat := 2 ^ c.log2Td

/-- Bytes per sample in the corner turn (01 R22). -/
def Corr.width (c : Corr) : Nat := if c.mode = 2 then 2 else 1

/-- Bytes e of an ISTORE element (05 R140). -/
def Corr.elem (c : Corr) : Nat := if c.wide64 then 16 else 8

/-- Record groups Q (05 R144). -/
def groupCount (chCount g : Nat) : Nat := ceilDiv chCount g

/-- Channels of group q. -/
def groupChans (c : Corr) (q : Nat) : Nat := min c.g (c.chCount - q * c.g)

/-- The inputs of a product's map. -/
def corrInputs (s : State) (c : Corr) : List Nat := mapEntries s c.map

/-- The phase of group q (05 R144). -/
def Corr.phase (c : Corr) (q : Nat) : Nat := if c.aligned then 0 else q % c.nInt

/-- The integration of group q that dwell d lies in, numbered from 1 for j = 0 (05 R144). -/
def Corr.intOf (c : Corr) (q d : Nat) : Nat := (d + c.nInt - c.phase q) / c.nInt

/-- One past the last dwell of an integration. -/
def Corr.intEnd (c : Corr) (q jj : Nat) : Nat := jj * c.nInt + c.phase q

/-- The first dwell of an integration; for the one before counter 0 the first dwell that exists. -/
def Corr.intStart (c : Corr) (q jj : Nat) : Nat := c.intEnd q jj - c.nInt

/-- The integration boundary of group q at or after dwell d. -/
def Corr.nextBoundary (c : Corr) (q d : Nat) : Nat :=
  let e := c.intEnd q (c.intOf q d)
  if e = d + c.nInt then d else e

/-- The mode of a product for a dwell (04 R138). -/
def modeAt (c : Corr) (d : Nat) : Nat := (c.nextModes.filter fun m => m.1 ≤ d).foldl (fun _ m => m.2) c.mode

/-- A group runs dwell d. -/
def Group.runs (g : Group) (d : Nat) : Bool :=
  g.start ≤ d && (match g.stop with
    | some e => d < e
    | none => true)

/-- The record that an error in dwell d of a group affects: that of its integration, while it has not left (17 R484). -/
def visAffected (c : Corr) (q d : Nat) : Affects :=
  match c.groups[q]? with
  | some g => if g.runs d && g.done ≤ d then .vis q (c.intOf q d) else .nothing
  | none => .nothing

/-- The first record that an error in a whole dwell of a product affects: the one whose integration ends first. -/
def firstAffected (s : State) (pid d : Nat) : Affects :=
  match s.corr pid with
  | none => .next
  | some c =>
    let hit := (List.range c.groups.length).filter fun q => (c.groups[q]?).any fun g => g.runs d
    match minBy (fun q => c.intEnd q (c.intOf q d)) hit with
    | some q => visAffected c q d
    | none => .nothing

/-! ### Records and demands -/

/-- Bytes of an element of the value block (05 R163). -/
def outWidth (output : Nat) : Nat := if output = 1 then 16 else 8

/-- The payload length of a VIS record of `ch` channels (05 R163). -/
def visPayloadLen (n ch output : Nat) : Nat := roundUp (ch * baselines n * (outWidth output + 2)) 8

/-- The length of a VIS record. -/
def visLen (n ch output : Nat) : Nat := 64 + visPayloadLen n ch output

/-- The extent of the ISTORE region (05 R140). -/
def istoreExtent (n : Nat) (c : Corr) : Nat := roundUp (baselines n * c.chCount * c.elem) granule

/-- Sample duration times T_d in seconds (04 R129). -/
def dwellSeconds (s : State) (log2Td : Nat) : Rat := (2 ^ log2Td : Nat) / slotRate s

/-- The demand of a correlation product over N inputs in a mode and an output format (01 R20 to R22, 05 R145). -/
def corrDemand (s : State) (c : Corr) (n mode output : Nat) (route : U32) : Demand :=
  let b := blocksOf n
  let sT : Rat := (tilesOf b : Nat)
  let f : Rat := (c.chCount : Nat) * slotRate s
  let w : Rat := (if mode = 2 then 2 else 1 : Nat)
  let dur := dwellSeconds s c.log2Td
  let q := groupCount c.chCount c.g
  let total := sumNat ((List.range q).map fun i => visLen n (groupChans c i) output)
  let rate : Rat := (total : Nat) / ((c.nInt : Nat) * dur)
  let burst : Rat := if c.aligned then (c.nInt : Nat) else 1
  { Demand.zero with
    relief := sT * f / modeK mode,
    hbm := w * (n : Nat) * f * ((ceilDiv b 4 : Nat) + 2) + 2 * sT * (granule : Nat) * (c.elem / 8 : Nat) * f / (c.td : Nat),
    bytes := rate * burst, route := route,
    records := (q : Nat) / ((c.nInt : Nat) * dur),
    chanDwell := sT * (c.td : Nat) / (modeK mode * 1600000000),
    dwell := dur,
    uses := [(corrInputs s c, c.chBase, c.chCount)] }

end Sys2Proof.Machine
end

