-- ==== Sys2Proof/Machine/Corner.lean ====
section
/-! DEFINITION. Samples in released rows, their validity, requantization and the corner turn (03 R43, R81 to R92). -/

namespace Sys2Proof.Machine

/-! ### Streams and samples (02 R43, 03 R71) -/

/-- Bytes per sample of a stream. -/
def sampleBytes (d : StreamDef) : Nat := if d.c8 then 2 else 1

/-- The bytes R of a row of a stream (02 R43). -/
def rowBytes (d : StreamDef) : Nat := d.inCount * d.chCount * sampleBytes d

/-- A stream supplies a pair of input and channel slot. -/
def supplies (d : StreamDef) (i c : Nat) : Bool :=
  d.inBase ≤ i && i < d.inBase + d.inCount && d.chBase ≤ c && c < d.chBase + d.chCount

/-- The stream that supplies a pair (03 R72). -/
def supplier (s : State) (i c : Nat) : Option (Nat × StreamDef) :=
  s.intake.streams.findSome? fun x => match x.2.entry with
    | some d => if supplies d i c then some (x.1, d) else none
    | none => none

/-- The pairs of a stream in row order. -/
def streamPairs (d : StreamDef) : List (Nat × Nat) :=
  (List.range d.chCount).flatMap fun c => (List.range d.inCount).map fun i => (d.inBase + i, d.chBase + c)

/-- The offset of a pair's sample in a row (02 R43). -/
def pairOffset (d : StreamDef) (i c : Nat) : Nat := ((c - d.chBase) * d.inCount + (i - d.inBase)) * sampleBytes d

/-- The part of a row that a stream delivered. -/
def rowPart (parts : List AsmRow) (n : Nat) : Option AsmRow := parts.find? fun p => p.stream == n

/-- The segment that holds byte `off` of a row: the one that arrived last. -/
def segAt (segs : List Seg) (off : Nat) : Option Seg :=
  segs.reverse.find? fun g => g.off ≤ off && off < g.off + g.bytes.length

/-- The byte at `off` of a row's segments, if it has arrived. -/
def segByte (segs : List Seg) (off : Nat) : Option Byte := (segAt segs off).bind fun g => g.bytes[off - g.off]?

/-- Bytes of a row that have arrived from its start on, without a gap. -/
def coveredTo (segs : List Seg) : Nat :=
  (List.range segs.length).foldl (fun pos _ => match segAt segs pos with
    | some g => g.off + g.bytes.length
    | none => pos) 0

/-- A sample's parts from its bytes: C4 has its real part in the high nibble, C8 in the first byte (02 R43). -/
def decodeSample (c8 : Bool) (b0 b1 : Byte) : Int × Int :=
  if c8 then (toSigned 8 b0.toNat, toSigned 8 b1.toNat) else (toSigned 4 (b0.toNat / 16), toSigned 4 b0.toNat)

/-- The sample of a pair in a row as its stream delivered it, if all its bytes arrived. -/
def nativeSample (parts : List AsmRow) (n : Nat) (d : StreamDef) (i c : Nat) : Option (Int × Int) := do
  let p ← rowPart parts n
  let off := pairOffset d i c
  let b0 ← segByte p.segs off
  if d.c8 then
    let b1 ← segByte p.segs (off + 1)
    return decodeSample true b0 b1
  else return decodeSample false b0 0

/-- A sample carries the flag code: −8 in C4 or −128 in C8 in either part (03 R81). -/
def flagCode (c8 : Bool) (x : Int × Int) : Bool :=
  let f : Int := if c8 then -128 else -8
  x.1 == f || x.2 == f

/-- A frame that carried part of the sample had SOURCE_FAULT set; SRC_OVERLOAD; COUNTER_JUMP (03 R81, R84). -/
def sampleMark (parts : List AsmRow) (n : Nat) (d : StreamDef) (i c : Nat) (mark : Seg → Bool) : Bool :=
  match rowPart parts n with
  | some p => (List.range (sampleBytes d)).any fun k => (segAt p.segs (pairOffset d i c + k)).any mark
  | none => false

/-! ### Granule validity (03 R81 to R83) -/

/-- The row of a granule with a counter, if it was released. -/
def granuleRow (rows : List RelRow) (t : Nat) : Option RelRow := rows.find? fun r => r.counter == t

/-- What is wrong with a granule of a pair: a sample is missing; a sample is flagged (03 R81). -/
def pairVerdict (rows : List RelRow) (g n : Nat) (d : StreamDef) (i c : Nat) : Bool × Bool :=
  (List.range 256).foldl (fun v k =>
    match granuleRow rows (256 * g + k) with
    | none => (true, v.2)
    | some r =>
      match nativeSample r.parts n d i c with
      | none => (true, v.2)
      | some x => (v.1, v.2 || flagCode d.c8 x || sampleMark r.parts n d i c Seg.sourceFault)) (false, false)

/-- The verdicts of a stream on a granule: the pairs that are invalid, and how many count as flagged and as missing (03
R83). -/
def streamVerdict (rows : List RelRow) (g n : Nat) (d : StreamDef) : List (Nat × Nat) × Nat × Nat :=
  (streamPairs d).foldl (fun a p =>
    let v := pairVerdict rows g n d p.1 p.2
    if v.2 then (p :: a.1, a.2.1 + 1, a.2.2)
    else if v.1 then (p :: a.1, a.2.1, a.2.2 + 1) else a) ([], 0, 0)

/-- The sample of a pair that a consumer reads from a settled row: zero in an invalid granule or where no stream supplies
the pair (03 R82). -/
def readSample (s : State) (r : SettledRow) (i c : Nat) : Int × Int :=
  match supplier s i c with
  | some (n, d) => if r.invalid.contains (i, c) then (0, 0) else (nativeSample r.parts n d i c).getD (0, 0)
  | none => (0, 0)

/-- A pair's granule is valid in a settled row. -/
def pairValid (s : State) (r : SettledRow) (i c : Nat) : Bool := (supplier s i c).isSome && !r.invalid.contains (i, c)

/-! ### Requantization (03 R85 to R88) -/

/-- The entry of a list of gains for a pair. -/
def gainIn (l : List ((Nat × Nat) × U16)) (i c : Nat) : Option U16 := (l.find? fun x => x.1 == (i, c)).map Prod.snd

/-- The gain of a pair for the sample with counter `t`: the last load in effect by then (03 R86, R88). -/
def gainAt (s : State) (i c t : Nat) : Nat :=
  let due := (s.intake.gainLoads.filter fun l => l.boundary ≤ t).reverse.findSome? fun l => gainIn l.gains i c
  ((due.orElse fun _ => gainIn s.intake.gains i c).getD 0x1000).toNat

/-- One part requantized, and whether it saturated (03 R86). -/
def requantPart (x : Int) (g : Nat) : Int × Bool := clampAbs (roundHE (x * g) 4096) 7

/-- A sample requantized, and how many of its parts saturated. -/
def requantSample (x : Int × Int) (g : Nat) : (Int × Int) × Nat :=
  let a := requantPart x.1 g
  let b := requantPart x.2 g
  ((a.1, b.1), b2n a.2 + b2n b.2)

/-- Gain loads whose boundary has come take their place in the table (03 R88). -/
def applyGains (s : State) (t : Nat) : State :=
  let due := s.intake.gainLoads.filter fun l => l.boundary ≤ t
  let put (l : List ((Nat × Nat) × U16)) (x : (Nat × Nat) × U16) : List ((Nat × Nat) × U16) :=
    x :: l.filter fun y => y.1 != x.1
  { s with intake := { s.intake with gains := (due.flatMap GainLoad.gains).foldl put s.intake.gains,
                                     gainLoads := s.intake.gainLoads.filter fun l => !(l.boundary ≤ t) } }

/-! ### The corner turn (03 R89 to R92) -/

/-- T_d of a set. -/
def CtSet.td (x : CtSet) : Nat := 2 ^ x.log2Td

/-- Bytes per sample of a set. -/
def CtSet.width (x : CtSet) : Nat := if x.c8 then 2 else 1

/-- The bytes of one half of a set with N inputs (03 R89). -/
def halfBytes (x : CtSet) (n : Nat) : Nat := x.width * n * x.td * x.chCount

/-- The offset of a sample within its set: map position `i`, channel index `c`, counter `t`, for N inputs (03 R89). -/
def ctOffset (x : CtSet) (n i c t : Nat) : Nat :=
  let d := t / x.td
  let tau := t % x.td
  let beta := i / 512
  let wb := min 512 (n - 512 * beta)
  d % 2 * halfBytes x n + c * (x.width * n * x.td) + beta * (512 * x.td * x.width) + tau * (wb * x.width) +
    (i - 512 * beta) * x.width

def setSet (s : State) (x : CtSet) : State := { s with intake := { s.intake with sets := putBy CtSet.id x s.intake.sets } }

/-- The products that share a set. -/
def setProducts (s : State) (id : Nat) : List Corr := s.corrs.filter fun c => c.set == id

/-- The Relief or its repair still reads dwell `d` of a set: the half is not free (01 R16). -/
def dwellBusy (s : State) (id d : Nat) : Bool :=
  let pids := (setProducts s id).map Corr.pid
  let r := s.relief
  let mine (t : Tile) : Bool := pids.contains t.pid && t.dwell == d
  (r.ready.any fun x => pids.contains x.pid && x.dwell == d) ||
    (match r.cur with
     | some (x, _) => pids.contains x.pid && x.dwell == d
     | none => false) ||
    (match r.acc with
     | some x => mine x.tile
     | none => false) ||
    (r.drain.any fun x => mine x.tile) ||
    (r.slots.toList.any fun o => match o with
     | some x => mine x.run.tile
     | none => false) ||
    (r.incidents.any fun x => mine x.tile)

/-- A half is freed once its dwell is written whole and the Relief has done with it (01 R16). -/
def freeHalf (s : State) (x : CtSet) (h : Nat) : CtSet :=
  let half := vget x.halves h { dwell := none, full := false }
  match half.dwell with
  | some d => if half.full && !dwellBusy s x.id d then { x with halves := vset x.halves h { dwell := none, full := false } } else x
  | none => x

/-- History is kept for the longest integration of the set's products, and two dwells more (05 R151). -/
def pruneHist (s : State) (x : CtSet) (d : Nat) : CtSet :=
  let held := x.halves.toList.filterMap Half.dwell
  let from_ := held.foldl min d
  let n := (setProducts s x.id).foldl (fun m c => max m c.nInt) 0
  { x with hist := x.hist.filter fun h => h.dwell + n + 2 ≥ from_ }

/-- Bytes of the validity history of one dwell (05 R142). -/
def historyBytes (s : State) (c : Corr) : Nat := ceilDiv ((mapEntries s c.map).length * c.chCount * c.td) 2048

/-- Where a product's validity history of a dwell begins: its dwells follow one another in turn (log 85). -/
def historyBase (s : State) (c : Corr) (d : Nat) : Nat := allocBase s (.validity c.pid) + d % (c.nInt + 1) * historyBytes s c

/-- The validity history of a dwell is written anew for every product of a set, which clears the poison of its words (10
R326). -/
def historyWritten (s : State) (id d : Nat) : State :=
  (setProducts s id).foldl (fun t c => clearPoison t (historyBase t c d) (historyBase t c d + historyBytes t c)) s

/-- The history of a granule lies in a poisoned word: the granule reads as invalid (10 R326). -/
def historyLost (s : State) (c : Corr) (d pos ch g : Nat) : Bool :=
  let a := historyBase s c d +
    Config.historyByte (mapEntries s c.map).length c.chCount (c.td / 256) pos ch g % historyBytes s c
  poisoned s a (a + 1)

/-- The set's half is not free when its dwell begins: nothing of the dwell is written (03 R92). -/
def ctOverrun (s : State) (x : CtSet) (d : Nat) : State :=
  let s1 := setSet s { x with hist := x.hist ++ [{ dwell := d, invalid := [], sat := [], stale := [], overrun := true }] }
  let s2 := { s1 with intake := { s1.intake with overrunCount := s1.intake.overrunCount + 1, overrun := true } }
  let pid := ((setProducts s x.id).map Corr.pid).foldl min 4095
  raiseProduct s2 0x0202 pid ((mapEntries s x.map).length * x.chCount * x.td) (firstAffected s2 pid d)

/-- Row `t` begins a dwell of a set: its half is taken for the dwell, or it overruns (03 R92). -/
def ctDwellStart (s : State) (x0 : CtSet) (t : Nat) : State :=
  let d := t / x0.td
  if t % x0.td ≠ 0 ∨ d < x0.firstDwell then s
  else
    let x := pruneHist s (freeHalf s x0 (d % 2)) d
    match (vget x.halves (d % 2) { dwell := none, full := false }).dwell with
    | some _ => ctOverrun s x d
    | none =>
      setSet (historyWritten s x.id d) { x with
        halves := vset x.halves (d % 2) { dwell := some d, full := false },
        hist := x.hist ++ [{ dwell := d, invalid := [], sat := [], stale := [], overrun := false }] }

/-- The corner-turn bytes of a sample (03 R90). -/
def ctBytes (x : CtSet) (v : Int × Int) : List Byte :=
  if x.c8 then leInt 1 v.1 ++ leInt 1 v.2 else [BitVec.ofNat 8 ((v.1 % 16).toNat * 16 + (v.2 % 16).toNat)]

/-- The bytes of an invalid sample: the flag code (03 R90). -/
def ctFlag (x : CtSet) : List Byte := if x.c8 then [0x80, 0x80] else [0x88]

/-- One granule of one map position and channel index, written into a set: 256 samples, or the flag code. -/
def ctWritePair (s : State) (rows : List SettledRow) (x : CtSet) (n pos inp c g : Nat) : State :=
  let base := allocBase s (.ctSet x.id)
  let slot := x.chBase + c
  match rows with
  | [] => s
  | r0 :: _ =>
    let ok := pairValid s r0 inp slot
    let c8 := match supplier s inp slot with
      | some (_, d) => d.c8
      | none => false
    (List.range 256).foldl (fun t k =>
      let ctr := 256 * g + k
      let addr := base + ctOffset x n pos c ctr
      match ok, rows.find? fun r => r.counter == ctr with
      | true, some r =>
        let v := readSample s r inp slot
        t.store addr (ctBytes x (if c8 && !x.c8 then (requantSample v (gainAt s inp slot ctr)).1 else v))
      | _, _ => t.store addr (ctFlag x)) s

/-- The bytes of a granule of one channel are written a whole block row at a time (03 R89). -/
def ctClear (s : State) (x : CtSet) (n c g : Nat) : State :=
  (List.range (blocksOf n)).foldl (fun t b =>
    let lo := allocBase s (.ctSet x.id) + ctOffset x n (512 * b) c (256 * g)
    clearPoison t lo (lo + 256 * blockWidth n b * x.width)) s

/-- A pair's requantizer saturated in the granule. -/
def pairSaturated (s : State) (rows : List SettledRow) (inp slot : Nat) : Bool :=
  rows.any fun r => (requantSample (readSample s r inp slot) (gainAt s inp slot r.counter)).2 > 0

/-- A gain of the stream counts as held for a row: a level trim's span covers it (15 R444). -/
def gainHeld (s : State) (n t : Nat) : Bool :=
  s.trims.levels.any fun l => l.stream == n && (match l.start with
    | some a => a ≤ t
    | none => false) && (match l.boundary with
    | some b => t < b
    | none => true)

/-- What a granule adds to the history of its dwell (05 R151, R162). -/
def histGranule (s : State) (rows : List SettledRow) (x : CtSet) (g : Nat) (h : HistDwell) : HistDwell :=
  let es := enumFrom0 (mapEntries s x.map)
  let pairs := (List.range x.chCount).flatMap fun c => es.map fun e => (e.1, e.2, c)
  pairs.foldl (fun h p =>
    let (pos, inp, c) := p
    let slot := x.chBase + c
    let bad := !(rows.any fun r => pairValid s r inp slot)
    let rq := match supplier s inp slot with
      | some (n, d) => (d.c8 && !x.c8, gainHeld s n (256 * g))
      | none => (false, false)
    { h with invalid := if bad then h.invalid ++ [(pos, c, g)] else h.invalid,
             sat := if rq.1 && !bad && pairSaturated s rows inp slot && !h.sat.contains (pos, c) then h.sat ++ [(pos, c)] else h.sat,
             stale := if rq.1 && rq.2 && !h.stale.contains (pos, c) then h.stale ++ [(pos, c)] else h.stale }) h

/-- The channel-dwells of a product's running groups become ready (04 R127). -/
def dwellReady (s : State) (id d : Nat) : State :=
  let items := (setProducts s id).flatMap fun p => (List.range p.chCount).filterMap fun c =>
    match p.groups[c / p.g]? with
    | some gr => if gr.runs d then some { pid := p.pid, dwell := d, chan := c : ChanDwell } else none
    | none => none
  { s with relief := { s.relief with ready := s.relief.ready ++ items } }

/-- A settled granule is written into a set that takes its dwell; at the dwell's end its channel-dwells are ready. Those of
an overrun dwell run with every granule invalid (03 R92). -/
def ctGranule (s : State) (rows : List SettledRow) (x : CtSet) (g : Nat) : State :=
  let d := 256 * g / x.td
  let half := vget x.halves (d % 2) { dwell := none, full := false }
  if half.dwell = some d ∧ !half.full then
    let es := mapEntries s x.map
    let s1 := (List.range x.chCount).foldl (fun t c =>
      (enumFrom0 es).foldl (fun t e => ctWritePair t rows x es.length e.1 e.2 c g) (ctClear t x es.length c g)) s
    let x1 := { x with hist := x.hist.map fun h => if h.dwell = d then histGranule s rows x g h else h }
    if 256 * (g + 1) % x.td = 0 then
      dwellReady (setSet s1 { x1 with halves := vset x1.halves (d % 2) { half with full := true } }) x.id d
    else setSet s1 x1
  else if 256 * (g + 1) % x.td = 0 ∧ x.hist.any (fun h => h.dwell == d && h.overrun) then dwellReady s x.id d
  else s

/-- The Relief drains the last tile of every channel of a half: the half is freed (01 R16). -/
def execCornerTurnHalfFree (set : Nat) (half : Fin 2) (s : State) : Host.Outcome State Fault Refusal :=
  .next (match s.intake.sets.find? fun x => x.id == set with
    | some x => setSet s (freeHalf s x half.val)
    | none => s)

end Sys2Proof.Machine
end

