-- ==== Sys2Proof/Machine/Stats.lean ====
section
/-! DEFINITION. The statistics unit (03 R97 to R100). -/

namespace Sys2Proof.Machine

/-- An entry before its interval. -/
def zeroSum : StatSum :=
  { re := 0, im := 0, p2 := 0, p4 := 0, valid := 0, sat := 0, overload := false, sourceFault := false, jump := false }

/-- The pairs of a STATS product in [channel][input] order. -/
def statPairs (x : Stats) : List (Nat × Nat) :=
  (List.range x.chCount).flatMap fun c => (List.range x.inCount).map fun i => (x.inBase + i, x.chBase + c)

/-- The interval in samples. -/
def Stats.len (x : Stats) : Nat := 2 ^ x.log2Int

/-- One sample added to an entry (03 R97). -/
def addSample (e : StatSum) (v : Int × Int) (sat : Nat) : StatSum :=
  let m := (v.1 * v.1 + v.2 * v.2).toNat
  { e with re := e.re + v.1, im := e.im + v.2, p2 := e.p2 + m, p4 := e.p4 + m * m, valid := e.valid + 1, sat := e.sat + sat }

/-- The rows of a granule added to the entry of one pair: its samples where the granule is valid, and the marks of its
frames. -/
def statPair (s : State) (rows : List SettledRow) (x : Stats) (i c : Nat) (e : StatSum) : StatSum :=
  match supplier s i c with
  | none => e
  | some (n, d) =>
    rows.foldl (fun e r =>
      let e1 := { e with overload := e.overload || sampleMark r.parts n d i c Seg.overload,
                         sourceFault := e.sourceFault || sampleMark r.parts n d i c Seg.sourceFault,
                         jump := e.jump || sampleMark r.parts n d i c Seg.jump }
      if !pairValid s r i c then e1
      else
        let v := readSample s r i c
        if x.post then
          let q := requantSample v (gainAt s i c r.counter)
          addSample e1 q.1 q.2
        else addSample e1 v 0) e

/-- A gain of the product's pairs changes at a boundary inside the interval, or at its first sample where the load took
effect at the release front (03 R88), or is held there (03 R100, 15 R444). -/
def statStale (s : State) (x : Stats) (start g : Nat) : Bool :=
  x.post && ((s.intake.gainLoads.any fun l => 256 * g ≤ l.boundary && l.boundary < 256 * (g + 1) && (start < l.boundary || l.atFront && start = l.boundary) &&
    (statPairs x).any fun p => match gainIn l.gains p.1 p.2 with
      | some v => v.toNat != gainAt s p.1 p.2 (l.boundary - 1)
      | none => false) || gainHeld s x.stream (256 * g))

/-- The 32 bytes of a STATS entry (03 R99). -/
def statBytes (post : Bool) (e : StatSum) : List Byte :=
  leInt 4 e.re ++ leInt 4 e.im ++ leBytes 8 e.p2 ++ leBytes 8 e.p4 ++ leBytes 4 e.valid ++
    leBytes 2 (if post then min e.sat 65535 else 0) ++ leBytes 2 (b2n e.overload + 2 * b2n e.sourceFault + 4 * b2n e.jump)

/-- The payload of a STATS record; the format is that of the samples summed (03 R99; log 30). -/
def statPayload (s : State) (x : Stats) : List Byte :=
  let c8 := !x.post && (s.stream x.stream).entry.any fun d => d.c8
  leBytes 2 x.inBase ++ leBytes 2 x.inCount ++ leBytes 2 x.chBase ++ leBytes 2 x.chCount ++ leBytes 4 x.len ++
    leBytes 1 (b2n x.post + 2 * b2n c8) ++ zeros 3 ++ x.sums.flatMap (statBytes x.post)

/-- The interval contains the takeover row t_r (18 R518). -/
def containsTakeover (s : State) (start len : Nat) : Bool :=
  match s.pair.lastRow with
  | some r => start < r && r < start + len
  | none => false

/-- The STATS record of the interval that starts at `start` (03 R99, R100). -/
def statRecord (s : State) (x : Stats) (start : Nat) (cut : Bool) : RecOut :=
  let taken := containsTakeover s start x.len
  { rtype := 0x06,
    flags := (if x.sums.any fun e => e.valid < x.len then flagFlagged else 0) +
      (if x.post && x.sums.any fun e => e.sat > 0 then flagSaturated else 0) + (if x.stale then flagStale else 0) +
      (if cut || taken then flagPartial else 0) + (if taken then flagTakeover else 0),
    start := start, span := x.len, time := s.timeAt start, aux := x.sums.length, payload := statPayload s x }

def setStats (s : State) (x : Stats) : State :=
  { s with intake := { s.intake with stats := putBy Stats.pid x s.intake.stats } }

/-- A product before its next interval. -/
def clearStats (x : Stats) : Stats := { x with sums := (statPairs x).map fun _ => zeroSum, stale := false, rows := 0 }

/-- A settled granule reaches a STATS product; at the interval's end the record is emitted, and a product that a quota cut
selected suspends there (16 R466). -/
def statGranule (s : State) (rows : List SettledRow) (g : Nat) (x : Stats) : State :=
  let start := 256 * g / x.len * x.len
  if start < x.firstStart || (match s.product x.pid with
    | some p => p.suspended
    | none => true) then s
  else
    let x1 := { x with sums := (statPairs x).zip x.sums |>.map fun (p, e) => statPair s rows x p.1 p.2 e,
                       stale := x.stale || statStale s x start g, rows := x.rows + rows.length }
    if 256 * (g + 1) = start + x.len then
      let s1 := setStats (emitRecord s x.pid (statRecord s x1 start false)) (clearStats x1)
      if x.stopping then
        let s2 := gapSuspended s1 x.pid 0x06 (start + x.len) (s1.timeAt (start + x.len))
        productStopped (suspendProduct s2 x.pid) x.pid
      else s1
    else setStats s x1

end Sys2Proof.Machine
end

