-- ==== Sys2Proof/Machine/Intake.lean ====
section
/-! DEFINITION. The Intake: frames into rows, the release front, granules, and the INTAKE Clauses (03). -/

namespace Sys2Proof.Machine

/-! ### Settling a granule (03 R81 to R83) -/

/-- The consumers of released rows take them: not on a cold standby and not in reset (18 R505). -/
def feeding (s : State) : Bool := s.pair.role != .standby && !s.pair.stillGated && !s.power.inReset

/-- A row reaches the blocks behind the Intake: from the first row of a takeover on, and on the active unit of an acknowledged
planned swap only below the swap counter (18 R516, R520). -/
def rowFed (s : State) (t : Nat) : Bool :=
  s.pair.lastRow.all (· ≤ t) && (s.pair.role != .active || s.pair.swap.all fun w => !w.acked || t < w.counter)

/-- A level trim adds a valid granule of each requantized pair to its sums (15 R441). -/
def levelGranule (s : State) (rows : List SettledRow) (g : Nat) (l : LevelTrim) : LevelTrim :=
  match l.start, (s.stream l.stream).entry with
  | some a, some d =>
    if l.ended || 256 * g < a then l
    else
      let pairs := if requantized s d then streamPairs d else []
      let sums := pairs.map fun p =>
        let old := ((l.sums.find? fun x => x.1 == p).map Prod.snd).getD (0, 0)
        (p, rows.foldl (fun a r => if pairValid s r p.1 p.2 then
              let v := readSample s r p.1 p.2
              (a.1 + 1, a.2 + (v.1 * v.1 + v.2 * v.2).toNat)
            else a) old)
      { l with sums := sums, ended := 256 * (g + 1) = a + 1048576 }
  | _, _ => l

/-- Level trims whose span is over are forgotten (15 R444). -/
def levelsAfter (s : State) (t : Nat) : State :=
  { s with trims := { s.trims with levels := s.trims.levels.filter fun l => match l.boundary with
      | some b => t < b
      | none => true } }

/-- The counts of invalid granules of a stream (03 R83). -/
def countGranules (s : State) (n flagged missing : Nat) : State :=
  let x := s.stream n
  s.setStream n { x with flagged := x.flagged + BitVec.ofNat 32 flagged, missing := x.missing + BitVec.ofNat 32 missing }

/-- The last row of a granule has been released: each granule is judged, and the rows reach their consumers. -/
def settleGranule (s : State) (g : Nat) : State :=
  let rows := s.intake.released
  let vs := s.intake.streams.filterMap fun x => x.2.entry.map fun d => (x.1, streamVerdict rows g x.1 d)
  let s1 := vs.foldl (fun t v => countGranules t v.1 v.2.2.1 v.2.2.2) s
  let invalid := vs.flatMap fun v => v.2.1
  let s2 := { s1 with intake := { s1.intake with released := [] } }
  if !feeding s2 then s2
  else
    let fed := (rows.filter fun r => rowFed s2 r.counter).map fun r =>
      ({ counter := r.counter, parts := r.parts, invalid := invalid } : SettledRow)
    let s3 := s2.intake.sets.foldl (fun t x => ctGranule t fed x g) s2
    let s4 := s3.intake.stats.foldl (fun t x => statGranule t fed g x) s3
    let s5 := { s4 with trims := { s4.trims with levels := s4.trims.levels.map (levelGranule s4 fed g) } }
    let s6 := levelsAfter (applyGains s5 (256 * g + 255)) (256 * g + 256)
    if gated s6 || s6.frieze.prods.isEmpty then s6
    else { s6 with intake := { s6.intake with settled := s6.intake.settled ++ fed } }

/-! ### The release front (03 R75, R80, R96) -/

/-- The epoch deviation at the release of a row that is a multiple of 2^20 (03 R96), once there is an epoch (log 54). -/
def epochDev (s : State) (t : Nat) : State :=
  if t % 1048576 ≠ 0 ∨ !s.intake.epochSet then s
  else
    let dev : Int := roundHE ((s.now : Int) - (s.intake.skew * nanos : Nat) - (s.timeAt t : Nat)) nanos
    let lim := (clampAbs dev 2147483647).1
    let s1 := { s with intake := { s.intake with epochDev := BitVec.ofInt 32 lim } }
    let told : Bool := match s.intake.epochErr with
      | some u => decide (s.now < u + second)
      | none => false
    if dev.natAbs > s.intake.tolerance && !told then
      raiseDev { s1 with intake := { s1.intake with epochErr := some s.now } } 0x0203 .c 0 0
    else s1

/-- A level trim's interval begins at the first multiple of 2^20 released after the trim starts (15 R441). -/
def levelStart (s : State) (t : Nat) : State :=
  if t % 1048576 ≠ 0 then s
  else { s with trims := { s.trims with levels := s.trims.levels.map fun l =>
    if l.start.isNone && l.boundary.isNone then { l with start := some t } else l } }

/-- Row F is released and F advances by 1 (03 R75). -/
def releaseRow (s : State) : State :=
  let t := s.intake.front
  let parts := s.intake.rows.filter fun r => r.counter == t
  let s1 := { s with intake := { s.intake with
      rows := s.intake.rows.filter fun r => r.counter != t,
      released := s.intake.released ++ [{ counter := t, parts := parts }],
      front := t + 1, frontTime := some s.now } }
  let s2 := if feeding s1 && rowFed s1 t then s1.intake.sets.foldl (fun u x => ctDwellStart u x t) (levelStart s1 t) else s1
  let s3 := if t % 256 = 255 then settleGranule s2 (t / 256) else s2
  epochDev s3 t

/-- A stream holds row F back: it is UP or WAITING (03 R75). -/
def awaited (x : Stream) : Bool := x.state == .up || x.state == .waiting

/-- Every stream that is UP or WAITING has delivered all bytes of row F (03 R75). -/
def rowComplete (s : State) : Bool :=
  let ws := s.intake.streams.filter fun x => awaited x.2
  !ws.isEmpty && ws.all fun x => match x.2.entry, s.intake.rows.find? fun r => r.counter == s.intake.front && r.stream == x.1 with
    | some d, some r => coveredTo r.segs ≥ rowBytes d
    | _, _ => false

/-- W has passed since the first byte of a row numbered F or higher arrived (03 R75). -/
def rowExpired (s : State) : Bool :=
  s.intake.rows.any fun r => s.intake.front ≤ r.counter && r.arrived + s.intake.skew * nanos ≤ s.now

/-- Release rows while a condition holds. -/
def releaseWhile (cond : State → Bool) : Nat → State → State
  | 0, s => s
  | n + 1, s => if s.intake.started && cond s then releaseWhile cond n (releaseRow s) else s

/-- Release every row that is complete. -/
def releaseReady (s : State) : State := releaseWhile rowComplete (s.intake.rows.length + 1) s

/-- The skew window of row F expires. -/
def execSkewWindowExpiry (s : State) : Host.Outcome State Fault Refusal :=
  .next (if s.intake.started && rowExpired s then releaseReady (releaseRow s) else s)

/-- A stream that was UP has had no frame for 64 µs (03 R74); rows that waited for it alone are released. -/
def streamDown (s : State) (n : Nat) : State :=
  let x := s.stream n
  match x.state, x.last with
  | .up, some u => if s.now ≥ u + 64 * micros then releaseReady (s.setStream n { x with state := .down }) else s
  | _, _ => s

def execStreamDown (stream : Fin 1024) (s : State) : Host.Outcome State Fault Refusal := .next (streamDown s stream.val)

/-! ### Frames (03 R75 to R80, R84) -/

/-- The signed distance of two 16-bit sequence numbers. -/
def seqDiff (a b : Nat) : Int := toSigned 16 ((a + 65536 - b % 65536) % 65536)

/-- A frame that another lane of the group carried and that skew between the members made late (02 R46): it precedes the
furthest frame in the stream's sequence, and stands where that sequence puts it. -/
def skewed (anchor : Nat × Nat) (lanes seq pos : Nat) : Bool :=
  decide (seqDiff seq anchor.1 < 0) && decide ((pos : Int) = (anchor.2 : Int) + seqDiff seq anchor.1 * 3072) &&
    seq % lanes != anchor.1 % lanes

/-- A frame keeps its stream's counters contiguous, or is accepted all the same (03 R79): the first frame, one with
COUNTER_JUMP, one that begins where the furthest one ended or at most 65,536 rows beyond, and one that skew made late (log 54). -/
def contiguous (x : Stream) (row lanes seq pos counter : Nat) (jump : Bool) : Bool :=
  match x.anchor with
  | none => true
  | some a =>
    let next := a.2 + 3072
    jump || decide (next ≤ pos ∧ counter - next / row ≤ 65536) || skewed a lanes seq pos

/-- How many discarded frames in a row agree, this one included: each continues exactly where the one before it ended (03
R79). -/
def agreement (x : Stream) (pos : Nat) : Nat :=
  match x.agree with
  | some (p, n) => if pos = p + 3072 then n + 1 else 1
  | none => 1

/-- The furthest accepted frame after one more is accepted. -/
def nextAnchor (x : Stream) (lanes seq pos : Nat) (jump : Bool) : Nat × Nat :=
  match x.anchor with
  | some a => if !jump && skewed a lanes seq pos then a else (seq, pos)
  | none => (seq, pos)

/-- A discarded frame is counted, with one class C record per stream per second (03 R79). -/
def counterErr (s : State) (n : Nat) (x : Stream) (w : World) : State :=
  let told : Bool := match x.errTime with
    | some u => decide (s.now < u + second)
    | none => false
  let x1 := { x with counterErr := x.counterErr + 1 }
  if told then s.setStream n x1
  else raise (s.setStream n { x1 with errTime := some s.now }) 0x0201 .c w n 0

/-- Bytes that the assembly buffer holds. -/
def occupancy (s : State) : Nat :=
  sumNat (s.intake.rows.map fun r => sumNat (r.segs.map fun g => g.bytes.length))

/-- A run of bytes joins a row of a stream. -/
def addSeg (s : State) (n t : Nat) (g : Seg) : State :=
  let has := s.intake.rows.any fun r => r.counter == t && r.stream == n
  let join (r : AsmRow) : AsmRow := if r.counter = t ∧ r.stream = n then { r with segs := r.segs ++ [g] } else r
  let rows := if has then s.intake.rows.map join
    else s.intake.rows ++ [{ counter := t, stream := n, arrived := s.now, segs := [g] }]
  { s with intake := { s.intake with rows := rows } }

/-- The bytes of a frame from stream byte position `pos` on are placed in their rows; those of a row below F are late (03
R75, R76). The front starts with the first byte. -/
def placeBytes (n row : Nat) (g : Seg) : Nat → State → Nat → List Byte → State
  | 0, s, _, _ => s
  | fuel + 1, s, pos, bytes =>
    match bytes with
    | [] => s
    | _ =>
      let t := pos / row
      let off := pos % row
      let k := min (row - off) bytes.length
      let s1 := if s.intake.started then s
        else { s with intake := { s.intake with started := true, front := t, firstRow := t } }
      let s2 := if t < s1.intake.front then
          let x := s1.stream n
          s1.setStream n { x with late := x.late + BitVec.ofNat 32 k }
        else addSeg s1 n t { g with off := off, bytes := bytes.take k }
      placeBytes n row g fuel s2 (pos + k) (bytes.drop k)

/-- The fields of a SAMPLE frame's header (02 R41). -/
def hdrStream (h : List Byte) : Nat := field h 0 2 % 1024
def hdrType (h : List Byte) : Nat := field h 2 1
def hdrFormat (h : List Byte) : Nat := field h 3 1
def hdrMember (h : List Byte) : Nat := bits (field h 4 1) 0 3
def hdrSize (h : List Byte) : Nat := bits (field h 4 1) 4 2
def hdrOverload (h : List Byte) : Bool := bitOf (field h 5 1) 0
def hdrJump (h : List Byte) : Bool := bitOf (field h 5 1) 1
def hdrSeq (h : List Byte) : Nat := field h 6 2
def hdrCounter (h : List Byte) : Nat := field h 8 8
def hdrOffset (h : List Byte) : Nat := field h 16 4

/-- A SAMPLE frame that passed R48 reaches the Intake. The fourth frame that agrees is accepted as if COUNTER_JUMP had been
set (03 R79). -/
def intakeFrame (s : State) (h payload : List Byte) (sourceFault : Bool) : State :=
  let n := hdrStream h
  let x := s.stream n
  match x.entry with
  | none => s
  | some d =>
    let row := rowBytes d
    let pos := hdrCounter h * row + hdrOffset h
    let x1 := { x with state := .up, last := some s.now, sourceFault := sourceFault,
                       overload := if hdrOverload h then x.overload + 1 else x.overload }
    let lanes := groupLanes (hdrSize h)
    let agreed := agreement x1 pos
    let fits := contiguous x1 row lanes (hdrSeq h) pos (hdrCounter h) (hdrJump h)
    let jump := hdrJump h || !fits
    if fits || agreed ≥ 4 then
      let s1 := s.setStream n { x1 with anchor := some (nextAnchor x1 lanes (hdrSeq h) pos jump), agree := none,
                                        lastCounter := BitVec.ofNat 64 (hdrCounter h) }
      let g : Seg := { off := 0, bytes := [], sourceFault := sourceFault, overload := hdrOverload h, jump := jump }
      let s2 := placeBytes n row g (3072 / row + 2) s1 pos payload
      let s3 := { s2 with intake := { s2.intake with asmPeak := max s2.intake.asmPeak (occupancy s2) } }
      releaseReady s3
    else counterErr s n { x1 with agree := some (pos, agreed) } d.world

/-! ### INTAKE Clauses (03 R71 to R74, R78, R88, R93 to R100, R102) -/

/-- A product that is not suspended uses a pair of the stream. -/
def streamUsed (s : State) (d : StreamDef) : Bool := pairsUsed d (usesOf (productsIn s none)) > 0

/-- Two entries supply a common pair. -/
def streamsOverlap (a b : StreamDef) : Bool :=
  a.inBase < b.inBase + b.inCount && b.inBase < a.inBase + a.inCount && a.chBase < b.chBase + b.chCount &&
    b.chBase < a.chBase + a.chCount

/-- Gains set at once, by (input, slot). -/
def putGains (s : State) (gains : List ((Nat × Nat) × U16)) : State :=
  { s with intake := { s.intake with gains := gains.foldl (fun l x => x :: l.filter fun y => y.1 != x.1) s.intake.gains } }

/-- The gains that a TRIM_RESTORE kept for a stream become its initial gains when the counts match (15 R452). -/
def takeKeptGains (s : State) (n : Nat) (d : StreamDef) : State :=
  match s.trims.keptGains.find? fun k => k.stream == n with
  | none => s
  | some k => if k.inputs = d.inCount ∧ k.channels = d.chCount then putGains s ((streamPairs d).zip k.gains) else s

/-- INTAKE_STREAM_DEFINE, in the order of R72, then the checks of R85 and R87 on the suspended products that the stream will
feed (log 54). Gains of its pairs that an earlier stream left stay (log 54). -/
def streamDefine (s : State) (f : Fn) (n : Nat) (d : StreamDef) : Result := do
  refuseIf (n ≥ 1024) stBadParam 8
  refuseIf (d.inCount == 0 || d.inBase + d.inCount > 8192) stBadParam 14
  refuseIf (d.chCount == 0 || d.chBase + d.chCount > 1024) stBadParam 18
  refuseIf (rowBytes d > 16777216) stBadParam 14
  refuseIf (s.stream n).entry.isSome stBadParam 8
  let g ← orRefuse (findGroup s 0 d.first) stBadParam 10
  refuseIf (g.world != worldOf f) stWorldDenied 10
  refuseIf (d.shared && f == .f1) stWorldDenied 11
  let x := s.stream n
  let s0 := takeKeptGains s n d
  let s1 := s0.setStream n { x with entry := some d, state := .waiting, sourceFault := false,
                                    anchor := none, agree := none, last := none }
  quotaCheck s s1 (worldOf f)
  refuseIf ((definedStreams s).any fun e => streamsOverlap d e) stBadParam 12
  refuseIf (s1.corrs.any (mixesC8 s1)) stBadParam 11
  refuseIf (gainsUsed s1 (fun _ => true) > gainTable) stBadParam 11
  done s1

def execIntakeStreamDefine (src : Src) (stream : U16) (first flags : U8) (inBase inCount chBase chCount : U16) (source : U32)
    (s : State) : Host.Outcome State Fault Refusal :=
  runClause (.intakeStreamDefine src stream first flags inBase inCount chBase chCount source) s fun s =>
    streamDefine s src.fn stream.toNat
      { first := first.toNat, c8 := bitOf flags.toNat 0, inBase := inBase.toNat, inCount := inCount.toNat,
        chBase := chBase.toNat, chCount := chCount.toNat, source := source, world := worldOf src.fn,
        shared := bitOf flags.toNat 1 }

/-- A stream that a Clause names is defined and of the submitting world. -/
def namedStream (s : State) (f : Fn) (n off : Nat) : Except Reply StreamDef := do
  let d ← orRefuse (if n < 1024 then (s.stream n).entry else none) stBadParam off
  refuseIf (d.world != worldOf f) stWorldDenied off
  return d

/-- INTAKE_STREAM_RELEASE: the entry is cleared, with what its rows held. -/
def streamRelease (s : State) (f : Fn) (n : Nat) : Result := do
  let d ← namedStream s f n 8
  refuseIf (streamUsed s d) stBusy 8
  let keep (l : List AsmRow) : List AsmRow := l.filter fun r => r.stream != n
  let x := s.stream n
  let s1 := s.setStream n { x with entry := none, state := .undefined, sourceFault := false }
  let s2 := { s1 with
    intake := { s1.intake with rows := keep s1.intake.rows,
                               released := s1.intake.released.map fun r => { r with parts := keep r.parts },
                               settled := s1.intake.settled.map fun r => { r with parts := keep r.parts },
                               gainLoads := s1.intake.gainLoads.filter fun l => l.stream != n },
    trims := { s1.trims with levels := s1.trims.levels.filter fun l => l.stream != n } }
  done (releaseReady s2)

def execIntakeStreamRelease (src : Src) (stream : U16) (s : State) : Host.Outcome State Fault Refusal :=
  runClause (.intakeStreamRelease src stream) s fun s => streamRelease s src.fn stream.toNat

/-- INTAKE_SET_SKEW: rows whose new deadline has passed are released at once (03 R78). -/
def setSkew (s : State) (w : Nat) : Result := do
  refuseIf (w < 200 || w > 20000 || w % 5 != 0) stBadParam 8
  let s1 := { s with intake := { s.intake with skew := w } }
  let top := s1.intake.rows.foldl (fun m r => max m (r.counter + 1)) s1.intake.front
  done (releaseReady (releaseWhile rowExpired (top - s1.intake.front) s1))

def execIntakeSetSkew (src : Src) (w : U16) (s : State) : Host.Outcome State Fault Refusal :=
  runClause (.intakeSetSkew src w) s fun s => setSkew s w.toNat

/-- INTAKE_SET_EPOCH (03 R93 to R96). -/
def setEpoch (s : State) (t0 : U96) (num den tol : Nat) : Result := do
  refuseIf (!timeOk t0) stBadParam 8
  refuseIf (num == 0) stBadParam 20
  refuseIf (den == 0) stBadParam 24
  refuseIf (num > 50000000 * den) stBadParam 20
  refuseIf (tol < 1000 || tol > 1000000000) stBadParam 28
  refuseIf ((definedStreams s).any fun d => streamUsed s d) stBusy 8
  done { s with intake := { s.intake with t0 := timeOf t0, num := num, den := den, tolerance := tol, epochSet := true } }

def execIntakeSetEpoch (src : Src) (t0 : U96) (num den tolerance : U32) (s : State) : Host.Outcome State Fault Refusal :=
  runClause (.intakeSetEpoch src t0 num den tolerance) s fun s => setEpoch s t0 num.toNat den.toNat tolerance.toNat

/-- The longest dwell of the correlation products that use an input of the pairs, in whatever slot, 0 where none does (03
R88). -/
def longestDwell (s : State) (pairs : List (Nat × Nat)) : Nat :=
  s.corrs.foldl (fun m c =>
    let es := mapEntries s c.map
    if pairs.any fun p => es.contains p.1 then max m (2 ^ c.log2Td) else m) 0

/-- The counter at which gains loaded now take effect (03 R88). -/
def gainBoundary (s : State) (pairs : List (Nat × Nat)) : Nat :=
  let t := longestDwell s pairs
  if t = 0 then s.intake.front else roundUp s.intake.front t

/-- A load of gains waits for its boundary; it replaces what an earlier load whose boundary has not come still waits to set
for the same pairs, and the result of a level trim there (03 R88, 15 R445). -/
def loadGains (s : State) (n boundary : Nat) (gains : List ((Nat × Nat) × U16)) (trim : Bool) : State :=
  let fresh (l : GainLoad) : GainLoad :=
    if l.boundary < s.intake.front then l
    else { l with gains := l.gains.filter fun x => !gains.any fun y => y.1 == x.1 }
  let s1 := { s with intake := { s.intake with gainLoads := (s.intake.gainLoads.map fresh) ++
    [{ stream := n, boundary := boundary, gains := gains, trim := trim,
       atFront := longestDwell s (gains.map Prod.fst) == 0 }] } }
  if trim then s1
  else { s1 with trims := { s1.trims with levels := s1.trims.levels.map fun l =>
    if l.stream = n then { l with replaced := l.replaced ++ gains.map Prod.fst } else l } }

/-- INTAKE_SET_GAINS (03 R88). -/
def setGains (s : State) (f : Fn) (n first count chFirst chCount : Nat) (buf : HBuf) (data : HRead) : Result := do
  let d ← orRefuse (if n < 1024 then (s.stream n).entry else none) stBadParam 8
  refuseIf (first + count > d.inCount || count == 0) stBadParam 12
  refuseIf (chFirst + chCount > d.chCount || chCount == 0) stBadParam 16
  refuseIf (d.world != worldOf f) stWorldDenied 8
  if buf.len.toNat ≠ 2 * count * chCount then badLength (2 * count * chCount) buf.len.toNat
  else
    let bs ← readBuf buf data
    let pairs := (List.range chCount).flatMap fun c => (List.range count).map fun i =>
      (d.inBase + first + i, d.chBase + chFirst + c)
    let b := gainBoundary s pairs
    let gains := (enumFrom0 pairs).map fun (k, p) => (p, BitVec.ofNat 16 (field bs (2 * k) 2))
    deferred (loadGains s n b gains false) 1 b

def execIntakeSetGains (src : Src) (stream first count chFirst chCount : U16) (buf : HBuf) (data : HRead) (s : State) :
    Host.Outcome State Fault Refusal :=
  runClause (.intakeSetGains src stream first count chFirst chCount buf data) s fun s =>
    setGains s src.fn stream.toNat first.toNat count.toNat chFirst.toNat chCount.toNat buf data

/-- The demand of a STATS product: its records (03 R98); the pairs it uses cost it no ingest. -/
def statDemand (s : State) (x : Stats) (route : U32) : Demand :=
  let perSec := slotRate s / (x.len : Nat)
  { Demand.zero with bytes := perSec * ((80 + 32 * x.inCount * x.chCount : Nat)), route := route, records := perSec,
                     uses := [((List.range x.inCount).map (· + x.inBase), x.chBase, x.chCount)] }

/-- INTAKE_STATS_DEFINE (03 R97, R98). -/
def statsDefine (s : State) (f : Fn) (x : Stats) (tap : Nat) (route : U32) : Result := do
  admitGate s
  refuseIf (!pidFree s x.pid) stBadParam 8
  let d ← orRefuse (if x.stream < 1024 then (s.stream x.stream).entry else none) stBadParam 10
  refuseIf (x.inCount == 0 || x.inBase < d.inBase || x.inBase + x.inCount > d.inBase + d.inCount) stBadParam 14
  refuseIf (x.chCount == 0 || x.chBase < d.chBase || x.chBase + x.chCount > d.chBase + d.chCount) stBadParam 18
  refuseIf (x.inCount * x.chCount > 1048576) stBadParam 14
  refuseIf (x.log2Int < 12 || x.log2Int > 20) stBadParam 20
  refuseIf (tap > 1 || tap == 1 && !requantized s d) stBadParam 21
  let maxRec := 80 + 32 * x.inCount * x.chCount
  routeParams s f route maxRec 24
  refuseIf (s.intake.stats.length ≥ 64) stBadParam 8
  refuseIf (d.world != worldOf f && !d.shared) stWorldDenied 10
  routeWorld s (worldOf f) route 24
  let x1 := clearStats { x with post := tap == 1, firstStart := roundUp s.intake.front x.len }
  let p := newProduct x.pid .stats (worldOf f) f route (statDemand s x1 route) maxRec
  let s1 := s.setProduct x.pid p
  let s2 := { s1 with intake := { s1.intake with stats := s1.intake.stats ++ [x1] } }
  admission s s2 (worldOf f)
  done s2

def execIntakeStatsDefine (src : Src) (pid stream inBase inCount chBase chCount : U16) (log2Int tap : U8) (route : U32)
    (s : State) : Host.Outcome State Fault Refusal :=
  runClause (.intakeStatsDefine src pid stream inBase inCount chBase chCount log2Int tap route) s fun s =>
    statsDefine s src.fn
      { pid := pid.toNat, stream := stream.toNat, inBase := inBase.toNat, inCount := inCount.toNat, chBase := chBase.toNat,
        chCount := chCount.toNat, log2Int := log2Int.toNat, post := false, firstStart := 0, sums := [], stale := false,
        rows := 0, stopping := false } tap.toNat route

/-- INTAKE_STATS_RELEASE: the interval in progress, if a row of it has been released, ends here with PARTIAL (03 R100). Rows of
a granule that has not settled are not in its sums (log 68). -/
def statsRelease (s : State) (f : Fn) (pid : Nat) : Result := do
  let p ← namedProduct s f pid [.stats] 8
  match s.intake.stats.find? fun x => x.pid == pid with
  | none => refuse stBadParam 8
  | some x =>
    let start := s.intake.front / x.len * x.len
    let s1 := if !p.suspended && start ≥ x.firstStart && s.intake.front > start then
        emitRecord s pid (statRecord s x start true)
      else s
    let s2 := { s1 with intake := { s1.intake with stats := s1.intake.stats.filter fun y => y.pid != pid } }
    done (productStopped (s2.delProduct pid) pid)

def execIntakeStatsRelease (src : Src) (pid : U16) (s : State) : Host.Outcome State Fault Refusal :=
  runClause (.intakeStatsRelease src pid) s fun s => statsRelease s src.fn pid.toNat

end Sys2Proof.Machine
end

