-- ==== Sys2Proof/Machine/Grid.lean ====
section
/-! DEFINITION. The Relief grid: operands and sums, the stage, the dwell plan, super-tiles, preemption and contexts (04). -/

namespace Sys2Proof.Machine

def State.setRelief (s : State) (r : Relief) : State := { s with relief := r }

/-! ### Operands and sums (04 R106, R121, 03 R90) -/

/-- The corner-turn set of a product. -/
def corrSet (s : State) (c : Corr) : Option CtSet := s.intake.sets.find? fun x => x.id == c.set

/-- The history entry of a dwell. -/
def histOf (x : CtSet) (d : Nat) : Option HistDwell := x.hist.find? fun h => h.dwell == d

/-- A granule of a map position and channel index was valid in dwell d (03 R90, R92). -/
def granuleValid (x : CtSet) (d pos c g : Nat) : Bool :=
  match histOf x d with
  | some h => !h.overrun && !h.invalid.contains (pos, c, g)
  | none => false

/-- The dwell weight of a baseline: its granules in which both inputs are valid (04 R121). -/
def dwellWeight (x : CtSet) (d i j c : Nat) : Nat :=
  ((List.range (x.td / 256)).filter fun k =>
    let g := d * x.td / 256 + k
    granuleValid x d i c g && granuleValid x d j c g).length

/-- The weight of a baseline over a dwell as the history port reads it: granules whose history is poisoned are invalid (05
R151, 10 R326). -/
def historyWeight (s : State) (p : Corr) (x : CtSet) (d i j c : Nat) : Nat :=
  ((List.range (x.td / 256)).filter fun k =>
    let g := d * x.td / 256 + k
    granuleValid x d i c g && granuleValid x d j c g && !historyLost s p d i c k && !historyLost s p d j c k).length

/-- A sample as the Relief reads it from the corner turn: the flag code enters as zero (03 R90, 04 R106). -/
def operand (s : State) (x : CtSet) (n pos c t : Nat) : Int × Int :=
  if (histOf x (t / x.td)).any fun h => h.overrun then (0, 0)
  else
    let a := allocBase s (.ctSet x.id) + ctOffset x n pos c t
    let v := decodeSample x.c8 (memGet a s.hbm.mem) (if x.c8 then memGet (a + 1) s.hbm.mem else 0)
    if flagCode x.c8 v then (0, 0) else v

/-- The sum of x_i · x_j* over a dwell (04 R106). -/
def baselineSum (s : State) (x : CtSet) (n i j c d : Nat) : Int × Int :=
  (List.range x.td).foldl (fun a k =>
    let p := operand s x n i c (d * x.td + k)
    let q := operand s x n j c (d * x.td + k)
    (a.1 + p.1 * q.1 + p.2 * q.2, a.2 + p.2 * q.1 - p.1 * q.2)) (0, 0)

/-- The map positions of a baseline of a cell: 16a + c for row input a and column input c (04 R105; log 31). -/
def cellInputs (t : Tile) (row col baseline : Nat) : Nat × Nat :=
  (512 * t.u + 16 * row + baseline / 16, 512 * t.v + 16 * col + baseline % 16)

/-- The baselines i ≥ j that a super-tile has elements for (04 R114). -/
def tileElems (n : Nat) (t : Tile) : List (Nat × Nat) :=
  (span (512 * t.u) (512 * t.u + blockWidth n t.u)).flatMap fun i =>
    ((span (512 * t.v) (512 * t.v + blockWidth n t.v)).filter (· ≤ i)).map fun j => (i, j)

/-- The cell and baseline of an element (04 R105; log 31). -/
def elemCell (t : Tile) (i j : Nat) : Nat × Nat × Nat :=
  let a := i - 512 * t.u
  let b := j - 512 * t.v
  (a / 16, b / 16, a % 16 * 16 + b % 16)

/-- A block of operands that a super-tile reads holds a poisoned word (10 R326). -/
def blockPoisoned (s : State) (x : CtSet) (n c d b : Nat) : Bool :=
  let lo := allocBase s (.ctSet x.id) + ctOffset x n (512 * b) c (d * x.td)
  poisoned s lo (lo + x.td * blockWidth n b * x.width)

/-! ### Physical cells (04 R104, 06 R186) -/

/-- The physical position of a logical column in a row. -/
def physPos (bypass : Option Nat) (col : Nat) : Nat :=
  match bypass with
  | some p => if col < p then col else col + 1
  | none => col

/-- The logical column that a physical position carries. -/
def logicalCol (bypass : Option Nat) (pos : Nat) : Option Nat :=
  match bypass with
  | some p => if pos = p then none else if pos < p then some pos else some (pos - 1)
  | none => if pos < 32 then some pos else none

def rowBypass (s : State) (row : Nat) : Option Nat := vget s.relief.bypass row none

/-- The logical cells that fences cover. -/
def fencedCells (s : State) : List (Nat × Nat) :=
  s.relief.fences.filterMap fun f => (logicalCol (rowBypass s f.row) f.pos).map fun c => (f.row, c)

/-! ### The plan (04 R127) -/

/-- The deadline of a channel-dwell: the release of row (d + 2) · T_d. -/
def deadline (s : State) (pid d : Nat) : Nat :=
  match s.corr pid with
  | some c => (d + 2) * c.td
  | none => 0

/-- One channel-dwell runs before another: the earlier deadline, then the lower product, dwell and channel. -/
def dwellBefore (s : State) (a b : ChanDwell) : Bool :=
  let da := deadline s a.pid a.dwell
  let db := deadline s b.pid b.dwell
  decide (da < db) || (da == db && (decide (a.pid < b.pid) || (a.pid == b.pid && (decide (a.dwell < b.dwell) ||
    (a.dwell == b.dwell && decide (a.chan < b.chan))))))

/-- The ready channel-dwell that runs next. -/
def nextReady (s : State) : Option ChanDwell :=
  s.relief.ready.foldl (fun best x => match best with
    | some y => if dwellBefore s x y then some x else some y
    | none => some x) none

/-- The plan is recompiled (04 R127). -/
def recompile (s : State) : State := s.setRelief { s.relief with planGen := s.relief.planGen + 1 }

/-! ### The stage (04 R115 to R118) -/

/-- Row blocks of a channel-dwell. -/
def dwellBlocks (s : State) (cd : ChanDwell) : Nat :=
  match s.corr cd.pid with
  | some c => blocksOf (corrInputs s c).length
  | none => 0

/-- The bytes B_blk of a block of a channel-dwell. -/
def blockBytes (s : State) (pid : Nat) : Nat :=
  match s.corr pid with
  | some c => 512 * c.td * c.width
  | none => 0

/-- The first row blocks of the next channel-dwell, which it loads ahead; with one row block it stages nothing (04 R115,
R117). -/
def nextRow (next : Option (ChanDwell × Nat)) (k : Nat) : Option (ChanDwell × Bool × Nat) :=
  match next with
  | some (nd, nb) => if 2 ≤ nb && k < nb then some (nd, false, k) else none
  | none => none

/-- The row slots while super-tile `idx` runs: each row block of the band that later super-tiles use; in the slot of one
that they do not, the corresponding block of the next band, or of the next channel-dwell (04 R117). After the last
super-tile, and where the channel-dwell stages nothing, every slot is the next channel-dwell's. -/
def stageRows (cd : ChanDwell) (b idx : Nat) (next : Option (ChanDwell × Nat)) : List (ChanDwell × Bool × Nat) :=
  match if b < 2 then none else (tileOrder b)[idx]? with
  | none => (List.range 4).filterMap (nextRow next)
  | some (u0, _) =>
    let m := u0 / 4
    let rest := ((tileOrder b).drop idx).filter fun t => t.1 / 4 == m
    (List.range 4).filterMap fun k =>
      let u := 4 * m + k
      if u < b && rest.any fun t => t.1 == u || t.2 == u then some (cd, false, u)
      else if u + 4 < b then some (cd, false, u + 4)
      else if 4 * (m + 1) < b then none
      else nextRow next k

/-- The column slots while super-tile `idx` runs (04 R115, R117): the column in use and the next one, or the first two
of the next band during the diagonal part. -/
def stageCols (cd : ChanDwell) (b idx : Nat) : List (ChanDwell × Bool × Nat) :=
  if b < 5 then []
  else match (tileOrder b)[idx]? with
    | none => []
    | some (u, v) =>
      let m := u / 4
      if v < 4 * m then ([v, v + 1].filter (· < 4 * m)).map fun k => (cd, true, k)
      else if 4 * (m + 1) < b then [(cd, true, 0), (cd, true, 1)]
      else []

/-- What the stage slots are for now: the blocks of the channel-dwell that runs, then those of the next one. Blocks loaded for
a channel-dwell that another one overtakes give way (log 55). -/
def stageWant (s : State) : List (ChanDwell × Bool × Nat) :=
  match s.relief.cur with
  | none => []
  | some (cd, idx) =>
    let b := dwellBlocks s cd
    let all := stageRows cd b idx ((nextReady s).map fun x => (x, dwellBlocks s x)) ++ stageCols cd b idx
    (all.filter fun w => w.1 == cd) ++ all.filter fun w => w.1 != cd

/-- The blocks of a list that the 64 MiB of the stage hold; the others wait for room (04 R115, R118). -/
def stageFit (s : State) : Nat → List (ChanDwell × Bool × Nat) → List (ChanDwell × Bool × Nat)
  | _, [] => []
  | room, w :: t =>
    let n := blockBytes s w.1.pid
    if n ≤ room then w :: stageFit s (room - n) t else stageFit s room t

/-- Loads begin in the slots that fall free; the occupancy peak follows (04 R117, R137). -/
def restage (s : State) : State :=
  let keep (w : ChanDwell × Bool × Nat) : StageSlot :=
    { cd := w.1, col := w.2.1, block := w.2.2,
      loaded := s.relief.stage.any fun x => x.loaded && x.cd == w.1 && x.col == w.2.1 && x.block == w.2.2 }
  let slots := (stageFit s 67108864 (stageWant s)).map keep
  let mib := ceilDiv (sumNat (slots.map fun x => blockBytes s x.cd.pid)) 1048576
  s.setRelief { s.relief with stage := slots, stagePeak := max s.relief.stagePeak mib }

/-- A block is loaded in a slot. -/
def blockLoaded (s : State) (cd : ChanDwell) (col : Bool) (block : Nat) : Bool :=
  s.relief.stage.any fun x => x.loaded && x.cd == cd && x.col == col && x.block == block

/-- The blocks of a super-tile are in the stage; with one row block nothing is staged (04 R115). -/
def tileStaged (s : State) (cd : ChanDwell) (b u v : Nat) : Bool :=
  b < 2 || (blockLoaded s cd false u && (if v / 4 = u / 4 then blockLoaded s cd false v else blockLoaded s cd true v))

/-! ### Starting super-tiles -/

/-- RCLK cycles from a Plinth time until now (01 R17). -/
def rclkSince (s : State) (t : Nat) : Nat := (s.now - t) * 8 / (5 * nanos)

/-- The wait for a block is over: its cycles count (04 R118). -/
def endStageStall (s : State) : State :=
  match s.relief.stageStall with
  | none => s
  | some t => s.setRelief { s.relief with stageStall := none, stallStage := s.relief.stallStage + BitVec.ofNat 32 (rclkSince s t) }

/-- The wait for a draining set is over, unless the drain still waits for an emit slot, which counts as well (04 R107, R135,
05 R152). -/
def endDrainStall (s : State) : State :=
  match s.istore.emitStall.isSome, s.relief.drainStall with
  | true, _ => s
  | _, none => s
  | false, some t => s.setRelief { s.relief with drainStall := none, stallDrain := s.relief.stallDrain + BitVec.ofNat 32 (rclkSince s t) }

/-- Repair work that waits to run (04 R133). -/
def waitingRepairs (s : State) : List RepInc := s.relief.incidents.filter fun i => !i.working

/-- Context slots in use. -/
def slotsUsed (s : State) : Nat := (s.relief.slots.toList.filter Option.isSome).length

/-- The grid may start a super-tile of its plan: it is not gated, nothing accumulates, no context waits and no repair work
waits (04 R127, R131). -/
def gridFree (s : State) : Bool :=
  !gated s && s.relief.acc.isNone && slotsUsed s == 0 && (waitingRepairs s).isEmpty

/-- The next super-tile of the channel-dwell starts, or the grid waits for its blocks (04 R118). -/
def startTile (s : State) : State :=
  match s.relief.cur with
  | none => s
  | some (cd, idx) =>
    let b := dwellBlocks s cd
    match gridFree s, s.corr cd.pid, (tileOrder b)[idx]? with
    | true, some c, some (u, v) =>
      if tileStaged s cd b u v then
        let s1 := endStageStall s
        let run : Run := { tile := { pid := cd.pid, dwell := cd.dwell, chan := cd.chan, u := u, v := v }, kind := .first,
                           mode := modeAt c cd.dwell, offset := 0, folded := 0 }
        s1.setRelief { s1.relief with acc := some run }
      else if s.relief.stageStall.isSome then s
      else s.setRelief { s.relief with stageStall := some s.now }
    | _, _, _ => s

/-! ### Bypass and fence changes (06 R184, R186) -/

/-- Replace an incident in a list. -/
def putInc (x : RepInc) (l : List RepInc) : List RepInc := l.map fun y => if y.id = x.id then x else y

/-- The pending change of one incident is made; the recomputation may follow. -/
def makeChange (s : State) (i : RepInc) : State :=
  let r := s.relief
  match i.phase with
  | .bypass row pos =>
    let bp := match rowBypass s row with
      | some p => some p
      | none => some pos
    s.setRelief { r with bypass := vset r.bypass row bp, incidents := putInc { i with phase := .recompute false } r.incidents }
  | .fence row pos =>
    let have_ := r.fences.any fun f => f.row == row && f.pos == pos
    if have_ then s.setRelief { r with incidents := putInc { i with phase := .recompute true } r.incidents }
    else if r.fences.length < 4 then
      s.setRelief { r with fences := r.fences ++ [{ row := row, pos := pos }],
                           incidents := putInc { i with phase := .recompute true } r.incidents }
    else classF s 0x0306 (s.worldOfProduct i.tile.pid) false (tileRes i.tile) i.tile.dwell
  | _ => s

/-- A bypass or fence changes only while no super-tile accumulates and no set drains (06 R184). -/
def makeChanges (s : State) : State :=
  if s.relief.acc.isSome || !s.relief.drain.isEmpty || s.relief.slots.toList.any fun o => o.any fun x => !x.saved then s
  else s.relief.incidents.foldl makeChange s

/-- The cell words of a TRIM_RESTORE take effect between channel-dwells: a row with a repair keeps it, spare-bad marks are
combined, fences are added up to four (15 R452). -/
def applyCellWords (s : State) : State :=
  match s.trims.restoring with
  | none => s
  | some w =>
    if !s.relief.drain.isEmpty then s
    else
      let s1 := (enumFrom0 w.rows).foldl (fun t x =>
        let r := t.relief
        let bp := match rowBypass t x.1 with
          | some p => some p
          | none => if bitOf x.2 6 then some (bits x.2 0 6) else none
        let t1 := t.setRelief { r with bypass := vset r.bypass x.1 bp }
        if bitOf x.2 7 then { t1 with trims := { t1.trims with spareBad := t1.trims.spareBad ||| BitVec.ofNat 32 (2 ^ x.1) } }
        else t1) s
      let s2 := w.fences.foldl (fun t f =>
        let x : Fence := { row := bits f 0 5, pos := bits f 5 6 }
        if bitOf f 11 && !t.relief.fences.contains x && t.relief.fences.length < 4 then
          t.setRelief { t.relief with fences := t.relief.fences ++ [x] }
        else t) s1
      { s2 with trims := { s2.trims with restoring := none } }

/-! ### The events of the grid -/

/-- The channel-dwell that the grid has finished leaves; one that finished after its deadline counts as late (04 R127,
R138). -/
def finishDwell (s : State) (cd : ChanDwell) : State :=
  let s1 := s.setRelief { s.relief with cur := none }
  match s1.corr cd.pid with
  | some c => if s1.intake.front > deadline s1 cd.pid cd.dwell then s1.setCorr { c with lateDwells := c.lateDwells + 1 } else s1
  | none => s1

/-- The ready channel-dwell with the earliest deadline starts (04 R127). -/
def startDwell (s : State) : State :=
  match nextReady s with
  | none => s
  | some cd =>
    let s1 := s.setRelief { s.relief with cur := some (cd, 0), ready := s.relief.ready.filter (· != cd) }
    let s2 := match s1.corr cd.pid with
      | some c => s1.setCorr { c with begun := max c.begun (cd.dwell + 1) }
      | none => s1
    startTile (restage s2)

/-- The grid finishes a channel-dwell and starts the next one (04 R127, R128; 15 R452). -/
def execChannelDwellFinish (s : State) : Host.Outcome State Fault Refusal :=
  .next (
    if gated s || s.relief.acc.isSome || slotsUsed s > 0 then s
    else match s.relief.cur with
      | none => startDwell (applyCellWords s)
      | some (cd, idx) =>
        if idx ≥ tilesOf (dwellBlocks s cd) then startDwell (applyCellWords (finishDwell s cd)) else s)

/-- A block load into a stage slot completes (04 R117). -/
def execStageBlockLoadDone (col : Bool) (block : Nat) (s : State) : Host.Outcome State Fault Refusal :=
  let rec mark : List StageSlot → List StageSlot
    | [] => []
    | x :: t => if !x.loaded && x.col == col && x.block == block then { x with loaded := true } :: t else x :: mark t
  .next (if gated s then s else startTile (s.setRelief { s.relief with stage := mark s.relief.stage }))

/-- The draining set is free for a run to swap into: nothing drains, and for a run of the plan no matched super-tile waits
in it for its commit (04 R107, R134, R135; log 32). -/
def setFree (s : State) (run : Run) : Bool :=
  s.relief.drain.isEmpty && (run.kind != .first || s.relief.spill.all fun x => !x.matched)

/-- RCLK cycles of a whole super-tile (04 R108). -/
def tileCycles (td mode : Nat) : Nat := if mode = 0 then td / 2 else if mode = 1 then td / 4 else 2 * td

/-- The sets swap: the run drains and the next super-tile of the plan starts; or the grid stalls (04 R107). -/
def trySwap (s : State) : State :=
  match s.relief.acc with
  | none => s
  | some run =>
    match s.corr run.tile.pid with
    | none => s.setRelief { s.relief with acc := none }
    | some c =>
      if run.offset < c.td then s
      else if setFree s run then
        let s1 := endDrainStall s
        let r := s1.relief
        let cur := match run.kind, r.cur with
          | .first, some (cd, idx) => some (cd, idx + 1)
          | _, x => x
        startTile (restage (s1.setRelief
          { r with acc := none, drain := r.drain ++ [run], cur := cur, tileDwells := r.tileDwells + 1,
                   busyCycles := r.busyCycles + BitVec.ofNat 64 (tileCycles c.td run.mode) }))
      else if s.relief.drainStall.isSome then s
      else s.setRelief { s.relief with drainStall := some s.now }

/-- The grid waits for a draining set (04 R107, R135): a super-tile is complete and its sets have not swapped. -/
def drainBlocked (s : State) : Bool :=
  s.relief.drainStall.isSome && s.relief.acc.any fun run => (s.corr run.tile.pid).any fun c => c.td ≤ run.offset

/-- A run whose samples have all been taken; in NARROW mode the last fold falls on the last cycle (04 R109). -/
def runEnd (td : Nat) (run : Run) : Run :=
  { run with offset := td, folded := (if run.mode = 1 then td else 0) }

/-- Accumulation of a super-tile ends (04 R107, R113). -/
def execSuperTileEnd (s : State) : Host.Outcome State Fault Refusal :=
  .next (match gated s, s.relief.acc with
    | false, some run =>
      match s.corr run.tile.pid with
      | some c =>
        trySwap (s.setRelief { s.relief with acc := some (runEnd c.td run) })
      | none => s.setRelief { s.relief with acc := none }
    | _, _ => s)

/-- A run whose half accumulators have been folded once more. -/
def fold512 (run : Run) : Run := { run with folded := run.folded + 512, offset := max run.offset (run.folded + 512) }

/-- Every 128 RCLK cycles, 512 samples, the NARROW half accumulators fold into the fold register and clear (04 R109). -/
def execNarrowFold (s : State) : Host.Outcome State Fault Refusal :=
  .next (match gated s, s.relief.acc with
    | false, some run =>
      match s.corr run.tile.pid with
      | some c =>
        if run.mode = 1 ∧ run.folded < c.td then
          s.setRelief { s.relief with acc := some (fold512 run) }
        else s
      | none => s
    | _, _ => s)

/-- A run reaches its next preemption point: 512 samples on; in NARROW mode at a fold (04 R131). -/
def atPoint (td : Nat) (run : Run) : Run :=
  if run.mode = 1 then { run with offset := max run.folded 512, folded := max run.folded 512 }
  else { run with offset := min td (run.offset + 512) }

/-- The waiting repair work preempts a run: always one of the plan; repair work only for another incident with an earlier
deadline (04 R131, R133). -/
def preempts (s : State) (run : Run) (i : RepInc) : Bool :=
  run.kind == .first || (i.tile != run.tile && decide (deadline s i.tile.pid i.tile.dwell < deadline s run.tile.pid run.tile.dwell))

/-- The lowest free context slot. -/
def freeSlot (s : State) : Option Nat := (List.range 2).find? fun n => (vget s.relief.slots n none).isNone

/-- A running super-tile is preempted for waiting repair work (04 R131). -/
def execPreemptionPoint (s : State) : Host.Outcome State Fault Refusal :=
  .next (match gated s, s.relief.acc with
    | false, some run0 =>
      let td := match s.corr run0.tile.pid with
        | some c => c.td
        | none => 0
      let run := if run0.offset < td then atPoint td run0 else run0
      match (waitingRepairs s).find? (preempts s run), freeSlot s with
      | some i, some n =>
        let s1 := endDrainStall s
        s1.setRelief { s1.relief with acc := none, slots := vset s1.relief.slots n (some { run := run, saved := false }),
                                      preempts := s1.relief.preempts + 1, starter := some i.id }
      | _, _ => s.setRelief { s.relief with acc := some run }
    | _, _ => s)

/-- A context is saved: repair work or a bypass change may start (04 R132, 06 R184). -/
def execContextSaveDone (slot : Fin 2) (s : State) : Host.Outcome State Fault Refusal :=
  .next (match gated s, vget s.relief.slots slot.val none with
    | false, some x =>
      makeChanges (s.setRelief { s.relief with slots := vset s.relief.slots slot.val (some { x with saved := true }) })
    | _, _ => s)

/-- The repair work that may run next: that for which the latest preemption was made; else, while a slot is free, the first
waiting that the super-tile saved last gives way to (04 R133). -/
def nextRepair (s : State) : Option RepInc :=
  let w := waitingRepairs s
  match s.relief.starter.bind fun id => w.find? fun i => i.id == id with
  | some i => some i
  | none =>
    if slotsUsed s == 2 then none
    else w.find? fun i => s.relief.slots.toList.all fun o => o.all fun x => preempts s x.run i

/-- The latest preemption made way for repair work that has not started. -/
def repairDue (s : State) : Bool := s.relief.starter.any fun id => (waitingRepairs s).any fun i => i.id == id

/-- A saved super-tile is restored, by logical cell, and continues at its saved offset; the one saved last comes back first
(04 R132, R133, 06 R191). -/
def execContextRestoreDone (slot : Fin 2) (s : State) : Host.Outcome State Fault Refusal :=
  .next (match gated s, vget s.relief.slots slot.val none with
    | false, some x =>
      if x.saved && s.relief.acc.isNone && !repairDue s && (slot.val == 1 || (vget s.relief.slots 1 none).isNone) then
        trySwap (s.setRelief { s.relief with acc := some x.run, slots := vset s.relief.slots slot.val none })
      else s
    | _, _ => s)

/-- The run that repair work makes. -/
def repairRun (s : State) (i : RepInc) : Run :=
  { tile := i.tile, kind := if i.phase = .retry then .retry else .recompute,
    mode := match s.corr i.tile.pid with
      | some c => modeAt c i.tile.dwell
      | none => 0,
    offset := 0, folded := 0 }

/-- A waiting retry or recomputation starts when a context slot and the grid allow, in the order of detection (04 R131,
R133). From here on the grid waits for no block (04 R118). -/
def execRepairWorkStart (s0 : State) : Host.Outcome State Fault Refusal :=
  let s := if gated s0 then s0 else makeChanges s0
  .next (
    if gated s || s.relief.acc.isSome || s.relief.slots.toList.any fun o => o.any fun x => !x.saved then s
    else match nextRepair s with
      | none => s
      | some i =>
        match i.phase with
        | .bypass _ _ | .fence _ _ => s
        | _ =>
          let s1 := endStageStall s
          s1.setRelief { s1.relief with acc := some (repairRun s1 i), starter := none,
                                        incidents := putInc { i with working := true } s1.relief.incidents })

end Sys2Proof.Machine
end

