-- ==== Sys2Proof/Machine/Repair.lean ====
section
/-! DEFINITION. Checksum comparison at the drain and the repair sequence of the Relief (06 R175 to R198). -/

namespace Sys2Proof.Machine

/-! ### Errors of drained values -/

/-- The order in which errors are listed: by grid row, logical column and baseline. -/
def errKey (e : CellErr) : Nat := (e.row * 32 + e.col) * 256 + e.baseline

/-- Errors gathered per baseline, in order, without those that add up to nothing. -/
def mergeErrs (l : List CellErr) : List CellErr :=
  let add (t : List (Nat × CellErr)) (e : CellErr) : List (Nat × CellErr) :=
    match tabGet (errKey e) t with
    | some x => tabSet (errKey e) { x with re := x.re + e.re, im := x.im + e.im, weight := x.weight + e.weight } t
    | none => tabSet (errKey e) e t
  ((l.foldl add []).map Prod.snd).filter fun e => e.re != 0 || e.im != 0 || e.weight != 0

/-- The amount by which inverting one bit changes a 32-bit two's-complement value. -/
def flipDelta (v : Int) (bit : Nat) : Int :=
  let w := (v % 4294967296).toNat
  let d : Int := if bit = 31 then -(2 ^ 31 : Nat) else (2 ^ bit : Nat)
  if bitOf w bit then -d else d

/-- What a drained accumulator would hold without errors. -/
def trueSum (s : State) (run : Run) (row col baseline : Nat) : Int × Int :=
  match s.corr run.tile.pid with
  | none => (0, 0)
  | some c =>
    let n := (corrInputs s c).length
    let p := cellInputs run.tile row col baseline
    match corrSet s c with
    | some x => if p.1 < n && p.2 < n then baselineSum s x n p.1 p.2 run.tile.chan run.tile.dwell else (0, 0)
    | none => (0, 0)

/-- The error an injected fault makes in a drain, where its position carries a logical column (06 R198). -/
def injectErr (s : State) (run : Run) (errs : List CellErr) (j : Inject) : Option CellErr :=
  (logicalCol (rowBypass s j.row) j.pos).map fun col =>
    let v := trueSum s run j.row col j.baseline
    let e := (errs.find? fun x => x.row == j.row && x.col == col && x.baseline == j.baseline).getD
      { row := j.row, col := col, baseline := j.baseline, re := 0, im := 0, weight := 0 }
    if j.im then { e with re := 0, im := flipDelta (v.2 + e.im) j.bit, weight := 0 }
    else { e with re := flipDelta (v.1 + e.re) j.bit, im := 0, weight := 0 }

/-- Two injected faults invert the same bit of the same accumulator. -/
def sameBit (a b : Inject) : Bool := a.row == b.row && a.pos == b.pos && a.baseline == b.baseline && a.im == b.im && a.bit == b.bit

/-- The bits that injected faults invert: one that several name is inverted once (06 R198; log 79). -/
def injectBits (s : State) : List Inject :=
  s.relief.injects.foldl (fun l j => if l.any (sameBit j) then l else l ++ [j]) []

/-- The errors of a drain: those of the silicon and the injected ones, in no fenced cell (06 R186, R198). -/
def drainErrs (s : State) (run : Run) (errs : List CellErr) : List CellErr :=
  let fenced := fencedCells s
  mergeErrs ((errs ++ (injectBits s).filterMap (injectErr s run errs)).filter fun e => !fenced.contains (e.row, e.col))

/-- Faults of mode ONCE that have struck are gone (06 R198). -/
def spendInjects (s : State) : State :=
  s.setRelief { s.relief with injects := s.relief.injects.filter fun j => j.stuck || (logicalCol (rowBypass s j.row) j.pos).isNone }

/-! ### Comparison (06 R175 to R179) -/

/-- Observed less expected over a set of errors is zero in each of the three comparisons. -/
def sumsAgree (l : List CellErr) : Bool :=
  sumInt (l.map CellErr.re) == 0 && sumInt (l.map CellErr.im) == 0 && sumInt (l.map CellErr.weight) == 0

/-- The grid rows whose checksum disagrees. -/
def badRows (l : List CellErr) : List Nat := (List.range 32).filter fun r => !sumsAgree (l.filter fun e => e.row == r)

/-- The logical columns whose checksum disagrees. -/
def badCols (l : List CellErr) : List Nat := (List.range 32).filter fun c => !sumsAgree (l.filter fun e => e.col == c)

/-- Every comparison agrees (06 R179). -/
def checksumsAgree (l : List CellErr) : Bool := sumsAgree l && (badRows l).isEmpty && (badCols l).isEmpty

/-- The operands of a run held a poisoned word (10 R326). -/
def runPoisoned (s : State) (run : Run) : Bool :=
  match s.corr run.tile.pid with
  | none => false
  | some c =>
    let n := (corrInputs s c).length
    (corrSet s c).any fun x => blockPoisoned s x n run.tile.chan run.tile.dwell run.tile.u ||
      blockPoisoned s x n run.tile.chan run.tile.dwell run.tile.v

/-! ### Outcomes -/

/-- The LAST_LOCALISED word (06 R197). -/
def localisedWord (l : Localised) : Nat := l.row + l.pos * 32 + l.outcome * 2048 + b2n l.persistent * 8192

/-- The record that an error of a super-tile affects. -/
def tileAffects (s : State) (t : Tile) : Affects :=
  match s.corr t.pid with
  | some c => visAffected c (t.chan / c.g) t.dwell
  | none => .nothing

/-- The drained value of an element and the error of its weight counter: zero in a dropped super-tile and in a fenced cell
(06 R186, R187). -/
def drainedVal (s : State) (c : Corr) (x : CtSet) (t : Tile) (matched : Bool) (errs : List CellErr)
    (fenced : List (Nat × Nat)) (e : Nat × Nat) : (Int × Int) × Int :=
  let k := elemCell t e.1 e.2
  if !matched || fenced.contains (k.1, k.2.1) then ((0, 0), 0)
  else
    let v := baselineSum s x (corrInputs s c).length e.1 e.2 t.chan t.dwell
    match errs.find? fun y => y.row == k.1 && y.col == k.2.1 && y.baseline == k.2.2 with
    | some y => ((v.1 + y.re, v.2 + y.im), y.weight)
    | none => (v, 0)

/-- The drained values of a super-tile, in the order of its elements (04 R107). -/
def drainedVals (s : State) (t : Tile) (matched : Bool) (errs : List CellErr) : List ((Int × Int) × Int) :=
  match s.corr t.pid with
  | none => []
  | some c =>
    match corrSet s c with
    | some x => (tileElems (corrInputs s c).length t).map (drainedVal s c x t matched errs (fencedCells s))
    | none => []

/-- A super-tile's drained values go to the spill path, which holds them until they commit (04 R107). -/
def toSpill (s : State) (t : Tile) (matched : Bool) (errs : List CellErr) : State :=
  s.setRelief { s.relief with spill := s.relief.spill ++
    [{ tile := t, matched := matched, fenced := fencedCells s, vals := drainedVals s t matched errs }] }

/-- The incident is over: its held values are discarded and its CLOSE record is written (06 R182, R194; 17 R480, R484). -/
def closeRepair (s : State) (i : RepInc) (cause : U16) (cls : Cls) (det : Nat) : State :=
  let s1 := s.setRelief { s.relief with incidents := s.relief.incidents.filter fun x => x.id != i.id }
  if s1.err.fault then s1
  else
    match s1.err.incidents.find? fun x => x.id == i.id with
    | none => s1
    | some x =>
      let s2 := { s1 with err := { s1.err with incidents := s1.err.incidents.filter fun y => y.id != i.id } }
      logForProduct s2 i.tile.pid (incRec x .closed cause cls false (BitVec.ofNat 32 det)) (tileAffects s2 i.tile)

/-- A class F fault of a super-tile (06 R186, R187, R189). -/
def tileFault (s : State) (t : Tile) (cause : U16) : State :=
  classF s cause (s.worldOfProduct t.pid) false (tileRes t) t.dwell

/-- A super-tile is dropped: it enters the drop list and commits zeros; with the list full the fault is class F (06 R187,
R192). -/
def dropTile (s : State) (t : Tile) (inc : Option RepInc) : State :=
  if s.relief.drops.length ≥ 256 then tileFault s t 0x0306
  else
    let s1 := match inc with
      | some i => closeRepair s i 0x0304 .l (localisedWord (i.loc.getD s.relief.localised))
      | none => logForProduct s t.pid (eventRec 0x0304 .l (s.worldOfProduct t.pid) false (tileRes t) t.dwell) (tileAffects s t)
    toSpill (s1.setRelief { s1.relief with drops := s1.relief.drops ++ [t], tileDrops := s1.relief.tileDrops + 1 }) t false []

/-- Entries of the hold buffer in use (06 R180). -/
def heldCount (s : State) : Nat := (s.relief.incidents.filter fun i => i.held.isSome).length

/-- A first run mismatches: an incident opens and a retry waits; with 16 incidents open the super-tile is dropped at once
(06 R181, R192). -/
def firstMismatch (s : State) (t : Tile) (errs : List CellErr) (selfOk : Bool) : State :=
  let r := s.relief
  let s1 := s.setRelief { r with mismatches := r.mismatches + 1,
                                 selfCheckFails := r.selfCheckFails + BitVec.ofNat 32 (b2n !selfOk) }
  if (countedIncidents s1).length ≥ 16 then dropTile s1 t none
  else
    let o := openIncident s1 0x0300 .t (s1.worldOfProduct t.pid) false (tileRes t) t.dwell true
    let held := if heldCount o.1 < 2 then some { errs := errs, fenced := fencedCells o.1 : HeldRun } else none
    o.1.setRelief { o.1.relief with incidents := o.1.relief.incidents ++
      [{ tile := t, id := o.2, phase := .retry, held := held, loc := none, working := false }] }

/-- A row runs on its spare, or its spare is bad (06 R183, 15 R447). -/
def spareGone (s : State) (row : Nat) : Bool := (rowBypass s row).isSome || s.trims.spareBad.getLsbD row

/-- What a weight counter would hold without errors: the granules of the dwell in which both inputs are valid (04 R120). -/
def trueWeight (s : State) (t : Tile) (row col baseline : Nat) : Nat :=
  match s.corr t.pid with
  | none => 0
  | some c =>
    let n := (corrInputs s c).length
    let p := cellInputs t row col baseline
    match corrSet s c with
    | some x => if p.1 < n && p.2 < n then dwellWeight x t.dwell p.1 p.2 t.chan else 0
    | none => 0

/-- The accumulators and counters of a cell all read zero in a run with the given errors. -/
def cellZero (s : State) (t : Tile) (errs : List CellErr) (cell : Nat × Nat) : Bool :=
  (List.range 256).all fun b =>
    let run : Run := { tile := t, kind := .first, mode := 0, offset := 0, folded := 0 }
    let v := trueSum s run cell.1 cell.2 b
    let e := (errs.find? fun x => x.row == cell.1 && x.col == cell.2 && x.baseline == b).getD
      { row := cell.1, col := cell.2, baseline := b, re := 0, im := 0, weight := 0 }
    v.1 + e.re == 0 && v.2 + e.im == 0 && (trueWeight s t cell.1 cell.2 b : Int) + e.weight == 0

/-- Two runs of one super-tile drained the same values, bit for bit (06 R182). Both read the same operands, so they differ by
their errors, and in cells that only one of them had fenced, whose values then read zero. -/
def sameValues (s : State) (t : Tile) (a b : HeldRun) : Bool :=
  let both := a.fenced ++ b.fenced
  let outside (l : List CellErr) : List CellErr := l.filter fun e => !both.contains (e.row, e.col)
  outside a.errs == outside b.errs &&
    ((b.fenced.filter fun x => !a.fenced.contains x).all (cellZero s t a.errs)) &&
    ((a.fenced.filter fun x => !b.fenced.contains x).all (cellZero s t b.errs))

/-- LAST_LOCALISED shows a localisation of an incident (06 R197). -/
def showLocalised (s : State) (id : U16) (l : Localised) : State :=
  s.setRelief { s.relief with localised := l, localisedBy := some id }

/-- The retry mismatched: the incident becomes class L, and the fault is localised or the super-tile dropped (06 R182 to
R187). -/
def retryMismatch (s : State) (i : RepInc) (errs : List CellErr) (localise : Bool) : State :=
  let pers := i.held.any fun h => sameValues s i.tile h { errs := errs, fenced := fencedCells s }
  let s1 := escalate s i.id 0x0300 pers
  match localise, badRows errs, badCols errs with
  | true, [row], [col] =>
    let pos := physPos (rowBypass s1 row) col
    let gone := spareGone s1 row
    if gone && s1.relief.fences.length ≥ 4 then tileFault s1 i.tile 0x0306
    else
      let phase : RepPhase := if gone then .fence row pos else .bypass row pos
      let l : Localised := { row := row, pos := pos, outcome := b2n gone, persistent := pers }
      let s2 := showLocalised s1 i.id l
      makeChanges (s2.setRelief { s2.relief with
        incidents := putInc { i with phase := phase, loc := some l, working := false } s2.relief.incidents })
  | _, _, _ =>
    let l : Localised := { s1.relief.localised with outcome := 3, persistent := pers }
    dropTile (showLocalised s1 i.id l) i.tile (some { i with loc := some l })

/-- The recomputation mismatched: the super-tile is dropped and the bypass or fence stays (06 R185). LAST_LOCALISED follows
while it still shows this incident's localisation. -/
def recomputeMismatch (s : State) (i : RepInc) : State :=
  let l : Localised := { i.loc.getD s.relief.localised with outcome := 2 }
  dropTile (if s.relief.localisedBy = some i.id then showLocalised s i.id l else s) i.tile (some { i with loc := some l })

/-- The retry matched: its values commit and the incident closes as class T (06 R182). -/
def retryMatch (s : State) (i : RepInc) (errs : List CellErr) : State :=
  let s1 := s.setRelief { s.relief with retriesOk := s.relief.retriesOk + 1 }
  toSpill (closeRepair s1 i 0x0301 .t 0) i.tile true errs

/-- The recomputation matched: its values commit and the incident closes as class L (06 R185, R186). -/
def recomputeMatch (s : State) (i : RepInc) (fence : Bool) (errs : List CellErr) : State :=
  let s1 := if fence then s else s.setRelief { s.relief with sparesTaken := s.relief.sparesTaken + 1 }
  toSpill (closeRepair s1 i (if fence then 0x0303 else 0x0302) .l (localisedWord (i.loc.getD s1.relief.localised))) i.tile true errs

/-- The comparison of a drained run. `selfOk` says whether the self-check of R177 holds, `operandErr` whether a stage or
queue read failed (06 R178). -/
def compareRun (s0 : State) (run : Run) (errs0 : List CellErr) (selfOk operandErr : Bool) : State :=
  let errs := drainErrs s0 run errs0
  let poison := runPoisoned s0 run
  let s := spendInjects s0
  let ok := checksumsAgree errs && selfOk && !operandErr && !poison
  match run.kind, s.relief.incidents.find? fun i => i.tile == run.tile with
  | .first, _ => if ok then toSpill s run.tile true errs else firstMismatch s run.tile errs selfOk
  | .retry, some i =>
    if !selfOk then tileFault s run.tile 0x0307
    else if ok then retryMatch s i errs
    else retryMismatch s i errs (!poison)
  | .recompute, some i =>
    if ok then recomputeMatch s i (i.phase == .recompute true) errs else recomputeMismatch s i
  | _, none => s

/-- After a set drains, the checksums are compared and the super-tile matches or mismatches (06 R179). -/
def execDrainCompare (errs : List CellErr) (selfCheck operandErr : Bool) (s : State) : Host.Outcome State Fault Refusal :=
  .next (match gated s, s.relief.drain with
    | false, run :: rest =>
      let s1 := compareRun (s.setRelief { s.relief with drain := rest }) run errs selfCheck operandErr
      startTile (trySwap (if gated s1 then s1 else makeChanges s1))
    | _, _ => s)

/-! ### Fault injection (06 R198) -/

/-- CORR_FAULT_INJECT. OFF disarms every injected fault. -/
def faultInject (s : State) (row pos baseline comp bit mode : Nat) : Result := do
  refuseIf (row > 31) stBadParam 8
  refuseIf (pos > 32) stBadParam 9
  refuseIf (comp > 1) stBadParam 11
  refuseIf (bit > 31) stBadParam 12
  refuseIf (mode > 2) stBadParam 13
  if mode = 0 then done (s.setRelief { s.relief with injects := [] })
  else do
    refuseIf (s.relief.fences.any fun f => f.row == row && f.pos == pos) stBadParam 8
    refuseIf (logicalCol (rowBypass s row) pos).isNone stBadParam 9
    done (s.setRelief { s.relief with injects := s.relief.injects ++
      [{ row := row, pos := pos, baseline := baseline, im := comp == 1, bit := bit, stuck := mode == 2 }] })

def execCorrFaultInject (src : Src) (row pos baseline comp bit mode : U8) (s : State) : Host.Outcome State Fault Refusal :=
  runClause (.corrFaultInject src row pos baseline comp bit mode) s fun s =>
    faultInject s row.toNat pos.toNat baseline.toNat comp.toNat bit.toNat mode.toNat

end Sys2Proof.Machine
end

