-- ==== Sys2Proof/Machine/Istore.lean ====
section
/-! DEFINITION. The integration store: spill-adds, fused closes, VIS records, suspension boundaries and snapshots (05). -/

namespace Sys2Proof.Machine

/-! ### A commit's place in its integration (05 R144 to R147) -/

/-- Where a committed super-tile falls: its product, set and group, its integration, and whether its dwell is the first
contributing one and the last one of the integration. -/
structure Place where
  c : Corr
  x : CtSet
  q : Nat
  jj : Nat
  n : Nat
  first : Bool
  last : Bool

/-- The dwells of an integration that contribute up to a bound (05 R146). -/
def contributing (c : Corr) (gr : Group) (q jj upTo : Nat) : List Nat :=
  span (max (c.intStart q jj) gr.start) (min (c.intEnd q jj) upTo)

/-- The place of a super-tile. -/
def placeOf (s : State) (t : Tile) : Option Place := do
  let c ← s.corr t.pid
  let x ← corrSet s c
  let q := t.chan / c.g
  let gr ← c.groups[q]?
  if gr.runs t.dwell then
    let jj := c.intOf q t.dwell
    return { c := c, x := x, q := q, jj := jj, n := (corrInputs s c).length,
             first := t.dwell == max (c.intStart q jj) gr.start, last := t.dwell + 1 == c.intEnd q jj }
  else none

/-! ### The value plane (05 R139, R149) -/

/-- The HBM address of an element. -/
def elemAddr (c : Corr) (n chan i j : Nat) : Nat := c.istore + (chan * baselines n + baselineIndex i j) * c.elem

/-- An element of the value plane, unless its ECC word is poisoned. -/
def readElem (s : State) (c : Corr) (addr : Nat) : Option (Int × Int) :=
  if poisoned s addr (addr + c.elem) then none
  else
    let h := c.elem / 2
    some (toSigned (8 * h) (ofLe (s.load addr h)), toSigned (8 * h) (ofLe (s.load (addr + h) h)))

/-- Write an element. -/
def writeElem (s : State) (c : Corr) (addr : Nat) (v : Int × Int) : State :=
  s.store addr (leInt (c.elem / 2) v.1 ++ leInt (c.elem / 2) v.2)

/-! ### Weights (05 R151, 06 R187, R196) -/

/-- The weight of an element over some dwells, the live one from its operands and the earlier ones from the history: dropped super-tiles and fenced cells count nothing. -/
def weightOver (s : State) (x : CtSet) (t : Tile) (lost : List LostCell) (dwells : List Nat) (i j : Nat) : Nat :=
  let k := elemCell t i j
  sumNat (dwells.map fun d =>
    if s.relief.drops.contains { t with dwell := d } ||
        lost.contains { chan := t.chan, u := t.u, v := t.v, dwell := d, row := k.1, col := k.2.1 } then 0
    else if d = t.dwell then dwellWeight x d i j t.chan
    else match s.corr t.pid with
      | some p => historyWeight s p x d i j t.chan
      | none => dwellWeight x d i j t.chan)

/-- The element of a record in an output format (05 R163 to R165). -/
def outBytes (output : Nat) (v : Int × Int) (w : Nat) : List Byte :=
  if output = 0 then leInt 4 v.1 ++ leInt 4 v.2
  else if output = 1 then leInt 8 v.1 ++ leInt 8 v.2
  else if w = 0 then zeros 8
  else leBytes 4 (f32Ratio v.1 (256 * w)) ++ leBytes 4 (f32Ratio v.2 (256 * w))

/-- Store an element and its weight in the payload of a record at `base`, whose first channel is `c0` and which has `chans`
channels (05 R163). -/
def putOut (s : State) (n base c0 chans chan output i j : Nat) (v : Int × Int) (w : Nat) : State :=
  let k := (chan - c0) * baselines n + baselineIndex i j
  (s.store (base + k * outWidth output) (outBytes output v w)).store
    (base + chans * baselines n * outWidth output + 2 * k) (leBytes 2 w)

/-! ### Emit slots (05 R152) -/

/-- An emit slot whose record every destination has taken or declined is free. -/
def freeEmit (s : State) (c : Corr) : Corr :=
  { c with slots := c.slots.map fun o => match o with
      | some e => match e.seq with
        | some n => if recordGone s c.pid n then none else some e
        | none => some e
      | none => none }

/-- The emit slot that a close goes into: the one that holds its record, or a free one. -/
def emitSlotFor (s : State) (c0 : Corr) (n q jj : Nat) : Option (Corr × EmitSlot) :=
  let c := freeEmit s c0
  match c.slots.toList.filterMap id |>.find? fun e => e.group == q && e.j == jj && e.seq.isNone with
  | some e => some (c, e)
  | none =>
    match (List.range 2).find? fun k => (vget c.slots k none).isNone, c.groups[q]? with
    | some k, some gr =>
      let size := roundUp (visLen n c.g gr.output) granule
      let e : EmitSlot := { group := q, j := jj, output := gr.output, base := allocBase s (.emitBuf c.pid) + k * size, seq := none }
      some ({ c with slots := vset c.slots k (some e) }, e)
    | _, _ => none

/-! ### Records (05 R162, R163) -/

/-- The auxiliary field of a VIS record. -/
def visAux (c : Corr) (q jj output : Nat) (snap : Bool) : Nat :=
  q * c.g + groupChans c q * 2 ^ 11 + output * 2 ^ 22 + b2n snap * 2 ^ 24 + b2n c.aligned * 2 ^ 25 +
    (jj + 2 ^ 32 - 1) % 2 ^ 32 * 2 ^ 32

/-- The start counter of an integration, modulo 2^64 for the one that begins before counter 0 (log 33). -/
def visStart (c : Corr) (q jj : Nat) : Nat :=
  ((((c.intEnd q jj : Nat) : Int) - (c.nInt : Nat)) * (c.td : Nat) % (2 ^ 64 : Nat)).toNat

/-- The Plinth time of the start of an integration (03 R93). -/
def visTime (s : State) (c : Corr) (q jj : Nat) : Nat :=
  let t : Int := (((c.intEnd q jj : Nat) : Int) - (c.nInt : Nat)) * (c.td : Nat)
  ((s.intake.t0 : Int) + roundHE (t * (s.intake.den * second : Nat)) s.intake.num).toNat

/-- The integration was open at a takeover: its first written dwell on this unit lies inside it (18 R518). -/
def openAtTakeover (s : State) (c : Corr) (gr : Group) (q jj : Nat) : Bool :=
  match s.pair.lastRow with
  | some r => gr.start == ceilDiv r c.td && c.intStart q jj < gr.start && gr.start < c.intEnd q jj
  | none => false

/-- A history mark lies in a contributing dwell and a channel of the group. -/
def histMark (x : CtSet) (dwells : List Nat) (c0 chans : Nat) (mark : HistDwell → List (Nat × Nat)) : Bool :=
  x.hist.any fun h => dwells.contains h.dwell && (mark h).any fun m => c0 ≤ m.2 && m.2 < c0 + chans

/-- The flags of a record with its weight block read back (05 R162, 06 R195, R196). -/
def visFlags (s : State) (p : Place) (gr : Group) (it : OpenInt) (dwells : List Nat) (weights : List Byte) (count : Nat) : Nat :=
  let full := dwells.length * p.c.td / 256
  let low := (List.range count).any fun k => field weights (2 * k) 2 < full
  let c0 := p.q * p.c.g
  let chans := groupChans p.c p.q
  let taken := openAtTakeover s p.c gr p.q p.jj
  (if it.verified then flagVerified else 0) + (if dwells.length < p.c.nInt then flagPartial else 0) +
    (if taken then flagTakeover else 0) + (if histMark p.x dwells c0 chans HistDwell.stale then flagStale else 0) +
    (if histMark p.x dwells c0 chans HistDwell.sat then flagSaturated else 0) +
    (if low || it.zeroed > 0 then flagFlagged else 0)

/-- The record of a completed group as it is read from its emit slot. -/
def visRecord (s : State) (p : Place) (gr : Group) (it : OpenInt) (e : EmitSlot) : RecOut :=
  let chans := groupChans p.c p.q
  let count := chans * baselines p.n
  let dwells := contributing p.c gr p.q p.jj (p.c.intEnd p.q p.jj)
  let len := count * (outWidth e.output + 2)
  let body := s.load e.base len
  { rtype := 0x01, flags := visFlags s p gr it dwells (body.drop (count * outWidth e.output)) count,
    start := visStart p.c p.q p.jj, span := p.c.nInt * p.c.td, time := visTime s p.c p.q p.jj,
    aux := visAux p.c p.q p.jj e.output false, payload := body ++ zeros (roundUp len 8 - len) }

/-- Replace one group of a product. -/
def setGroup (c : Corr) (q : Nat) (g : Group) : Corr := { c with groups := c.groups.set q g }

/-! ### Stopping (05 R168, 04 R138) -/

/-- The areas and the set of a product are freed with it (03 R89, 05 R142). -/
def dropCorr (s : State) (c : Corr) : State :=
  let s1 := { s with corrs := s.corrs.filter fun x => x.pid != c.pid }
  let lone := !(s1.corrs.any fun x => x.set == c.set)
  let s2 := freeAllocs s1 fun k => k == .istore c.pid || k == .emitBuf c.pid || k == .emitOld c.pid || k == .validity c.pid ||
    k == .snapshot c.pid || (lone && k == .ctSet c.set)
  let r := s2.relief
  let s3 := s2.setRelief { r with ready := r.ready.filter (fun x => x.pid != c.pid),
                                  drops := r.drops.filter (fun t => t.pid != c.pid) }
  let s4 := if lone then { s3 with intake := { s3.intake with sets := s3.intake.sets.filter fun x => x.id != c.set } } else s3
  productStopped (recompile (s4.delProduct c.pid)) c.pid

/-- A group has emitted all that its stop owes: nothing of it contributed, or its last integration closed. -/
def groupDone (g : Group) : Bool :=
  match g.stop with
  | some e => e ≤ g.start || e ≤ g.done
  | none => false

/-- One group stops at its boundary: a suspended product's group emits a GAP record (05 R168). -/
def stopGroup (s : State) (pid q : Nat) : State :=
  match s.corr pid with
  | none => s
  | some c =>
    match c.groups[q]? with
    | none => s
    | some g =>
      if groupDone g && !g.stopped then
        let s1 := s.setCorr (setGroup c q { g with stopped := true })
        if c.releasing then s1
        else
          let start := (g.stop.getD 0) * c.td
          let s2 := gapSuspended s1 pid 0x01 start (s1.timeAt start)
          { s2 with istore := { s2.istore with gapRecords := s2.istore.gapRecords + 1 } }
      else s

/-- Groups that have come to their boundary stop; with the last one the product is suspended, or released once its pending
snapshot is written (05 R156; log 80). -/
def checkStops (s : State) (pid : Nat) : State :=
  match s.corr pid with
  | none => s
  | some c =>
    let s1 := (List.range c.groups.length).foldl (fun t q => stopGroup t pid q) s
    match s1.corr pid with
    | none => s1
    | some c1 =>
      if !(c1.groups.all fun g => g.stopped) then s1
      else if c1.releasing then (if c1.snap.isSome then s1 else dropCorr s1 c1)
      else if (s1.product pid).any fun p => p.suspended then s1
      else productStopped (recompile (suspendProduct s1 pid)) pid

/-! ### Completing a record (05 R150 to R153) -/

/-- A poisoned emit slot: each destination receives a GAP record that names the record's number, and an error is raised
(05 R153). -/
def emitPoison (s : State) (p : Place) (r : RecOut) : State :=
  match s.product p.c.pid with
  | none => s
  | some pr =>
    let s1 := raiseProduct s 0x0402 p.c.pid 1 (.vis p.q p.jj)
    let seq := match s1.product p.c.pid with
      | some x => x.seq
      | none => pr.seq
    let s2 := match s1.product p.c.pid with
      | some x => s1.setProduct p.c.pid { x with seq := x.seq + 1 }
      | none => s1
    let s3 := emitGapKeyed s2 p.c.pid (some (p.q, p.jj)) 3 0x01 seq 1 r.start r.span r.time
    { s3 with istore := { s3.istore with poisonSeen := true, gapRecords := s3.istore.gapRecords + 1 } }

/-- The last super-tile of a group has closed: its record leaves, the drop-list entries of the integration go, and the
group takes up its next integration (05 R150, R152, 06 R187). -/
def completeGroup (s : State) (p : Place) (gr : Group) (it : OpenInt) (e : EmitSlot) : State :=
  if s.err.fault then s
  else
    let r := visRecord s p gr it e
    let bad := poisoned s e.base (e.base + r.payload.length)
    let s1 := flushErrors s p.c.pid (some (p.q, p.jj)) r.start r.span r.time
    let seq := match s1.product p.c.pid with
      | some x => x.seq
      | none => 0
    let s2 := if bad then emitPoison s p r
      else
        let t := emitKeyed s1 p.c.pid (some (p.q, p.jj)) r
        { t with istore := { t.istore with visRecords := t.istore.visRecords + 1 } }
    let put (o : Option EmitSlot) : Option EmitSlot := match o with
      | some x => if x.group = p.q ∧ x.j = p.jj ∧ x.seq.isNone then (if bad then none else some { x with seq := some seq }) else some x
      | none => none
    let stop := p.c.intEnd p.q p.jj
    match s2.corr p.c.pid with
    | none => s2
    | some c =>
      let g := { gr with ints := gr.ints.filter (fun x => x.j != p.jj), done := stop }
      let s3 := s2.setCorr { setGroup c p.q g with slots := c.slots.map put }
      let old (t : Tile) : Bool := t.pid == c.pid && t.chan / c.g == p.q && t.dwell < stop
      checkStops (s3.setRelief { s3.relief with drops := s3.relief.drops.filter fun t => !old t }) c.pid

/-! ### Snapshots (05 R156 to R158) -/

/-- The part of a group in a snapshot. -/
def Snap.part (sn : Snap) (q : Nat) : Option SnapPart := sn.parts.find? fun p => p.group == q

/-- Once its boundary has been reached, which groups have an open integration is settled: those that run its dwell (05 R158). -/
def settleSnap (c : Corr) (sn : Snap) : Snap :=
  if sn.settled then sn
  else
    { sn with settled := true, parts := sn.parts.map fun p => match c.groups[p.group]? with
      | some g => { p with isOpen := g.runs sn.dwell, start := g.start }
      | none => p }

/-- Bytes of one group's record in a snapshot. -/
def snapLen (n : Nat) (c : Corr) (p : SnapPart) : Nat := if p.isOpen then visLen n (groupChans c p.group) p.output else 64

/-- The address of a group's record in a snapshot: the records stand back to back in group order (05 R158). -/
def snapAddr (n : Nat) (c : Corr) (sn : Snap) (q : Nat) : Nat :=
  sn.area + sumNat ((sn.parts.filter fun p => p.group < q).map (snapLen n c))

/-- The super-tiles that a group of a snapshot consists of. -/
def snapTiles (n : Nat) (c : Corr) (p : SnapPart) : List (Nat × Nat × Nat) :=
  if p.isOpen then
    (span (p.group * c.g) (p.group * c.g + groupChans c p.group)).flatMap fun ch =>
      (tileOrder (blocksOf n)).map fun t => (ch, t.1, t.2)
  else []

/-- A group of a snapshot has been tapped whole. -/
def snapGroupDone (n : Nat) (c : Corr) (sn : Snap) (p : SnapPart) : Bool := (snapTiles n c p).all fun t => sn.tapped.contains t

/-- SNAP_STATUS follows the snapshot that the latest Clause asked for (05 R173). -/
def snapStatus (s : State) (n : Nat) (c : Corr) (sn : Snap) : State :=
  if s.istore.snapProduct = c.pid then
    { s with istore := { s.istore with snapLeft := (sn.parts.filter fun p => !snapGroupDone n c sn p).length } }
  else s

/-- An element as a record holds it: its map positions, value and weight. -/
structure OutElem where
  i : Nat
  j : Nat
  val : Int × Int
  weight : Nat

/-- The elements of a committed super-tile as a record of its integration holds them: an element whose word was poisoned has
value and weight 0 (05 R149, R151). `vals` holds positions, sums, the errors of the weight counters and the poison marks. -/
def outElems (s : State) (x : CtSet) (sp : Spill) (lost : List LostCell) (dwells : List Nat)
    (vals : List ((Nat × Nat) × (Int × Int) × Int × Bool)) : List OutElem :=
  vals.map fun v =>
    let w : Int := (weightOver s x sp.tile lost dwells v.1.1 v.1.2 : Nat) + v.2.2.1
    if v.2.2.2 then { i := v.1.1, j := v.1.2, val := (0, 0), weight := 0 }
    else { i := v.1.1, j := v.1.2, val := v.2.1, weight := (w % 65536).toNat }

/-- Store elements in the payload of a group's record at `base` (05 R163). -/
def putElems (s : State) (p : Place) (chan base output : Nat) (es : List OutElem) : State :=
  es.foldl (fun t e => putOut t p.n base (p.q * p.c.g) (groupChans p.c p.q) chan output e.i e.j e.val e.weight) s

/-- A super-tile of a dwell of the integration was dropped at this position, so not all of them matched (06 R187, R195). -/
def droppedBefore (s : State) (t : Tile) (dwells : List Nat) : Bool := dwells.any fun d => s.relief.drops.contains { t with dwell := d }

/-- What a tapped super-tile adds to its group's part of a snapshot (05 R162, 06 R195). -/
def tapPart (s : State) (p : Place) (sp : Spill) (dwells : List Nat) (zeroed : Nat) (es : List OutElem) (a : SnapPart) : SnapPart :=
  let full := dwells.length * p.c.td / 256
  { a with verified := a.verified && sp.matched && !droppedBefore s sp.tile dwells, low := a.low || es.any fun e => e.weight < full,
           zeroed := a.zeroed + zeroed, stale := a.stale || histMark p.x dwells sp.tile.chan 1 HistDwell.stale,
           sat := a.sat || histMark p.x dwells sp.tile.chan 1 HistDwell.sat }

/-- A snapshot taps the values that a super-tile of its dwell has committed (05 R157). -/
def tapSnap (s : State) (p : Place) (sp : Spill) (vals : List ((Nat × Nat) × (Int × Int) × Int × Bool)) : State :=
  match s.corr p.c.pid with
  | none => s
  | some c =>
    match c.snap.map (settleSnap c), c.groups[p.q]? with
    | some sn, some gr =>
      match sn.part p.q with
      | none => s
      | some a =>
        if sp.tile.dwell = sn.dwell then
          let lost := ((gr.ints.find? fun x => x.j == p.jj).map OpenInt.lost).getD []
          let dwells := contributing c gr p.q p.jj (sn.dwell + 1)
          let es := outElems s p.x sp lost dwells vals
          let s1 := putElems s p sp.tile.chan (snapAddr p.n c sn p.q + 64) a.output es
          let a1 := tapPart s p sp dwells (vals.filter fun v => v.2.2.2).length es a
          let sn1 : Snap := { sn with tapped := sn.tapped ++ [(sp.tile.chan, sp.tile.u, sp.tile.v)],
                                      parts := sn.parts.map fun b => if b.group = p.q then a1 else b }
          snapStatus (s1.setCorr { c with snap := some sn1 }) p.n c sn1
        else s
    | _, _ => s

/-- The flags of a snapshot record (05 R158, R162): PARTIAL unless its dwell closes an integration that every dwell of the grid
contributed to. -/
def snapFlags (s : State) (c : Corr) (gr : Group) (a : SnapPart) (jj dwell dwells : Nat) : Nat :=
  (if a.verified then flagVerified else 0) + (if dwells < c.nInt || dwell + 1 ≠ c.intEnd a.group jj then flagPartial else 0) +
    (if openAtTakeover s c gr a.group jj then flagTakeover else 0) + (if a.stale then flagStale else 0) +
    (if a.sat then flagSaturated else 0) + (if a.low || a.zeroed > 0 then flagFlagged else 0)

/-- The header of one group of a finished snapshot (05 R158). A group with no open integration has the start and the span of
the integration of its grid, and no flag (log 33). -/
def snapHeader (s : State) (c : Corr) (pr : Product) (n : Nat) (sn : Snap) (a : SnapPart) : State :=
  match c.groups[a.group]? with
  | none => s
  | some gr0 =>
    let gr := { gr0 with start := a.start }
    let q := a.group
    let jj := c.intOf q sn.dwell
    let base := snapAddr n c sn q
    let len := if a.isOpen then groupChans c q * baselines n * (outWidth a.output + 2) else 0
    let body := s.load (base + 64) len ++ zeros (roundUp len 8 - len)
    let flags := if a.isOpen then snapFlags s c gr a jj sn.dwell (contributing c gr q jj (sn.dwell + 1)).length else 0
    let route := routeOf pr pr.seq
    let bytes := recordBytes 0x01 flags c.pid pr.world (routingByte route) (streamByte route) (2 ^ 64 - 1)
      (visTime s c q jj) (visStart c q jj) ((sn.dwell + 1 + c.nInt - c.intEnd q jj) * c.td) (visAux c q jj a.output true) body
    s.store base bytes

/-- The boundary of a snapshot has been reached and every group has been tapped whole. -/
def snapReady (s : State) (n : Nat) (c : Corr) (sn : Snap) : Bool :=
  !gated s && decide ((sn.dwell + 1) * c.td ≤ s.intake.front) && sn.parts.all (snapGroupDone n c sn)

/-- The last byte of a snapshot is written: its follow entry is due, and a product whose release waited for it goes (05 R156;
log 80). -/
def execSnapshotWriteDone (pid : Nat) (s : State) : Host.Outcome State Fault Refusal :=
  .next (match s.corr pid, s.product pid with
    | some c, some pr =>
      match c.snap.map (settleSnap c) with
      | some sn =>
        let n := (corrInputs s c).length
        if snapReady s n c sn then
          let s1 := sn.parts.foldl (fun t a => snapHeader t c pr n sn a) s
          let s2 := freeAllocs (s1.setCorr { c with snap := none }) (· == .snapshot pid)
          let s3 := if s2.istore.snapProduct = pid then
              { s2 with istore := { s2.istore with snapBoundary := none, snapLeft := 0 } }
            else s2
          checkStops (followEntry s3 sn.src 0x0310 0 0 0) pid
        else s
      | none => s
    | _, _ => s)

/-! ### Committing a super-tile (05 R147 to R151) -/

/-- One element of a commit: the new memory, the value that stands at the end of the dwell, and whether a poisoned word
zeroes it at the close (05 R147, R149). -/
def commitElem (s : State) (p : Place) (sp : Spill) (i j : Nat) (a : Int × Int) : State × (Int × Int) × Bool :=
  let addr := elemAddr p.c p.n sp.tile.chan i j
  if p.first then (if p.last then (s, a, false) else (writeElem s p.c addr a, a, false))
  else
    match readElem s p.c addr with
    | none => (s, (0, 0), true)
    | some v =>
      let sum := (v.1 + a.1, v.2 + a.2)
      if p.last then (s, sum, false) else (writeElem s p.c addr sum, sum, false)

/-- The integration of a commit, with what the super-tile adds to it. -/
def noteCommit (p : Place) (gr : Group) (sp : Spill) (zeroed : Nat) : OpenInt :=
  let it : OpenInt := (gr.ints.find? fun x => x.j == p.jj).getD { j := p.jj, closed := [], verified := true, zeroed := 0, lost := [] }
  { it with closed := if p.last then it.closed ++ [(sp.tile.chan, sp.tile.u, sp.tile.v)] else it.closed,
            verified := it.verified && sp.matched, zeroed := it.zeroed + zeroed,
            lost := if sp.matched then it.lost ++ sp.fenced.map (fun f => LostCell.mk sp.tile.chan sp.tile.u sp.tile.v sp.tile.dwell f.1 f.2)
                    else it.lost }

/-- Put an integration into its group. -/
def putInt (gr : Group) (it : OpenInt) : Group :=
  if gr.ints.any fun x => x.j == it.j then { gr with ints := gr.ints.map fun x => if x.j = it.j then it else x }
  else { gr with ints := gr.ints ++ [it] }

/-- The error of a close that met poison (05 R149). -/
def closePoison (s : State) (p : Place) (zeroed : Nat) : State :=
  if zeroed = 0 then s
  else
    let s1 := { s with istore := { s.istore with poisonSeen := true,
                                                 poisonElements := s.istore.poisonElements + BitVec.ofNat 32 zeroed } }
    raiseProduct s1 0x0401 p.c.pid zeroed (.vis p.q p.jj)

/-- Store the elements and weights of a closing super-tile in its emit slot (05 R150). -/
def closeElems (s : State) (p : Place) (gr : Group) (it : OpenInt) (sp : Spill) (e : EmitSlot)
    (vals : List ((Nat × Nat) × (Int × Int) × Int × Bool)) : State :=
  let dwells := contributing p.c gr p.q p.jj (p.c.intEnd p.q p.jj)
  putElems s p sp.tile.chan e.base e.output (outElems s p.x sp it.lost dwells vals)

/-- A super-tile commits its spill-add, first write or fused close (05 R147). -/
def commitTile (s : State) (p : Place) (sp : Spill) (slot : Option EmitSlot) : State :=
  match p.c.groups[p.q]? with
  | none => s
  | some gr =>
    let r := ((tileElems p.n sp.tile).zip sp.vals).foldl (fun (a : State × List ((Nat × Nat) × (Int × Int) × Int × Bool)) e =>
      let x := commitElem a.1 p sp e.1.1 e.1.2 e.2.1
      (x.1, (e.1, x.2.1, e.2.2, x.2.2) :: a.2)) (s, [])
    let vals := r.2.reverse
    let zeroed := if p.last then (vals.filter fun v => v.2.2.2).length else 0
    let it := noteCommit p gr sp zeroed
    let gr1 := putInt gr it
    let c1 := (r.1.corr p.c.pid).getD p.c
    let s1 := r.1.setCorr (setGroup c1 p.q gr1)
    let s2 := { s1 with istore := { s1.istore with spills := s1.istore.spills + 1 } }
    let s3 := tapSnap s2 p sp vals
    match slot with
    | none => s3
    | some e =>
      let s4 := closePoison (closeElems s3 p gr1 it sp e vals) p zeroed
      let s5 := { s4 with istore := { s4.istore with closes := s4.istore.closes + 1 } }
      if it.closed.length = groupChans p.c p.q * tilesOf (blocksOf p.n) then completeGroup s5 p gr1 it e else s5

/-- An earlier dwell of the same product, channel and super-tile position is still held somewhere (04 R134, R135). -/
def earlierHeld (s : State) (t : Tile) : Bool :=
  let r := s.relief
  let before (x : Tile) : Bool := x.pid == t.pid && x.chan == t.chan && x.u == t.u && x.v == t.v && x.dwell < t.dwell
  (r.acc.any fun x => before x.tile) || (r.drain.any fun x => before x.tile) ||
    (r.slots.toList.any fun o => o.any fun x => before x.run.tile) || (r.incidents.any fun x => before x.tile) ||
    (r.spill.any fun x => before x.tile)

/-- A drain waits for an emit slot from now on; the wait counts in both stall counters (05 R152). -/
def beginEmitStall (s : State) : State :=
  if s.istore.emitStall.isSome then s
  else
    let s1 := { s with istore := { s.istore with emitStall := some s.now } }
    if s1.relief.drainStall.isSome then s1 else s1.setRelief { s1.relief with drainStall := some s1.now }

/-- The wait for an emit slot is over: its cycles count (05 R152). The drain stall goes on while the grid waits for the
set. -/
def endEmitStall (s : State) : State :=
  match s.istore.emitStall with
  | none => s
  | some t =>
    let s1 := { s with istore := { s.istore with emitStall := none,
                                                 emitStallCycles := s.istore.emitStallCycles + BitVec.ofNat 32 (rclkSince s t) } }
    if drainBlocked s1 then s1 else endDrainStall s1

/-- A compared super-tile leaves the spill path: its values commit; while no emit slot is free for a close it waits. A
super-tile whose product or group no longer runs it commits nothing. -/
def commitSpill (s : State) (sp : Spill) : State :=
  let s0 := s.setRelief { s.relief with spill := s.relief.spill.filter (· != sp) }
  match placeOf s sp.tile with
  | none => s0
  | some p =>
    if p.last then
      match emitSlotFor s p.c p.n p.q p.jj with
      | none => beginEmitStall s
      | some (c, e) =>
        let s1 := endEmitStall (s0.setCorr c)
        commitTile s1 { p with c := c } sp (some e)
    else commitTile s0 p sp none

/-- A matched super-tile commits, in dwell order (05 R147, R148; 04 R135). -/
def execSpillCommit (s : State) : Host.Outcome State Fault Refusal :=
  .next (
    if gated s then s
    else match s.relief.spill.find? fun x => !earlierHeld s x.tile with
      | some sp => startTile (trySwap (commitSpill s sp))
      | none => s)

end Sys2Proof.Machine
end

