-- ==== Sys2Proof/Machine/Corr.lean ====
section
/-! DEFINITION. The CORR Clauses (04 R112, R116, R123 to R126, R138; 05 R140 to R145, R155, R156, R159, R166, R169, R170,
R174). -/

namespace Sys2Proof.Machine

/-! ### Input maps (04 R123, R126) -/

/-- Entries of all maps. -/
def mapTotal (s : State) : Nat := sumNat (s.maps.map fun m => m.entries.length)

/-- CORR_INPUT_MAP_LOAD: HLEN is 2N, and A is the lowest free handle (log 34). -/
def mapLoad (s : State) (f : Fn) (buf : HBuf) (data : HRead) : Result := do
  let len := buf.len.toNat
  refuseIf (len == 0 || len % 2 == 1 || len > 16384) stBadParam 56
  refuseIf (s.maps.length ≥ 64 || mapTotal s + len / 2 > 65536) stBadParam 56
  let bs ← readBuf buf data
  let es := (List.range (len / 2)).map fun i => field bs (2 * i) 2
  refuseIf (es.any fun e => e > 8191) stBadParam 48
  refuseIf (!es.Nodup) stBadParam 48
  match (List.range 64).find? fun h => !(s.maps.any fun m => m.handle == h) with
  | none => refuse stBadParam 56
  | some h =>
    let s1 := { s with maps := s.maps ++ [{ handle := h, world := worldOf f, entries := es }] }
    quotaCheck s s1 (worldOf f)
    done s1 h

def execCorrInputMapLoad (src : Src) (buf : HBuf) (data : HRead) (s : State) : Host.Outcome State Fault Refusal :=
  runClause (.corrInputMapLoad src buf data) s fun s => mapLoad s src.fn buf data

/-- The map a Clause names. -/
def namedMap (s : State) (h off : Nat) : Except Reply InMap := orRefuse (s.maps.find? fun m => m.handle == h) stBadParam off

/-- CORR_INPUT_MAP_FREE: BUSY while any product names the map (04 R126). -/
def mapFree (s : State) (f : Fn) (h : Nat) : Result := do
  let m ← namedMap s h 8
  refuseIf (m.world != worldOf f) stWorldDenied 8
  refuseIf ((s.corrs.any fun c => c.map == h) || s.frieze.prods.any fun p => p.map == h) stBusy 8
  done { s with maps := s.maps.filter fun x => x.handle != h }

def execCorrInputMapFree (src : Src) (handle : U8) (s : State) : Host.Outcome State Fault Refusal :=
  runClause (.corrInputMapFree src handle) s fun s => mapFree s src.fn handle.toNat

/-! ### Checks of a definition -/

/-- The pairs of inputs and slots that a product uses. -/
def corrPairs (s : State) (c : Corr) : List (Nat × Nat) :=
  (span c.chBase (c.chBase + c.chCount)).flatMap fun slot => (corrInputs s c).map fun i => (i, slot)

/-- The streams behind pairs; none for a pair without one. -/
def pairStreams (s : State) (ps : List (Nat × Nat)) : List (Option StreamDef) := ps.map fun p => (supplier s p.1 p.2).map Prod.snd

/-- The formats suit the product: BYTE needs C8, no C8 input is used in both ways, and the requantizer has gains for all (03
R85, R87, 04 R112). -/
def formatOk (s : State) (c : Corr) (ss : List (Option StreamDef)) : Bool :=
  let others := { s with corrs := (s.corrs.filter fun x => x.pid != c.pid) ++ [c] }
  (c.mode != 2 || ss.all fun o => o.all StreamDef.c8) && !mixesC8 others c && gainsUsed others (fun _ => true) ≤ gainTable

/-- The stage need of a product in bytes (04 R116). -/
def stageNeed (b blk : Nat) : Nat := if b ≤ 1 then 0 else if b ≤ 4 then b * blk else 6 * blk

/-- Step 1 on the streams: every pair supplied, in a suitable format (04 R112, R125). -/
def streamParams (s : State) (c : Corr) (offChan offMode : Nat) : Except Reply (List (Option StreamDef)) := do
  let ss := pairStreams s (corrPairs s c)
  refuseIf (ss.any Option.isNone) stBadParam offChan
  refuseIf (!formatOk s c ss) stBadParam offMode
  return ss

/-- Step 2 on the streams: the world may read them (04 R125). -/
def streamWorld (ss : List (Option StreamDef)) (w : World) (offChan : Nat) : Except Reply Unit :=
  refuseIf (ss.any fun o => o.any fun d => d.world != w && !d.shared) stWorldDenied offChan

/-- The largest product component of a mode (04 R108). -/
def maxComponent (mode : Nat) : Nat := if mode = 2 then 32258 else 98

/-- OVERFLOW_RISK: an I32 integration must stay below 2^31 (05 R155). The largest accepted length is 66,560 samples in BYTE
mode. -/
def overflowCheck (c : Corr) : Except Reply Unit :=
  if !c.wide64 && c.nInt * c.td * maxComponent c.mode ≥ 2 ^ 31 then
    .error (.mk' stOverflowRisk 0 (c.nInt * c.td) (if c.mode = 2 then 66560 else 2147483647 / 98) 0)
  else .ok ()

/-- The corner-turn set that a product shares, if there is one (03 R89). Maps with equal entries and different handles are
different maps (log 54). -/
def matchingSet (s : State) (c : Corr) : Option CtSet :=
  s.intake.sets.find? fun x => x.map == c.map && x.chBase == c.chBase && x.chCount == c.chCount && x.log2Td == c.log2Td &&
    x.c8 == (c.mode == 2)

/-- The lowest number that no set has. -/
def freeSetId (s : State) : Nat :=
  ((List.range (s.intake.sets.length + 1)).find? fun i => !(s.intake.sets.any fun x => x.id == i)).getD 0

/-- A new corner-turn set for a product, written from a dwell on. -/
def newSet (s : State) (c : Corr) (d : Nat) : CtSet :=
  { id := freeSetId s, map := c.map, chBase := c.chBase, chCount := c.chCount, log2Td := c.log2Td, c8 := c.mode == 2,
    world := .secure, firstDwell := d, halves := Vector.replicate 2 { dwell := none, full := false }, hist := [] }

/-- The set of a product: an existing one, or a new one with its area (03 R89, 05 R142). -/
def takeSet (s : State) (w : World) (c : Corr) (n d : Nat) : Except Reply (State × Nat) :=
  match matchingSet s c with
  | some x => .ok (s, x.id)
  | none => do
    let x := { newSet s c d with world := w }
    let r ← place s w (.ctSet x.id) (2 * c.width * n * c.td * c.chCount)
    return ({ r.1 with intake := { r.1.intake with sets := r.1.intake.sets ++ [x] } }, x.id)

/-- H of the validity history: the longest integration among the products that share the set (05 R142). -/
def longestInt (s : State) (c : Corr) : Nat := ((setProducts s c.set).map Corr.nInt).foldl max c.nInt

/-- The areas that the Maelpin places for a product: its emit buffer and validity history (05 R142). -/
def placeAreas (s : State) (w : World) (c : Corr) (n output : Nat) : Except Reply State := do
  let r1 ← place s w (.emitBuf c.pid) (2 * roundUp (visLen n c.g output) granule)
  let r2 ← place r1.1 w (.validity c.pid) (ceilDiv (n * c.chCount * c.td) 2048 * (longestInt s c + 1))
  return r2.1

/-- The groups of a fresh product whose first dwell is d. -/
def newGroups (c : Corr) (d output : Nat) : List Group :=
  (List.range (groupCount c.chCount c.g)).map fun _ =>
    { start := d, stop := none, stopped := false, done := 0, output := output, ints := [] }

/-- CORR_DEFINE (04 R138, 05 R143). `c0` carries the fields of the Clause. -/
def corrDefine (s : State) (f : Fn) (c0 : Corr) (flags output : Nat) (route : U32) : Result := do
  let w := worldOf f
  admitGate s
  refuseIf (!domainUp s 6) stBusy 8
  refuseIf (!pidFree s c0.pid) stBadParam 8
  let m ← namedMap s c0.map 10
  let n := m.entries.length
  refuseIf (c0.mode > 2 || output > 2 || (output == 0 && c0.wide64) || flags ≥ 64) stBadParam 11
  refuseIf (c0.chBase ≥ 1024) stBadParam 12
  refuseIf (c0.chCount == 0 || c0.chBase + c0.chCount > 1024) stBadParam 14
  refuseIf (c0.log2Td < 10 || c0.log2Td > 16 || stageNeed (blocksOf n) (512 * c0.td * c0.width) > 67108864) stBadParam 16
  refuseIf (c0.nInt == 0 || c0.nInt > 256 || c0.nInt * c0.td ≥ 16777216) stBadParam 18
  refuseIf (c0.g == 0 || c0.g > c0.chCount || visPayloadLen n c0.g output > 1073741824) stBadParam 20
  refuseIf (c0.istore % granule != 0) stBadParam 24
  routeParams s f route (visLen n c0.g output) 32
  let ss ← streamParams s c0 12 11
  refuseIf (m.world != w) stWorldDenied 10
  streamWorld ss w 12
  refuseIf (!inWorld s w c0.istore (istoreExtent n c0)) stWorldDenied 24
  routeWorld s w route 32
  let first := ceilDiv s.intake.front c0.td
  let p := newProduct c0.pid .corr w f route (corrDemand s c0 n c0.mode output route) (visLen n c0.g output)
  ratesFirst s { s.setProduct c0.pid p with corrs := s.corrs ++ [c0] } w
  let s1 := addAlloc s { kind := .istore c0.pid, base := c0.istore, size := istoreExtent n c0, world := w }
  let t ← takeSet s1 w c0 n first
  let c := { c0 with set := t.2, begun := first, groups := newGroups c0 first output }
  let s2 ← placeAreas t.1 w c n output
  let s3 := { (s2.setProduct c.pid p) with corrs := s2.corrs ++ [c] }
  admission s s3 w (do
    tileCheck s c.istore (istoreExtent n c) 24
    overflowCheck c)
  deferred (recompile s3) 1 (first * c.td)

/-- The fields of CORR_DEFINE as a product. -/
def corrFields (pid handle flags chBase chCount log2Td nInt g base : Nat) : Corr :=
  { pid := pid, map := handle, mode := bits flags 0 2, nextModes := [], chBase := chBase, chCount := chCount,
    log2Td := log2Td, nInt := nInt, g := g, wide64 := bitOf flags 2, aligned := bitOf flags 5, istore := base, set := 0,
    begun := 0, groups := [], slots := Vector.replicate 2 none, snap := none, releasing := false, lateDwells := 0 }

def execCorrDefine (src : Src) (pid : U16) (handle flags : U8) (chBase chCount : U16) (log2Td : U8) (nInt g : U16)
    (base : U64) (route : U32) (s : State) : Host.Outcome State Fault Refusal :=
  runClause (.corrDefine src pid handle flags chBase chCount log2Td nInt g base route) s fun s =>
    corrDefine s src.fn
      (corrFields pid.toNat handle.toNat flags.toNat chBase.toNat chCount.toNat log2Td.toNat nInt.toNat g.toNat base.toNat)
      flags.toNat (bits flags.toNat 3 2) route

/-! ### Lifecycle (04 R138, 05 R168) -/

/-- The correlation product a Clause names. -/
def namedCorr (s : State) (f : Fn) (pid : Nat) : Except Reply (Product × Corr) := do
  let p ← namedProduct s f pid [.corr] 8
  let c ← orRefuse (s.corr pid) stBadParam 8
  return (p, c)

/-- A stop is pending. -/
def stopping (c : Corr) : Bool := c.groups.any fun g => g.stop.isSome && !g.stopped

/-- The next integration boundary of each group, as a dwell. -/
def groupBoundaries (s : State) (c : Corr) : List Nat :=
  (enumFrom0 c.groups).map fun g => c.nextBoundary g.1 (max (ceilDiv s.intake.front c.td) g.2.start)

/-- Every group stops at its next integration boundary; gives the last of them. -/
def stopCorr (s : State) (c : Corr) (releasing : Bool) : State × Nat :=
  let bs := groupBoundaries s c
  let gs := (c.groups.zip bs).map fun x => ({ x.1 with stop := some x.2, stopped := false } : Group)
  let s1 := s.setCorr { c with groups := gs, releasing := releasing }
  (checkStops s1 c.pid, bs.foldl max 0 * c.td)

/-- CORR_RELEASE: a suspended product, which has no integration in progress, goes at once (log 35). -/
def corrRelease (s : State) (f : Fn) (pid : Nat) : Result := do
  let pc ← namedCorr s f pid
  refuseIf (stopping pc.2) stBusy 8
  if pc.1.suspended then deferred (checkStops (s.setCorr { pc.2 with releasing := true }) pid) 1 s.intake.front
  else
    let r := stopCorr s pc.2 true
    deferred r.1 1 r.2

def execCorrRelease (src : Src) (pid : U16) (s : State) : Host.Outcome State Fault Refusal :=
  runClause (.corrRelease src pid) s fun s => corrRelease s src.fn pid.toNat

/-- CORR_SUSPEND. -/
def corrSuspend (s : State) (f : Fn) (pid : Nat) : Result := do
  let pc ← namedCorr s f pid
  refuseIf (stopping pc.2 || pc.1.suspended) stBusy 8
  let r := stopCorr s pc.2 false
  deferred r.1 1 r.2

def execCorrSuspend (src : Src) (pid : U16) (s : State) : Host.Outcome State Fault Refusal :=
  runClause (.corrSuspend src pid) s fun s => corrSuspend s src.fn pid.toNat

/-- CORR_RESUME: every group runs again from the next boundary of the product's integration grid, the first dwell at which
some group's integration begins (04 R138, 05 R146; log 36). -/
def corrResume (s : State) (f : Fn) (pid : Nat) : Result := do
  admitGate s
  let p ← findProduct s pid [.corr] 8
  let c ← orRefuse (s.corr pid) stBadParam 8
  refuseIf (!p.suspended) stBadParam 8
  let ss ← streamParams { s with corrs := s.corrs.filter fun x => x.pid != pid } c 8 8
  ownWorld p f 8
  streamWorld ss (worldOf f) 8
  let pc := (p, c)
  let from_ := ceilDiv s.intake.front c.td
  let bs := (List.range c.groups.length).map fun q => c.nextBoundary q from_
  let d := bs.foldl min (bs.headD from_)
  let gs := c.groups.map fun g => ({ g with start := d, stop := none, stopped := false } : Group)
  let s1 := (s.setCorr { c with groups := gs, begun := max c.begun d }).setProduct pid { pc.1 with suspended := false }
  admission s s1 (worldOf f)
  deferred (recompile s1) 1 (d * c.td)

/-- The output format that a product's next records take. -/
def corrOutput (c : Corr) : Nat := (c.groups.head?.map Group.output).getD 0

/-- The mode that a product will have once every pending change is in effect. -/
def latestMode (c : Corr) : Nat := ((c.nextModes.getLast?).map Prod.snd).getD c.mode

/-- CORR_SET_MODE: the mode changes at the earliest next integration boundary of a group (04 R138; log 37). -/
def corrSetMode (s : State) (f : Fn) (pid mode : Nat) : Result := do
  let p ← findProduct s pid [.corr] 8
  let c ← orRefuse (s.corr pid) stBadParam 8
  refuseIf (mode > 1 || c.mode == 2) stBadParam 10
  ownWorld p f 8
  let bs := groupBoundaries s c
  let d := bs.foldl min (bs.headD 0)
  let dem := corrDemand s c (corrInputs s c).length mode (corrOutput c) (latestDemand p).route
  let s1 := (s.setCorr { c with nextModes := c.nextModes ++ [(d, mode)] }).setProduct pid (reserveDemand p dem (d * c.td))
  admission s (replaced s1 pid) (worldOf f)
  deferred (recompile s1) 1 (d * c.td)

def execCorrSetMode (src : Src) (pid : U16) (mode : U8) (s : State) : Host.Outcome State Fault Refusal :=
  runClause (.corrSetMode src pid mode) s fun s => corrSetMode s src.fn pid.toNat mode.toNat

/-- A change of routing entry between two of the product's records (05 R170): the first sequence number under it. -/
def changeRoute (p : Product) (route : U32) : Product :=
  { reserveDemand p { latestDemand p with route := route } (2 ^ 64 + p.seq) with
    routeChange := some { fromSeq := p.seq, route := route } }

/-- A Clause that sets a product's routing entry: BAD_PARAM and WORLD_DENIED under R169, rechecked under R25. -/
def setRoute (s : State) (f : Fn) (p : Product) (route : U32) (off : Nat) : Result := do
  routeParams s f route p.maxRecord off
  ownWorld p f 8
  routeWorld s p.world route off
  let s1 := s.setProduct p.pid (changeRoute p route)
  admission s (replaced s1 p.pid) (worldOf f)
  deferred s1 3 p.seq

def execCorrSetRoute (src : Src) (pid : U16) (route : U32) (s : State) : Host.Outcome State Fault Refusal :=
  runClause (.corrSetRoute src pid route) s fun s => do
    let p ← findProduct s pid.toNat [.corr] 8
    setRoute s src.fn p route 12

/-- The size of an allocation. -/
def allocSize (s : State) (k : AllocKind) : Nat := ((allocOf s k).map Alloc.size).getD 0

/-- An emit buffer for larger records is placed, and the old one stays until the boundary. -/
def growEmit (s : State) (w : World) (c : Corr) (bytes : Nat) : Except Reply State :=
  if bytes ≤ allocSize s (.emitBuf c.pid) then .ok s
  else do
    let old (a : Alloc) : Alloc := if a.kind = .emitBuf c.pid then { a with kind := .emitOld c.pid } else a
    let r ← place { s with hbm := { s.hbm with allocs := s.hbm.allocs.map old } } w (.emitBuf c.pid) bytes
    return r.1

/-- CORR_SET_OUTPUT: each group takes up the format at its next record (05 R166). -/
def corrSetOutput (s : State) (f : Fn) (pid output : Nat) : Result := do
  let p ← findProduct s pid [.corr] 8
  let c ← orRefuse (s.corr pid) stBadParam 8
  let n := (corrInputs s c).length
  refuseIf (output > 2 || (output == 0 && c.wide64) || visPayloadLen n c.g output > 1073741824) stBadParam 10
  ownWorld p f 8
  let bs := groupBoundaries s c
  let d := bs.foldl max 0
  let dem := corrDemand s c n (latestMode c) output (latestDemand p).route
  let s1 ← growEmit s p.world c (2 * roundUp (visLen n c.g output) granule)
  let gs := c.groups.map fun g => ({ g with output := output } : Group)
  let p1 := { reserveDemand p dem (d * c.td) with maxRecord := max p.maxRecord (visLen n c.g output) }
  let s2 := (s1.setCorr { c with groups := gs }).setProduct pid p1
  admission s (replaced s2 pid) (worldOf f)
  deferred s2 1 (d * c.td)

def execCorrSetOutput (src : Src) (pid : U16) (output : U8) (s : State) : Host.Outcome State Fault Refusal :=
  runClause (.corrSetOutput src pid output) s fun s => corrSetOutput s src.fn pid.toNat output.toNat

/-- The correlation products a function's query reports, with their common parts. -/
def corrsSeen (s : State) (f : Fn) : List (Corr × Product) :=
  s.corrs.filterMap fun c => (s.product c.pid).bind fun p => if seenBy f p.world then some (c, p) else none

/-- What CORR_PLAN_QUERY reports (04 R138). -/
def planReport (s : State) (f : Fn) : Report :=
  .plan ((corrsSeen s f).map fun (c, p) =>
    { pid := c.pid, demand := most (demandsOf p) Demand.relief, chanDwell := p.demand.chanDwell,
      stage := stageNeed (blocksOf (corrInputs s c).length) (512 * c.td * c.width), late := c.lateDwells })

def execCorrPlanQuery (src : Src) (buf : HBuf) (s : State) : Host.Outcome State Fault Refusal :=
  runClause (.corrPlanQuery src buf) s fun s => answerReport s src buf (planReport s src.fn)

/-- What CORR_ISTORE_QUERY reports (05 R174). -/
def storeReport (s : State) (f : Fn) : Report :=
  .store ((corrsSeen s f).map fun (c, p) =>
    { pid := c.pid, base := c.istore, extent := istoreExtent (corrInputs s c).length c, emit := allocOf s (.emitBuf c.pid),
      validity := allocOf s (.validity c.pid), record := p.maxRecord, groups := groupCount c.chCount c.g,
      phases := (List.range (groupCount c.chCount c.g)).map c.phase })

def execCorrIstoreQuery (src : Src) (buf : HBuf) (s : State) : Host.Outcome State Fault Refusal :=
  runClause (.corrIstoreQuery src buf) s fun s => answerReport s src buf (storeReport s src.fn)

/-! ### Snapshots (05 R156, R159) -/

/-- CORR_SNAPSHOT. -/
def corrSnapshot (s : State) (src : Src) (pid first count area len : Nat) : Result := do
  let pc ← namedCorr s src.fn pid
  let c := pc.2
  let n := (corrInputs s c).length
  refuseIf pc.1.suspended stBadParam 8
  refuseIf (first ≥ c.groups.length) stBadParam 10
  refuseIf (count == 0 || first + count > c.groups.length) stBadParam 12
  let need := sumNat ((span first (first + count)).map fun q =>
    visLen n (groupChans c q) (((c.groups[q]?).map Group.output).getD 0))
  refuseIf (len < need) stBadParam 24
  refuseIf (!inWorld s (worldOf src.fn) area len) stWorldDenied 16
  tileCheck s area len 16
  refuseIf c.snap.isSome stBusy 8
  let bytes : Rat := ((c.elem + 2) * baselines n * c.g * count : Nat)
  let traffic := total (productsIn s none) Demand.hbm + bytes / dwellSeconds s c.log2Td
  termCheck 6 traffic (hbmPeak (stacksInService s) s.hbm.rate * 4 / 5)
  let d := c.begun
  let part (q : Nat) : SnapPart :=
    { group := q, output := ((c.groups[q]?).map Group.output).getD 0, isOpen := false, start := 0, verified := true, low := false,
      zeroed := 0, stale := false, sat := false }
  let sn : Snap := { firstGroup := first, groups := count, area := area, dwell := d, src := src, tapped := [], settled := false,
                     parts := (span first (first + count)).map part }
  let s1 := addAlloc (s.setCorr { c with snap := some sn }) { kind := .snapshot pid, base := area, size := len, world := worldOf src.fn }
  let s2 := { s1 with istore := { s1.istore with snapProduct := pid, snapBoundary := some ((d + 1) * c.td), snapLeft := count } }
  .ok (s2, { Reply.mk' stDeferred 1 ((d + 1) * c.td) 0 0 with followDue := true })

def execCorrSnapshot (src : Src) (pid first count : U16) (area len : U64) (s : State) : Host.Outcome State Fault Refusal :=
  runClause (.corrSnapshot src pid first count area len) s fun s => corrSnapshot s src pid.toNat first.toNat count.toNat area.toNat len.toNat

/-! ### Deferred changes (01 R25, 04 R138, 05 R166) -/

/-- Modes whose boundary dwell has begun take the place of the old one. -/
def settleModes (c : Corr) : Corr :=
  let due := c.nextModes.takeWhile fun m => m.1 < c.begun
  { c with mode := ((due.getLast?).map Prod.snd).getD c.mode, nextModes := c.nextModes.drop due.length }

/-- An emit buffer that was replaced is given up once no slot lies in it; one that is too large shrinks (05 R142, R166). -/
def settleEmit (s : State) (c : Corr) : State :=
  let inUse (a : Alloc) : Bool := c.slots.toList.any fun o => o.any fun e => a.base ≤ e.base && e.base < a.base + a.size
  let size := 2 * roundUp (visLen (corrInputs s c).length c.g (corrOutput c)) granule
  let keep := s.hbm.allocs.filter fun a => a.kind != .emitOld c.pid || inUse a
  let idle := c.slots.toList.all Option.isNone
  let fit (a : Alloc) : Alloc := if a.kind = .emitBuf c.pid ∧ idle then { a with size := min a.size size } else a
  { s with hbm := { s.hbm with allocs := keep.map fit } }

/-- What a correlation product owes at boundaries that have been reached. -/
def settleCorr (s : State) (pid : Nat) : State :=
  match s.corr pid with
  | none => s
  | some c =>
    let c1 := freeEmit s (settleModes c)
    let s1 := settleProduct (s.setCorr c1) pid
    let s2 := match s1.product pid with
      | some p => if p.reserve.isEmpty then
          (settleEmit s1 c1).setProduct pid { p with maxRecord := visLen (corrInputs s c1).length c1.g (corrOutput c1) }
        else s1
      | none => s1
    checkStops s2 pid

end Sys2Proof.Machine
end

