-- ==== Sys2Proof/Machine/GlossCode.lean ====
section
/-! DEFINITION. The words of the Gloss instructions: their encoding and decoding (09 R290, R291, R297). -/

namespace Sys2Proof.Machine

/-- The operations of the P format (09 R291). -/
inductive POp where
  | nop | mpy | mac | msu | dmac | cmach | cmacl | cmacjl | pwr | clr | add | sub | addq | subq | addw | subw | bfly | tfr
  | neg | abs | asr | asl | tst | ldq
  deriving DecidableEq, Repr

/-- The operations of the R format. -/
inductive ROp where
  | mov | ldi | rnd | expw | paddi | setbs | setex | clrf | bexpr | ldw
  deriving DecidableEq, Repr

/-- The operations of the M format. -/
inductive MOp where
  | ld | st | stw | ldw | savw | rstw
  deriving DecidableEq, Repr

/-- The branches, calls and returns of the C format. -/
inductive BOp where
  | bra | beq | bne | blt | bge | call | ret
  deriving DecidableEq, Repr

/-- A Gloss instruction. -/
inductive GInstr where
  | p (op : POp) (f : PF)
  | r (op : ROp) (f : RF)
  | m (op : MOp) (f : MF)
  | branch (op : BOp) (target : BitVec 14)
  | loop (count : BitVec 10) (last : BitVec 14)
  | loopd (v : Fin 8) (last : BitVec 14)
  | ldil (dst : Fin 32) (imm : BitVec 24)
  | waitf (n : BitVec 14)
  | emit (f : EF)
  | evt (n : Fin 8)
  | halt
  deriving DecidableEq, Repr

/-! ### Opcodes (09 R291) -/

def POp.code : POp → Nat
  | .nop => 0x00 | .mpy => 0x01 | .mac => 0x02 | .msu => 0x03 | .dmac => 0x04 | .cmach => 0x05 | .cmacl => 0x06
  | .cmacjl => 0x07 | .pwr => 0x08 | .clr => 0x10 | .add => 0x11 | .sub => 0x12 | .addq => 0x13 | .subq => 0x14
  | .addw => 0x15 | .subw => 0x16 | .bfly => 0x17 | .tfr => 0x18 | .neg => 0x19 | .abs => 0x1A | .asr => 0x1B
  | .asl => 0x1C | .tst => 0x1D | .ldq => 0x1E

def POp.ofCode : Nat → Option POp
  | 0x00 => some .nop | 0x01 => some .mpy | 0x02 => some .mac | 0x03 => some .msu | 0x04 => some .dmac
  | 0x05 => some .cmach | 0x06 => some .cmacl | 0x07 => some .cmacjl | 0x08 => some .pwr | 0x10 => some .clr
  | 0x11 => some .add | 0x12 => some .sub | 0x13 => some .addq | 0x14 => some .subq | 0x15 => some .addw
  | 0x16 => some .subw | 0x17 => some .bfly | 0x18 => some .tfr | 0x19 => some .neg | 0x1A => some .abs
  | 0x1B => some .asr | 0x1C => some .asl | 0x1D => some .tst | 0x1E => some .ldq | _ => none

def ROp.code : ROp → Nat
  | .mov => 0x00 | .ldi => 0x01 | .rnd => 0x02 | .expw => 0x03 | .paddi => 0x04 | .setbs => 0x05 | .setex => 0x06
  | .clrf => 0x07 | .bexpr => 0x08 | .ldw => 0x09

def ROp.ofCode : Nat → Option ROp
  | 0x00 => some .mov | 0x01 => some .ldi | 0x02 => some .rnd | 0x03 => some .expw | 0x04 => some .paddi
  | 0x05 => some .setbs | 0x06 => some .setex | 0x07 => some .clrf | 0x08 => some .bexpr | 0x09 => some .ldw | _ => none

def MOp.code : MOp → Nat
  | .ld => 0x00 | .st => 0x01 | .stw => 0x02 | .ldw => 0x03 | .savw => 0x04 | .rstw => 0x05

def MOp.ofCode : Nat → Option MOp
  | 0x00 => some .ld | 0x01 => some .st | 0x02 => some .stw | 0x03 => some .ldw | 0x04 => some .savw
  | 0x05 => some .rstw | _ => none

def BOp.code : BOp → Nat
  | .bra => 0x00 | .beq => 0x01 | .bne => 0x02 | .blt => 0x03 | .bge => 0x04 | .call => 0x05 | .ret => 0x06

def BOp.ofCode : Nat → Option BOp
  | 0x00 => some .bra | 0x01 => some .beq | 0x02 => some .bne | 0x03 => some .blt | 0x04 => some .bge
  | 0x05 => some .call | 0x06 => some .ret | _ => none

/-- An M-format operation whose register field names an accumulator, 0 to 3. -/
def MOp.onAcc : MOp → Bool
  | .ld | .st => false
  | _ => true

/-! ### Update and transfer fields (09 R290) -/

def updCode : Upd → Nat
  | .keep => 0 | .inc => 1 | .dec => 2 | .step => 3

def updOf (n : Nat) : Upd :=
  match n with
  | 0 => .keep
  | 1 => .inc
  | 2 => .dec
  | _ => .step

/-- A load side: on, pointer, update. -/
def sideCode (x : Option (Fin 8 × Upd)) : Nat × Nat × Nat :=
  match x with
  | some (p, u) => (1, p.val, updCode u)
  | none => (0, 0, 0)

/-- The 16 bits of a transfer field. -/
def xferCode : Xfer → Nat
  | .none => 0
  | .load x y q =>
    let a := sideCode x
    let b := sideCode y
    0x4000 + a.1 * 2 ^ 13 + a.2.1 * 2 ^ 10 + a.2.2 * 2 ^ 8 + b.1 * 2 ^ 7 + b.2.1 * 2 ^ 4 + b.2.2 * 2 ^ 2 + q.val
  | .store toY p u v => 0x8000 + b2n toY * 2 ^ 13 + p.val * 2 ^ 10 + updCode u * 2 ^ 8 + v.val * 2 ^ 5

/-- A load transfer has a side on, and not both through one pointer (09 R290). -/
def xferWf : Xfer → Bool
  | .none => true
  | .load none none _ => false
  | .load (some (p, _)) (some (q, _)) _ => p != q
  | .load _ _ _ => true
  | .store _ _ _ _ => true

/-- The transfer that 16 bits spell; none for a reserved kind, a non-zero RSVD field or an ill-formed load. Bits to which
the chosen kind gives no field are RSVD (log 46). -/
def xferOf (w : Nat) : Option Xfer :=
  match bits w 14 2 with
  | 0 => if bits w 0 14 = 0 then some .none else none
  | 1 =>
    let side (on p u : Nat) : Option (Fin 8 × Upd) := if on = 1 then some (Fin.ofNat 8 p, updOf u) else none
    let x := Xfer.load (side (bits w 13 1) (bits w 10 3) (bits w 8 2)) (side (bits w 7 1) (bits w 4 3) (bits w 2 2))
      (Fin.ofNat 4 (bits w 0 2))
    if xferWf x then some x else none
  | 2 =>
    if bits w 0 5 = 0 then
      some (.store (bitOf w 13) (Fin.ofNat 8 (bits w 10 3)) (updOf (bits w 8 2)) (Fin.ofNat 8 (bits w 5 3)))
    else none
  | _ => none

/-! ### Words -/

/-- The 32-bit word of a format, opcode and 24 operand bits. -/
def wordOf (format op operand : Nat) : Nat := format * 2 ^ 30 + op * 2 ^ 24 + operand

/-- The word of an instruction, and the second word of LDIL (09 R290). -/
def GInstr.encode : GInstr → Nat × Nat
  | .p op f => (wordOf 0 op.code (f.a.val * 2 ^ 22 + f.m.val * 2 ^ 19 + f.n.val * 2 ^ 16 + xferCode f.x), 0)
  | .r op f => (wordOf 1 op.code (f.dst.val * 2 ^ 19 + f.src.val * 2 ^ 14 + f.imm.toNat), 0)
  | .m op f =>
    (wordOf 2 op.code (b2n f.inY * 2 ^ 23 + f.reg.val * 2 ^ 20 + f.ptr.val * 2 ^ 17 + updCode f.upd * 2 ^ 15 + f.sh.val * 2 ^ 10), 0)
  | .branch op t => (wordOf 3 op.code t.toNat, 0)
  | .loop n l => (wordOf 3 0x07 (n.toNat * 2 ^ 14 + l.toNat), 0)
  | .loopd v l => (wordOf 3 0x08 (v.val * 2 ^ 14 + l.toNat), 0)
  | .ldil d i => (wordOf 3 0x09 (d.val * 2 ^ 19), i.toNat)
  | .waitf n => (wordOf 3 0x0A n.toNat, 0)
  | .emit f =>
    (wordOf 3 0x0B (b2n f.inY * 2 ^ 23 + f.ptr.val * 2 ^ 20 + f.v.val * 2 ^ 17 + f.mode.val * 2 ^ 14 + b2n f.opn * 2 ^ 13 +
      b2n f.cls * 2 ^ 12 + b2n f.avok * 2 ^ 11 + b2n f.vreq * 2 ^ 10), 0)
  | .evt n => (wordOf 3 0x0C n.val, 0)
  | .halt => (wordOf 3 0x0D 0, 0)

/-- An instruction whose fields the encoding admits: a good transfer, an accumulator in range. -/
def GInstr.wf : GInstr → Bool
  | .p _ f => xferWf f.x
  | .m op f => !op.onAcc || f.reg.val < 4
  | _ => true

/-- Decode a C-format word with opcode and operand; `next` is the word after it. Operand bits that the opcode does not name
are RSVD (log 46). -/
def decodeC (op w next : Nat) : Option GInstr :=
  let low : BitVec 14 := BitVec.ofNat 14 (bits w 0 14)
  match op with
  | 0x07 => some (.loop (BitVec.ofNat 10 (bits w 14 10)) low)
  | 0x08 => if bits w 17 7 = 0 then some (.loopd (Fin.ofNat 8 (bits w 14 3)) low) else none
  | 0x09 => if bits w 0 19 = 0 ∧ bits next 24 8 = 0 then some (.ldil (Fin.ofNat 32 (bits w 19 5)) (BitVec.ofNat 24 next)) else none
  | 0x0A => if bits w 14 10 = 0 then some (.waitf low) else none
  | 0x0B =>
    if bits w 0 10 = 0 then
      some (.emit { inY := bitOf w 23, ptr := Fin.ofNat 8 (bits w 20 3), v := Fin.ofNat 8 (bits w 17 3),
                    mode := Fin.ofNat 8 (bits w 14 3), opn := bitOf w 13, cls := bitOf w 12, avok := bitOf w 11,
                    vreq := bitOf w 10 })
    else none
  | 0x0C => if bits w 3 21 = 0 then some (.evt (Fin.ofNat 8 (bits w 0 3))) else none
  | 0x0D => if bits w 0 24 = 0 then some .halt else none
  | _ => if bits w 14 10 = 0 then (BOp.ofCode op).map fun b => .branch b low else none

/-- The instruction that a word spells, with the word after it; none for an illegal one (09 R290, R291). -/
def GInstr.decode (w next : Nat) : Option GInstr :=
  let op := bits w 24 6
  match bits w 30 2 with
  | 0 => do
    let o ← POp.ofCode op
    let x ← xferOf (bits w 0 16)
    return .p o { a := Fin.ofNat 4 (bits w 22 2), m := Fin.ofNat 8 (bits w 19 3), n := Fin.ofNat 8 (bits w 16 3), x := x }
  | 1 => do
    let o ← ROp.ofCode op
    return .r o { dst := Fin.ofNat 32 (bits w 19 5), src := Fin.ofNat 32 (bits w 14 5), imm := BitVec.ofNat 14 (bits w 0 14) }
  | 2 => do
    let o ← MOp.ofCode op
    let i := GInstr.m o { inY := bitOf w 23, reg := Fin.ofNat 8 (bits w 20 3), ptr := Fin.ofNat 8 (bits w 17 3),
                          upd := updOf (bits w 15 2), sh := Fin.ofNat 32 (bits w 10 5) }
    if bits w 0 10 = 0 ∧ i.wf = true then some i else none
  | _ => decodeC op (bits w 0 24) next

/-- A C-format instruction. -/
def GInstr.isC : GInstr → Bool
  | .p _ _ | .r _ _ | .m _ _ => false
  | _ => true

/-- Words an instruction takes. -/
def GInstr.size : GInstr → Nat
  | .ldil _ _ => 2
  | _ => 1

end Sys2Proof.Machine
end

