-- ==== Sys2Proof/Machine/GlossAlu.lean ====
section
/-! DEFINITION. What a Gloss instruction does inside its core: registers, addressing, arithmetic, transfers, loops (09 R276 to
R288). -/

namespace Sys2Proof.Machine

/-! ### Registers (09 R276) -/

/-- V_i as a signed number. -/
def Core.vr (c : Core) (i : Nat) : Int := (vget c.v (i % 8) 0).toInt

/-- W_i as a signed number. -/
def Core.wr (c : Core) (i : Nat) : Int := (vget c.w (i % 4) 0).toInt

/-- P_i. -/
def Core.pr (c : Core) (i : Nat) : Nat := (vget c.p (i % 8) 0).toNat

/-- The partner of V_m. -/
def partner (m : Nat) : Nat := (m + 2) % 8

/-- The other accumulator of a's pair. -/
def other (a : Nat) : Nat := if a % 2 = 0 then a + 1 else a - 1

/-- Write V_i with the low 24 bits of a number. -/
def Core.setV (c : Core) (i : Nat) (x : Int) : Core := { c with v := vset c.v (i % 8) (BitVec.ofInt 24 x) }

/-- FL as a 24-bit word (09 R276). -/
def flWord (c : Core) : Nat :=
  b2n c.z + 2 * b2n c.n + 4 * b2n c.av + 8 * b2n c.sat + 16 * b2n c.eov + 32 * c.loops.length + 256 * c.calls.length

/-- CNT: the iterations of the innermost active loop still to run, the one in progress included; 0 without a loop. -/
def cntOf (c : Core) : Nat := ((c.loops.head?).map LoopFrame.left).getD 0

/-- The value of a register by its index, sign-extended from its own width (09 R276, R291; log 47). -/
def readReg (c : Core) (core i : Nat) : Int :=
  if i < 8 then c.vr i
  else if i < 16 then (vget c.p (i - 8) 0).toInt
  else if i < 24 then (vget c.k (i - 16) 0).toInt
  else match i with
    | 24 => toSigned 24 (flWord c)
    | 25 => toSigned 5 c.bx.toNat
    | 26 => toSigned 17 (cntOf c)
    | 27 => c.inWr.toInt
    | 28 => c.inRd.toInt
    | 29 => toSigned 5 core
    | 30 => c.timer.toInt
    | _ => 0

/-- IN_RD moves: a source frame whose first word it passes is inherited (09 R299). -/
def moveRd (c : Core) (new : BitVec 24) : Core :=
  let step := (new - c.inRd).toNat
  let pass (f : SrcFrame) : SrcFrame :=
    if (f.first + 2 ^ 24 - c.inRd.toNat) % 2 ^ 24 < step then { f with passed := true } else f
  { c with inRd := new, frames := c.frames.map pass }

/-- A register written by its index, truncated or extended to its width. A write of FL changes Z and N; RO registers and
index 31 ignore writes (09 R276). -/
def writeReg (c : Core) (i : Nat) (x : Int) : Core :=
  if i < 8 then c.setV i x
  else if i < 16 then { c with p := vset c.p (i - 8) (BitVec.ofInt 15 x) }
  else if i < 24 then { c with k := vset c.k (i - 16) (BitVec.ofInt 16 x) }
  else match i with
    | 24 => { c with z := x % 2 = 1, n := x / 2 % 2 = 1 }
    | 25 => { c with bx := BitVec.ofInt 5 x }
    | 28 => moveRd c (BitVec.ofInt 24 x)
    | _ => c

/-! ### Addressing (09 R280, R281) -/

/-- The low k bits of x reversed. -/
def revBits : Nat → Nat → Nat
  | 0, _ => 0
  | k + 1, x => x % 2 * 2 ^ k + revBits k (x / 2)

/-- The increment that an update field asks of pointer p. -/
def increment (c : Core) (p : Nat) (u : Upd) : Int :=
  match u with
  | .keep => 0
  | .inc => 1
  | .dec => -1
  | .step => (vget c.k p 0).toInt

/-- A pointer updated by an increment under its EXT register (09 R280). -/
def stepPtr (c : Core) (p : Nat) (m : Int) : Core :=
  let e := (vget c.ext p 0).toNat
  let q := e % 65536
  let base : Int := (vget c.base p 0).toNat
  let v : Int := (vget c.p p 0).toNat
  let new : Int :=
    if q = 0 then v + m
    else if e < 65536 then base + (v - base + m) % q
    else
      let k := Nat.log2 q
      let o := ((v - base) % (2 ^ k : Nat)).toNat
      let d := (m % (2 ^ k : Nat)).toNat
      base + (revBits k ((revBits k o + revBits k d) % 2 ^ k) : Nat)
  { c with p := vset c.p p (BitVec.ofInt 15 new) }

/-- A pointer updated as an update field says. -/
def update (c : Core) (p : Nat) (u : Upd) : Core :=
  match u with
  | .keep => stepPtr c p 0
  | _ => stepPtr c p (increment c p u)

/-- A word of X or Y. -/
def Core.load (c : Core) (inY : Bool) (a : Nat) : Nat := wordGet a (if inY then c.y else c.x)

/-- A word of X or Y as a signed number. -/
def Core.loadS (c : Core) (inY : Bool) (a : Nat) : Int := toSigned 24 (c.load inY a)

/-- A word written by the core, remembered for collisions (09 R278). -/
def Core.put (c : Core) (inY : Bool) (a : Nat) (x : Int) : Core :=
  let v := (BitVec.ofInt 24 x).toNat
  let c1 := if inY then { c with y := wordPut a v c.y } else { c with x := wordPut a v c.x }
  { c1 with stored := c1.stored ++ [(inY, a)] }

/-! ### Accumulators and flags (09 R282 to R285, R288) -/

/-- The true result lies outside the accumulator (09 R283). -/
def over56 (x : Int) : Bool := x < -(2 ^ 55 : Int) || x ≥ (2 ^ 55 : Int)

/-- An accumulator takes a true result modulo 2^56; AV and the emitter's AV set where it does not fit (09 R283, R299). -/
def setAcc (c : Core) (a : Nat) (x : Int) : Core :=
  { c with w := vset c.w (a % 4) (BitVec.ofInt 56 x), av := c.av || over56 x, emAv := c.emAv || over56 x }

/-- Z and N from accumulator a, as the ALU leaves them (log 48). -/
def setZn (c : Core) (a : Nat) : Core := { c with z := c.wr a = 0, n := c.wr a < 0 }

/-- The leading bits of a two's-complement number of `width` bits that equal its sign bit, minus 1. -/
def redundant (width : Nat) (x : Int) : Nat :=
  let m := if x < 0 then (-x - 1).toNat else x.toNat
  width - 1 - (if m = 0 then 0 else Nat.log2 m + 1)

/-- sat24(round_half_even(W / 2^sh)): SAT where it was limited, and BX follows (09 R284, R288). -/
def roundAcc (c : Core) (a sh : Nat) : Core × Int :=
  let r := clampAbs (roundHE (c.wr a) (2 ^ sh)) 8388607
  ({ c with sat := c.sat || r.2, emSat := c.emSat || r.2, bx := BitVec.ofNat 5 (min c.bx.toNat (redundant 24 r.1)) }, r.1)

/-! ### P format (09 R291) -/

/-- The result that an ALU operation leaves in its accumulator; none for those that write two, or none. -/
def aluResult (c : Core) (op : POp) (f : PF) : Option Int :=
  let a := c.wr f.a.val
  let m := c.vr f.m.val
  let w := c.wr f.n.val
  match op with
  | .clr => some 0
  | .add => some (a + m)
  | .sub => some (a - m)
  | .addq => some (a + m * 2 ^ 23)
  | .subq => some (a - m * 2 ^ 23)
  | .addw => some (a + w)
  | .subw => some (a - w)
  | .tfr => some w
  | .neg => some (-a)
  | .abs => some (a.natAbs : Nat)
  | .asr => some (a / (2 ^ (f.n.val + 1) : Nat))
  | .asl => some (a * (2 ^ (f.n.val + 1) : Nat))
  | .ldq => some (m * 2 ^ 23)
  | _ => none

/-- BFLY: the sum in W_a and the difference in W_n, from the old values. With one accumulator named twice its value is
`free` (log 49). -/
def butterfly (c : Core) (f : PF) (free : Nat) : Core :=
  let a := f.a.val
  let n := f.n.val % 4
  let x := c.wr a
  let y := c.wr n
  if a = n then
    let c1 := setAcc c a (x + y)
    setZn { c1 with w := vset c1.w a (BitVec.ofNat 56 free) } a
  else setZn (setAcc (setAcc c a (x + y)) n (x - y)) a

/-- The operation of a P-format instruction. The multiply-accumulate operations leave Z and N as they are. -/
def pOp (c : Core) (op : POp) (f : PF) (free : Nat) : Core :=
  let a := f.a.val
  let b := other a
  let m := c.vr f.m.val
  let n := c.vr f.n.val
  let m' := c.vr (partner f.m.val)
  let n' := c.vr (partner f.n.val)
  match op with
  | .nop => c
  | .mpy => setAcc c a (m * n)
  | .mac => setAcc c a (c.wr a + m * n)
  | .msu => setAcc c a (c.wr a - m * n)
  | .dmac => setAcc (setAcc c a (c.wr a + m * n)) b (c.wr b + m' * n')
  | .cmach => setAcc (setAcc c a (c.wr a + m * n)) b (c.wr b + m * n')
  | .cmacl => setAcc (setAcc c a (c.wr a - m' * n')) b (c.wr b + m' * n)
  | .cmacjl => setAcc (setAcc c a (c.wr a + m' * n')) b (c.wr b - m' * n)
  | .pwr => setAcc c a (c.wr a + m * m + m' * m')
  | .bfly => butterfly c f free
  | .tst => setZn c a
  | op =>
    match aluResult c op f with
    | some x => setZn (setAcc c a x) a
    | none => c

/-- The transfer of a P-format instruction: `c0` is the core before the operation, whose V registers a store reads (09
R279). Both sides of a load use the pointers as they were. -/
def transfer (c0 c : Core) (x : Xfer) : Core :=
  match x with
  | .none => c
  | .load xs ys q =>
    let c1 := match xs with
      | some (p, u) => update (c.setV (2 * q.val) (c.loadS false (c.pr p.val))) p.val u
      | none => c
    match ys with
    | some (p, u) => update (c1.setV (2 * q.val + 1) (c.loadS true (c.pr p.val))) p.val u
    | none => c1
  | .store inY p u v => update (c.put inY (c.pr p.val) (c0.vr v.val)) p.val u

/-! ### R format (09 R291) -/

/-- The operation of an R-format instruction on core number `core`. -/
def rOp (c : Core) (core : Nat) (op : ROp) (f : RF) : Core :=
  let d := f.dst.val
  let src := readReg c core f.src.val
  match op with
  | .mov => writeReg c d src
  | .ldi => writeReg c d f.imm.toInt
  | .rnd =>
    let r := roundAcc c f.src.val (f.imm.toNat % 32)
    r.1.setV d r.2
  | .expw => c.setV d (redundant 56 (c.wr f.src.val) : Nat)
  | .paddi => { c with p := vset c.p (d % 8) (BitVec.ofInt 15 ((c.pr d : Int) + f.imm.toInt)) }
  | .setbs => { c with base := vset c.base (d % 8) (BitVec.ofInt 15 src) }
  | .setex => { c with ext := vset c.ext (d % 8) (BitVec.ofInt 17 src) }
  | .clrf => { c with av := c.av && !bitOf f.imm.toNat 0, sat := c.sat && !bitOf f.imm.toNat 1, eov := c.eov && !bitOf f.imm.toNat 2 }
  | .bexpr => { c.setV d (c.bx.toNat : Nat) with bx := 23 }
  | .ldw => { c with w := vset c.w (d % 4) (BitVec.ofInt 56 src) }

/-! ### M format (09 R291) -/

/-- The three words of an accumulator (09 R291, SAVW). -/
def accWords (x : BitVec 56) : List Int :=
  [(bits x.toNat 0 24 : Nat), (bits x.toNat 24 24 : Nat), toSigned 8 (bits x.toNat 48 8)]

/-- Words written through a pointer that each of them updates. -/
def putWords (c : Core) (inY : Bool) (p : Nat) (u : Upd) (l : List Int) : Core :=
  l.foldl (fun t x => update (t.put inY (t.pr p) x) p u) c

/-- `n` words read through a pointer that each of them updates. -/
def takeWords (inY : Bool) (p : Nat) (u : Upd) : Nat → Core → List Nat × Core
  | 0, c => ([], c)
  | n + 1, c =>
    let r := takeWords inY p u n (update c p u)
    (c.load inY (c.pr p) :: r.1, r.2)

/-- The operation of an M-format instruction. -/
def mOp (c : Core) (op : MOp) (f : MF) : Core :=
  let p := f.ptr.val
  let a := c.pr p
  let reg := f.reg.val
  match op with
  | .ld => update (c.setV reg (c.loadS f.inY a)) p f.upd
  | .st => update (c.put f.inY a (c.vr reg)) p f.upd
  | .stw =>
    let r := roundAcc c reg f.sh.val
    update (r.1.put f.inY a r.2) p f.upd
  | .ldw => update { c with w := vset c.w (reg % 4) (BitVec.ofInt 56 (c.loadS f.inY a)) } p f.upd
  | .savw => putWords c f.inY p f.upd (accWords (vget c.w (reg % 4) 0))
  | .rstw =>
    let r := takeWords f.inY p f.upd 3 c
    let v := r.1.getD 0 0 + r.1.getD 1 0 * 2 ^ 24 + r.1.getD 2 0 % 256 * 2 ^ 48
    { r.2 with w := vset r.2.w (reg % 4) (BitVec.ofNat 56 v) }

/-! ### Loops and branches (09 R286, R287) -/

/-- The address after another. -/
def nextAddr (pc : Nat) : Nat := (pc + 1) % 16384

/-- What follows the instruction at an address: the back edge of each loop that ends there, innermost first, or the next
address. -/
def loopEnd (pc : Nat) : List LoopFrame → List LoopFrame × Nat
  | [] => ([], nextAddr pc)
  | f :: t =>
    if f.last = pc then (if f.left > 1 then ({ f with left := f.left - 1 } :: t, f.first) else loopEnd pc t)
    else (f :: t, nextAddr pc)

/-- The loops that a taken branch leaves. -/
def popLoops (target : Nat) (l : List LoopFrame) : List LoopFrame :=
  l.dropWhile fun f => !(f.first ≤ target && target ≤ f.last)

/-- A C-format instruction stands at the end of the innermost loop (09 R286). -/
def endsLoop (c : Core) (i : GInstr) : Bool :=
  match c.loops.head? with
  | some f => i.isC && (f.last == c.pc.toNat || (i.size == 2 && f.last == nextAddr c.pc.toNat))
  | none => false

/-- Move on after an instruction that is no C-format one. -/
def advance (c : Core) : Core :=
  let r := loopEnd c.pc.toNat c.loops
  { c with loops := r.1, pc := BitVec.ofNat 14 r.2 }

/-- Move on after a C-format instruction of `n` words. -/
def skip (c : Core) (n : Nat) : Core := { c with pc := c.pc + BitVec.ofNat 14 n }

/-- The condition of a branch (09 R291). -/
def taken (c : Core) (op : BOp) : Bool :=
  match op with
  | .bra | .call | .ret => true
  | .beq => c.z
  | .bne => !c.z
  | .blt => c.n
  | .bge => !c.n

/-! ### Hazards and cycles (09 R289) -/

/-- The hazard numbers of K registers follow those of the pointers, whose P, BASE and EXT count as one. -/
def stepHazard (p : Nat) : Nat := 8 + p

/-- What an access through a pointer generates its address with: P, BASE and EXT, and K where it steps by K (09 R280, R289). -/
def addrUses (p : Nat) (u : Upd) : List Nat := if u = .step then [p, stepHazard p] else [p]

/-- What an instruction generates addresses with. -/
def addrPtrs : GInstr → List Nat
  | .p _ f => match f.x with
    | .none => []
    | .load x y _ => (x.toList ++ y.toList).flatMap fun s => addrUses s.1.val s.2
    | .store _ p u _ => addrUses p.val u
  | .m _ f => addrUses f.ptr.val f.upd
  | .emit f => addrUses f.ptr.val .inc
  | _ => []

/-- The accumulators that a RND, EXPW, STW or SAVW reads. -/
def accReads : GInstr → List Nat
  | .r .rnd f | .r .expw f => [f.src.val % 4]
  | .m .stw f | .m .savw f => [f.reg.val % 4]
  | _ => []

/-- The accumulators that a P-format operation writes. -/
def accWrites : GInstr → List Nat
  | .p op f => match op with
    | .nop | .tst => []
    | .dmac | .cmach | .cmacl | .cmacjl => [f.a.val, other f.a.val]
    | .bfly => [f.a.val, f.n.val % 4]
    | _ => [f.a.val]
  | _ => []

/-- A conditional branch. -/
def conditional : GInstr → Bool
  | .branch .beq _ | .branch .bne _ | .branch .blt _ | .branch .bge _ => true
  | _ => false

/-- The P, K, BASE or EXT that a MOV, PADDI, SETBS or SETEX writes, by hazard number. -/
def ptrWrites : GInstr → List Nat
  | .r .mov f =>
    if 8 ≤ f.dst.val ∧ f.dst.val < 16 then [f.dst.val % 8]
    else if 16 ≤ f.dst.val ∧ f.dst.val < 24 then [stepHazard (f.dst.val % 8)] else []
  | .r .paddi f | .r .setbs f | .r .setex f => [f.dst.val % 8]
  | _ => []

/-- An operation of the ALU, which sets Z and N (log 48). -/
def POp.alu (op : POp) : Bool := op.code ≥ 0x10

/-- An instruction that sets Z or N. -/
def znWrites : GInstr → Bool
  | .p op _ => op.alu
  | .r .mov f | .r .ldi f => f.dst.val == 24
  | .ldil d _ => d.val == 24
  | _ => false

/-- The stall cycles of an instruction. -/
def stallOf (h : Hazards) (i : GInstr) : Nat :=
  let ptr := if (addrPtrs i).any h.ptr1.contains then 2 else if (addrPtrs i).any h.ptr2.contains then 1 else 0
  let acc := if (accReads i).any h.accs.contains then 1 else 0
  let zn := if conditional i && h.zn then 1 else 0
  max ptr (max acc zn)

/-- The hazards that an instruction leaves. -/
def hazardsAfter (h : Hazards) (i : GInstr) : Hazards :=
  { ptr1 := ptrWrites i, ptr2 := h.ptr1, accs := accWrites i, zn := znWrites i }

/-- Cycles of an instruction besides stalls; those of EMIT and of a LOOPD with count 0 are added where they run. -/
def cyclesOf (c : Core) : GInstr → Nat
  | .branch op _ => if taken c op then 3 else 1
  | .loop _ _ => 2
  | .loopd _ _ => 2
  | .ldil _ _ => 2
  | .m .savw _ | .m .rstw _ => 3
  | _ => 1

/-- Cycles and stalls pass in RUNNING (09 R276, R303). -/
def spend (c : Core) (cycles stalls : Nat) : Core :=
  { c with cycles := c.cycles + BitVec.ofNat 64 (cycles + stalls), stalls := c.stalls + BitVec.ofNat 32 stalls,
           timer := c.timer + BitVec.ofNat 24 (cycles + stalls) }

/-! ### Memory reads that ECC checks (09 R277, R300) -/

/-- The instruction reads X; it reads Y. -/
def readsMem (inY : Bool) : GInstr → Bool
  | .p _ f => match f.x with
    | .load x y _ => if inY then y.isSome else x.isSome
    | _ => false
  | .m op f => f.inY == inY && (op == .ld || op == .ldw || op == .rstw)
  | .emit f => f.inY == inY
  | _ => false

end Sys2Proof.Machine
end

