-- ==== Sys2Proof/Machine/Trig.lean ====
section
/-! DEFINITION. The cosine and sine tables of the Frieze and the Chisel, computed in integers (07 R204, 08 R240). -/

namespace Sys2Proof.Machine

/-- π / 2 times 2^96, rounded down. -/
def halfPi96 : Nat := 124451306656115542615260972311

/-- The cosine series in fixed point with 96 fraction bits: `term` is the k-th term for the square `x2` of the argument. -/
def cosSeries (x2 : Nat) : Nat → Nat → Int → Int
  | 0, _, _ => 0
  | fuel + 1, k, term =>
    term + cosSeries x2 fuel (k + 1) (-(term * x2 / 2 ^ 96 / ((2 * k + 1) * (2 * k + 2) : Nat)))

/-- `amp` times the cosine of r / q of a quarter turn, rounded to the nearest integer. -/
def cosQuarter (amp r q : Nat) : Int :=
  let x := halfPi96 * r / q
  roundHE (amp * cosSeries (x * x / 2 ^ 96) 24 0 (2 ^ 96 : Nat)) (2 ^ 96)

/-- round(amp · cos(2π θ / n)) for n a multiple of 4. -/
def cosTable (amp n theta : Nat) : Int :=
  let q := n / 4
  let t := theta % n
  let r := t % q
  if t / q = 0 then cosQuarter amp r q
  else if t / q = 1 then -cosQuarter amp (q - r) q
  else if t / q = 2 then -cosQuarter amp r q
  else cosQuarter amp (q - r) q

/-- round(amp · sin(2π θ / n)) for n a multiple of 4. -/
def sinTable (amp n theta : Nat) : Int := cosTable amp n (theta + 3 * (n / 4))

end Sys2Proof.Machine
end

