-- ==== Sys2Proof/Machine/Frieze.lean ====
section
/-! DEFINITION. The Frieze beamformer: weights, delays, gains, beam sums, imports and BEAM records (07). -/

namespace Sys2Proof.Machine

/-! ### Geometry -/

/-- T_r. -/
def FzProd.tr (p : FzProd) : Nat := 2 ^ p.log2T

/-- n_p, 1 outside P32 (07 R226). -/
def FzProd.np (p : FzProd) : Nat := if p.format = 2 then 2 ^ p.log2Np else 1

/-- Granules G_r of a record (07 R226). -/
def FzProd.gr (p : FzProd) : Nat := max 1 (p.tr / 256)

/-- Bytes z of a sample (07 R226). -/
def beamWidth (format : Nat) : Nat := if format = 0 then 2 else if format = 3 then 10 else 4

/-- The length of a BEAM record (07 R226). -/
def beamLen (p : FzProd) : Nat :=
  64 + roundUp (16 + 4 * p.chCount * p.gr + beamWidth p.format * p.chCount * p.tr / p.np) 8

/-- The inputs of a product. -/
def fzInputs (s : State) (p : FzProd) : List Nat := mapEntries s p.map

/-- The pages of all products. -/
def pagesUsed (s : State) : List Nat := s.frieze.prods.flatMap FzProd.pages

/-- The `n` lowest free pages of 16 delay entries (07 R206). -/
def freePages (s : State) (n : Nat) : List Nat :=
  let used := pagesUsed s
  ((List.range (delayLimit s / 16)).filter fun p => !used.contains p).take n

/-- The index in the delay store of an entry (07 R206). -/
def entryIndex (p : FzProd) (n b i : Nat) : Nat := (p.pages.getD (b * (n / 16) + i / 16) 0) * 16 + i % 16

/-- The entries of a bank; bank A is the one bank of single-bank mode. -/
def bankEntries (s : State) (bankB : Bool) : List (Nat × Nat) := if bankB then s.frieze.entriesB else s.frieze.entriesA

/-- Write entries into a bank. -/
def putEntries (s : State) (bankB : Bool) (es : List (Nat × Nat)) : State :=
  let l := es.foldl (fun t e => wordPut e.1 e.2 t) (bankEntries s bankB)
  if bankB then { s with frieze := { s.frieze with entriesB := l } } else { s with frieze := { s.frieze with entriesA := l } }

/-- The entries of a run of beams from `first` on, as 8-byte words (07 R206, R208). -/
def beamEntries (p : FzProd) (n first : Nat) (words : List Nat) : List (Nat × Nat) :=
  (enumFrom0 words).map fun x => (entryIndex p n (first + x.1 / n) (x.1 % n), x.2)

/-- The 8-byte words of a byte string. -/
def words8 (bs : List Byte) (n : Nat) : List Nat := (List.range n).map fun i => field bs (8 * i) 8

/-! ### Weights (07 R203 to R205) -/

/-- A part of a weight limited to ±16,383, and whether it was. -/
def limitWeight (v : Int) : Int × Bool := clampAbs v 16383

/-- Δ clamped, and whether it was at its limit (07 R207). -/
def clampDelta (d : Int) : Int × Bool :=
  let lim : Nat := 2 ^ 52 - 1
  ((clampAbs d lim).1, decide (d.natAbs ≥ lim))

/-- The phase index θ of an entry, at Δ, in a channel slot. -/
def phaseIndex (entry : Nat) (delta : Int) (slot : Nat) : Nat :=
  let tau0 := toSigned 36 entry
  let rate := toSigned 28 (entry / 2 ^ 36)
  let tau := tau0 + roundHE (rate * delta) (2 ^ 48)
  let fc := Config.channelPhase slot % 2 ^ 56
  let q := (tau * (fc : Nat) % (2 ^ 64 : Nat)).toNat
  let phi := q / 2 ^ 32
  (phi + 2 ^ 17) / 2 ^ 18 % 2 ^ 14

/-- A weight from its gain and phase index, and how many of its parts saturated (07 R203). -/
def weight (g : Int × Int) (theta : Nat) : (Int × Int) × Nat :=
  let pre := cosTable 16383 16384 theta
  let pim := -sinTable 16383 16384 theta
  let re := limitWeight (roundHE (g.1 * pre - g.2 * pim) 16384)
  let im := limitWeight (roundHE (g.1 * pim + g.2 * pre) 16384)
  ((re.1, im.1), b2n re.2 + b2n im.2)

/-! ### Gains (07 R213 to R215) -/

/-- The granules by which gains are read ahead: one, or as many as 16 µs take (07 R213). -/
def gainLead (s : State) : Nat := max 1 (ceilDiv (16 * s.intake.num) (s.intake.den * 1000000 * 256))

/-- The gain area from which a granule's gains are read (07 R214). -/
def gainArea (p : FzProd) (g : Nat) : Nat :=
  match p.gainChange with
  | some c => if c.boundary ≤ 256 * g then c.area else p.area
  | none => p.area

/-- The gains of a granule as read from an area: none where a word was poisoned. -/
def readGains (s : State) (area n : Nat) : List (Option (Int × Int)) :=
  (List.range n).map fun k =>
    let a := area + 4 * k
    if poisoned s a (a + 4) then none
    else some (toSigned 16 (ofLe (s.load a 2)), toSigned 16 (ofLe (s.load (a + 2) 2)))

/-- One granule's gains are read; poison raises one error (07 R215). -/
def fetchGains (s : State) (pid g : Nat) : State :=
  match s.fzProd pid with
  | none => s
  | some p =>
    if p.gains.any fun x => x.1 == g then s
    else
      let l := readGains s (gainArea p g) ((fzInputs s p).length * p.chCount)
      let bad := (l.filter Option.isNone).length
      let s1 := s.setFzProd { p with gains := p.gains ++ [(g, l)] }
      let shown := (enumFrom0 p.emit).find? fun x => x.2
      let hit : Affects := match shown with
        | some b => .beam b.1 (256 * g / p.tr)
        | none => .nothing
      if bad = 0 then s1 else raiseProduct s1 0x0503 pid bad hit

/-- The gains of granules before granule g are given up. -/
def dropGains (s : State) (pid g : Nat) : State :=
  match s.fzProd pid with
  | some p => s.setFzProd { p with gains := p.gains.filter fun x => x.1 ≥ g }
  | none => s

/-- Gains are read ahead of granule g, and those of granules before it are given up. -/
def readAhead (s : State) (pid g : Nat) : State :=
  dropGains ((span g (g + gainLead s + 1)).foldl (fun t k => fetchGains t pid k) s) pid g

/-! ### Sums (07 R216, R217, R224) -/

/-- The entry that a beam uses for a row: that of the swap buffer while a swap of the beam is in progress, else of its
pages (07 R210). -/
def entryFor (s : State) (p : FzProd) (n b i t : Nat) : Nat :=
  let page := wordGet (entryIndex p n b i) (bankEntries s (s.frieze.bankB && !s.frieze.single))
  match s.frieze.swap with
  | some x => if x.pid = p.pid ∧ x.beam = b ∧ x.row ≤ t then ((x.entries[i]?).getD 0).toNat else page
  | none => page

/-- Δ of a row for the active bank, and whether it is at its limit. -/
def rowDelta (s : State) (t : Nat) : Int × Bool :=
  let tRef := if s.frieze.bankB && !s.frieze.single then s.frieze.tRefB else s.frieze.tRefA
  clampDelta ((s.timeAt t : Int) - tRef)

/-- What one input adds to a beam's sum in one channel: the sum, the count and the saturated weight parts. -/
def inputTerm (s : State) (p : FzProd) (r : SettledRow) (gains : List (Option (Int × Int))) (n b c i inp : Nat) :
    (Int × Int) × Nat × Nat :=
  let slot := p.chBase + c
  match p.badDelays.contains (b, i), gains.getD (c * n + i) none with
  | false, some g =>
    let w := weight g (phaseIndex (entryFor s p n b i r.counter) (rowDelta s r.counter).1 slot)
    if pairValid s r inp slot then
      let x := readSample s r inp slot
      ((w.1.1 * x.1 - w.1.2 * x.2, w.1.1 * x.2 + w.1.2 * x.1), 1, w.2)
    else ((0, 0), 0, w.2)
  | _, _ => ((0, 0), 0, 0)

/-- The die sum of a beam in one channel of a row, and the saturated weight parts. -/
def dieSum (s : State) (p : FzProd) (r : SettledRow) (gains : List (Option (Int × Int))) (inputs : List (Nat × Nat))
    (b c : Nat) (bad : Bool) : BSample × Nat :=
  let n := inputs.length
  inputs.foldl (fun a x =>
    let t := inputTerm s p r gains n b c x.1 x.2
    let k := a.1.count + t.2.1
    ({ a.1 with re := a.1.re + t.1.1, im := a.1.im + t.1.2, count := k, short := decide (k < n) }, a.2 + t.2.2))
    ({ re := 0, im := 0, count := 0, short := decide (0 < n), bad := bad }, 0)

/-- The mismatches of a row: (product, beam, channel, slice). -/
abbrev Residue := Nat × Nat × Nat × Nat

/-- The residue mismatches that hit a beam and channel. -/
def residueHits (l : List Residue) (pid b c : Nat) : Nat :=
  (l.filter fun x => x.1 == pid && x.2.1 == b && x.2.2.1 == c).length

/-- The row of one beam before any import, and the saturated weight parts. -/
def beamRow (s : State) (p : FzProd) (r : SettledRow) (res : List Residue) (changed : Bool) (b : Nat) : BeamRow × Nat :=
  let gains := ((p.gains.find? fun x => x.1 == r.counter / 256).map Prod.snd).getD []
  let inputs := enumFrom0 (fzInputs s p)
  let sums := (List.range p.chCount).map fun c => dieSum s p r gains inputs b c (residueHits res p.pid b c > 0)
  let sat := sumNat (sums.map Prod.snd)
  let hits := sumNat ((List.range p.chCount).map fun c => residueHits res p.pid b c)
  ({ counter := r.counter, chans := sums.map Prod.fst,
     marks := { weightSat := sat > 0, expired := (rowDelta s r.counter).2, changed := changed,
                gainChanged := p.gainEdges.contains r.counter, importLate := false,
                bank := s.frieze.bankB && !s.frieze.single, residue := hits, verified := true } }, sat)

/-! ### BEAM records (07 R222 to R228) -/

/-- The shift of a beam for the record that starts at `start` (07 R222). -/
def beamShift (p : FzProd) (b start : Nat) : Nat :=
  (p.newShifts.filter fun x => x.1 == b && x.2.1 ≤ start).foldl (fun _ x => x.2.2) (p.shifts.getD b 0)

/-- A beam sample is written as the flag code (07 R224). -/
def flaggedSample (x : BSample) : Bool := x.count == 0 || x.bad

/-- A requantized part (07 R222). -/
def requantBeam (v : Int) (sh lim : Nat) : Int × Bool := clampAbs (roundHE v (2 ^ sh)) lim

/-- The bytes of one sample of B8, B16 or PSUM, and its saturated parts (07 R222, R224). -/
def sampleOut (format sh : Nat) (x : BSample) : List Byte × Nat :=
  if format = 3 then (leInt 5 x.re ++ leInt 5 x.im, 0)
  else
    let w := if format = 0 then 1 else 2
    let lim := if format = 0 then 127 else 32767
    if flaggedSample x then (leInt w (-(lim : Nat) - 1) ++ leInt w (-(lim : Nat) - 1), 0)
    else
      let a := requantBeam x.re sh lim
      let b := requantBeam x.im sh lim
      (leInt w a.1 ++ leInt w b.1, b2n a.2 + b2n b.2)

/-- The bytes of one P32 sample (07 R223, R224). -/
def powerOut (sh : Nat) (xs : List BSample) : List Byte × Nat :=
  if xs.all flaggedSample then (leBytes 4 0xFFFFFFFF, 0)
  else
    let p := sumNat (xs.map fun x => if flaggedSample x then 0 else (x.re * x.re + x.im * x.im).toNat)
    let v := (roundHE p (2 ^ sh)).toNat
    if v > 0xFFFFFFFE then (leBytes 4 0xFFFFFFFE, 1) else (leBytes 4 v, 0)

/-- A sample for which no row exists: count 0 (18 R518). -/
def noSample : BSample := { re := 0, im := 0, count := 0, short := true, bad := false }

/-- The sample of a channel in a row of a record, by offset. -/
def rowSample (rows : List BeamRow) (t c : Nat) : BSample :=
  match rows.find? fun r => r.counter == t with
  | some r => (r.chans[c]?).getD noSample
  | none => noSample

/-- The sample block and its saturated parts (07 R226). -/
def sampleBlock (p : FzProd) (rows : List BeamRow) (start sh : Nat) : List Byte × Nat :=
  let m := p.tr / p.np
  let one (c k : Nat) : List Byte × Nat :=
    if p.format = 2 then powerOut sh ((List.range p.np).map fun j => rowSample rows (start + k * p.np + j) c)
    else sampleOut p.format sh (rowSample rows (start + k) c)
  let cells := if p.tf then (List.range m).flatMap fun k => (List.range p.chCount).map fun c => one c k
    else (List.range p.chCount).flatMap fun c => (List.range m).map fun k => one c k
  (cells.flatMap Prod.fst, sumNat (cells.map Prod.snd))

/-- The count of a channel in a granule of a record: the least of its rows, because an input whose delay entry fails is
excluded from the count of the whole granule (07 R212, R224); 0 where the record has no row of it. -/
def granuleCount (rows : List BeamRow) (lo hi c : Nat) : Nat :=
  match (rows.filter fun r => lo ≤ r.counter && r.counter < hi).map fun r => ((r.chans[c]?).getD noSample).count with
  | [] => 0
  | k :: t => t.foldl min k

/-- The rows of a record with each sample's count that of its granule. -/
def levelCounts (rows : List BeamRow) : List BeamRow :=
  rows.map fun r =>
    let lo := r.counter / 256 * 256
    { r with chans := (enumFrom0 r.chans).map fun x => { x.2 with count := granuleCount rows lo (lo + 256) x.1 } }

/-- Some sample of a record is a flag code (07 R224): in P32 one whose n_p samples are all flagged, in PSUM none. -/
def anyFlagCode (p : FzProd) (rows : List BeamRow) (start : Nat) : Bool :=
  p.format != 3 && (List.range p.chCount).any fun c => (List.range (p.tr / p.np)).any fun k =>
    (List.range p.np).all fun j => flaggedSample (rowSample rows (start + k * p.np + j) c)

/-- The count block in [channel][granule] order (07 R226). -/
def countBlock (p : FzProd) (rows : List BeamRow) (start : Nat) : List Nat :=
  let len := p.tr / p.gr
  (List.range p.chCount).flatMap fun c => (List.range p.gr).map fun g =>
    granuleCount rows (start + g * len) (start + (g + 1) * len) c

/-- The auxiliary field (07 R225). -/
def beamAux (p : FzProd) (b start : Nat) : Nat :=
  p.beamBase + b + p.format * 2 ^ 8 + b2n p.tf * 2 ^ 10 + b2n (p.tr < 256) * 2 ^ 11 + start / p.tr % 2 ^ 32 * 2 ^ 32

/-- The 16-byte descriptor (07 R226). -/
def beamDescriptor (p : FzProd) (rows : List BeamRow) (start sh req : Nat) : List Byte :=
  let any (f : RowMarks → Bool) : Nat := b2n (rows.any fun r => f r.marks)
  let later := rows.any fun r => r.marks.changed && r.counter != start
  let bank := match rows.head? with
    | some r => r.marks.bank
    | none => false
  leBytes 2 p.chBase ++ leBytes 2 p.chCount ++ leBytes 4 p.np ++ leBytes 1 (if p.format = 3 then 0 else sh) ++
    leBytes 1 (any RowMarks.expired + 2 * b2n later + 4 * any RowMarks.gainChanged + 8 * any RowMarks.importLate + 16 * b2n bank) ++
    leBytes 2 (min (sumNat (rows.map fun r => r.marks.residue)) 65535) ++ leBytes 4 (min req 4294967295)

/-- The BEAM record of a beam over one record interval (07 R225 to R227, 18 R518). -/
def beamRecord (s : State) (p : FzProd) (b start : Nat) (rows0 : List BeamRow) : RecOut × Nat :=
  let rows := levelCounts rows0
  let sh := beamShift p b start
  let blk := sampleBlock p rows start sh
  let counts := countBlock p rows start
  let short := rows.length < p.tr
  let lost := short || anyFlagCode p rows start || rows.any fun r => r.chans.any fun x => x.short
  let sat := blk.2 > 0 || rows.any fun r => r.marks.weightSat
  let body := beamDescriptor p rows start sh blk.2 ++ counts.flatMap (leBytes 4) ++ blk.1
  ({ rtype := 0x03,
     flags := (if rows.all fun r => r.marks.residue == 0 && r.marks.verified then flagVerified else 0) +
       (if short then flagPartial else 0) + (if containsTakeover s start p.tr then flagTakeover else 0) +
       (if sat then flagSaturated else 0) + (if lost then flagFlagged else 0),
     start := start, span := p.tr, time := s.timeAt start, aux := beamAux p b start,
     payload := body ++ zeros (roundUp body.length 8 - body.length) }, blk.2)

/-- A swap of a product that has gone. -/
def orphanSwap (pid : Nat) (x : DelaySwap) : DelaySwap := if x.pid = pid then { x with pid := 4096 } else x

/-- The areas, pages and beams of a product are freed with it; its gains are read no more, so the follow entry of a change
of area is due (07 R214). -/
def dropFrieze (s : State) (pid : Nat) : State :=
  let s1 := { s with frieze := { s.frieze with prods := s.frieze.prods.filter (fun p => p.pid != pid),
                                               swap := s.frieze.swap.map (orphanSwap pid),
                                               swaps := s.frieze.swaps.map (orphanSwap pid) } }
  let s2 := freeAllocs s1 fun k => k == .gain pid || k == .namedGain pid
  let s3 := match (s.fzProd pid).bind FzProd.gainChange with
    | some c => followEntry s2 c.src 0x0408 0 0 0
    | none => s2
  productStopped (s3.delProduct pid) pid

/-- A product that has emitted every record before its stop boundary is suspended, with a GAP record, or released (07 R228,
R232). -/
def friezeStops (s : State) (pid : Nat) : State :=
  match s.fzProd pid with
  | none => s
  | some p =>
    match p.stop with
    | some (b, rel) =>
      if p.nextRec * p.tr < b || p.nextBeam != 0 then s
      else if rel then dropFrieze s pid
      else
        let s0 := match s.product pid with
          | some x => s.setProduct pid (owedAnyway x fun _ => true)
          | none => s
        let s1 := s0.setFzProd { p with stop := none, asm := p.asm.map fun _ => [], badDelays := [] }
        productStopped (suspendProduct (gapSuspended s1 pid 0x03 b (s1.timeAt b)) pid) pid
    | none => s

/-- The next record in index and beam order leaves, if its last row has been summed (07 R228). -/
def emitBeam (s : State) (pid : Nat) : State :=
  match s.fzProd pid with
  | none => s
  | some p =>
    let b := p.nextBeam
    let start := p.nextRec * p.tr
    let rows := p.asm.getD b []
    if !(rows.any fun r => r.counter + 1 == start + p.tr) then s
    else
      let mine := rows.filter fun r => r.counter < start + p.tr
      let out := beamRecord s p b start mine
      let rest := p.asm.set b (rows.filter fun r => r.counter ≥ start + p.tr)
      let wrap := b + 1 = p.beams
      let p1 := { p with asm := rest, nextBeam := if wrap then 0 else b + 1, nextRec := if wrap then p.nextRec + 1 else p.nextRec }
      let s1 := s.setFzProd p1
      let s2 := { s1 with frieze := { s1.frieze with requantSat := s1.frieze.requantSat + BitVec.ofNat 32 out.2 } }
      let key := some (b, p.nextRec)
      if p.emit.getD b false then
        let s3 := emitKeyed s2 pid key out.1
        { s3 with frieze := { s3.frieze with beamRecords := s3.frieze.beamRecords + 1 } }
      else match s2.product pid with
        | some x => s2.setProduct pid (owedAnyway x fun k => k == key)
        | none => s2

/-- Every record that is complete leaves. -/
def emitBeams (s : State) (pid : Nat) : State :=
  match s.fzProd pid with
  | none => s
  | some p => friezeStops ((List.range (p.beams * 2)).foldl (fun t _ => emitBeam t pid) s) pid

/-! ### Rows go on: to chains, records and imports (07 R218 to R221, R224) -/

/-- The chains that take a beam receive its row (07 R224, 08 R234). -/
def feedChains (s : State) (beam : Nat) (r : BeamRow) : State :=
  { s with chisel := { s.chisel with chains := s.chisel.chains.map fun c =>
      if c.state == .run && c.beam == beam then { c with inbox := c.inbox ++ [r] } else c } }

/-- A finished row of a beam joins its record. -/
def passRow (s : State) (pid b : Nat) (r : BeamRow) : State :=
  match s.fzProd pid with
  | none => s
  | some p =>
    feedChains (s.setFzProd { p with asm := p.asm.set b (p.asm.getD b [] ++ [r]) }) (p.beamBase + b) r

/-- A die sum with its partial added (07 R216, R221). -/
def addPartial (r : BeamRow) (x : ImpRow) : BeamRow :=
  let chans := (enumFrom0 r.chans).map fun a =>
    let y := (x.chans[a.1]?).getD noSample
    { a.2 with re := a.2.re + y.re, im := a.2.im + y.im, count := a.2.count + y.count, short := a.2.short || y.short }
  { r with chans := chans, marks := { r.marks with verified := r.marks.verified && x.verified } }

/-- A die sum that goes on without its partial (07 R220). -/
def lateRow (r : BeamRow) : BeamRow :=
  { r with chans := r.chans.map fun x => { x with short := true },
           marks := { r.marks with importLate := true, verified := false } }

/-- A row of a beam: out at once, or held for its partial sum (07 R218, R220). A MIDDLE or TAIL product without a binding
has no partial to wait for (log 38). -/
def offerRow (s : State) (pid b : Nat) (r : BeamRow) : State :=
  match s.fzProd pid with
  | none => s
  | some p =>
    if p.role < 2 then passRow s pid b r
    else
      match p.imp with
      | none => passRow s pid b (lateRow r)
      | some im =>
        match im.arrived.find? fun x => x.counter == r.counter && x.beam == b with
        | some x => passRow (s.setFzProd { p with imp := some { im with arrived := im.arrived.filter (· != x) } }) pid b (addPartial r x)
        | none => s.setFzProd { p with imp := some { im with waiting := im.waiting ++ [(s.now, b, r)] } }

/-- Die sums that have waited longer than W_imp go on alone (07 R220). -/
def execImportWindowExpiry (pid : Nat) (s : State) : Host.Outcome State Fault Refusal :=
  .next (match gated s, s.fzProd pid with
    | false, some p =>
      match p.imp with
      | none => s
      | some im =>
        let late (w : Nat × Nat × BeamRow) : Bool := decide (s.now ≥ w.1 + im.window * (100 * nanos))
        let due := im.waiting.filter late
        let s1 := s.setFzProd { p with imp := some { im with waiting := im.waiting.filter fun w => !late w } }
        let s2 := due.foldl (fun t w => passRow t pid w.2.1 (lateRow w.2.2)) s1
        emitBeams { s2 with frieze := { s2.frieze with importLate := s2.frieze.importLate + BitVec.ofNat 32 due.length } } pid
    | _, _ => s)

/-- A PSUM record that matches a binding (07 R219): its source, remote product and beam, channels, record length and CRC. -/
def psumMatches (group : Nat) (serial : U32) (rec : List Byte) (p : FzProd) : Bool :=
  match p.imp with
  | none => false
  | some im =>
    let desc := rec.drop 64
    im.group == group && im.serial == serial && im.remote == bits (field rec 4 2) 0 12 && field rec 48 1 < p.beams &&
      bits (field rec 48 2) 8 2 == 3 && field desc 0 2 == p.chBase && field desc 2 2 == p.chCount && field rec 40 4 == p.tr

/-- The CRC of a record holds (05 R160). -/
def recordCrcOk (rec : List Byte) : Bool :=
  let len := field rec 44 4
  rec.length == 64 + len && field rec 56 4 == (crc32c (slice rec 0 56 ++ zeros 8 ++ rec.drop 64)).toNat

/-- The samples of one row of a PSUM record. The imported full count is not known here: the samples of a record that
carries FLAGGED count as short of it (log 39). -/
def psumRow (p : FzProd) (rec : List Byte) (k : Nat) : ImpRow :=
  let start := field rec 32 8
  let flags := field rec 2 2
  let body := rec.drop (64 + 16)
  let samples := body.drop (4 * p.chCount * p.gr)
  let tf := bitOf (field rec 48 2) 10
  let one (c : Nat) : BSample :=
    let idx := if tf then k * p.chCount + c else c * p.tr + k
    { re := toSigned 40 (field samples (10 * idx) 5), im := toSigned 40 (field samples (10 * idx + 5) 5),
      count := field body (4 * (c * p.gr + k / (p.tr / p.gr))) 4, short := bitOf flags 5, bad := false }
  { counter := start + k, beam := field rec 48 1, chans := (List.range p.chCount).map one, verified := bitOf flags 0 }

/-- A partial sum meets its waiting die sum, waits for one not yet formed, or is too late (07 R220). -/
def takePartial (s : State) (pid : Nat) (x : ImpRow) : State :=
  match s.fzProd pid with
  | none => s
  | some p =>
    match p.imp with
    | none => s
    | some im =>
      match takeFirst (fun (w : Nat × Nat × BeamRow) => w.2.1 == x.beam && w.2.2.counter == x.counter) im.waiting with
      | some (w, rest) =>
        passRow (s.setFzProd { p with imp := some { im with waiting := rest } }) pid x.beam (addPartial w.2.2 x)
      | none =>
        let formed : Bool := match s.intake.settled.head? with
          | some r => decide (x.counter < r.counter)
          | none => match s.intake.released.head? with
            | some r => decide (x.counter < r.counter)
            | none => decide (x.counter < s.intake.front)
        if formed then s else s.setFzProd { p with imp := some { im with arrived := im.arrived ++ [x] } }

/-- An imported record is matched to its binding, or discarded and counted (07 R219). -/
def execPsumRecordRx (group : Nat) (serial : U32) (record : List Byte) (s : State) : Host.Outcome State Fault Refusal :=
  .next (
    if gated s then s
    else match recordCrcOk record, s.frieze.prods.find? (psumMatches group serial record) with
      | true, some p =>
        emitBeams ((List.range p.tr).foldl (fun t k => takePartial t p.pid (psumRow p record k)) s) p.pid
      | _, _ => { s with frieze := { s.frieze with importMismatch := s.frieze.importMismatch + 1 } })

/-! ### A row (07 R199 to R217) -/

/-- The inactive bank becomes active (07 R209). -/
def switchBank (s : State) (w : BankSwitch) : State :=
  let f := s.frieze
  let toB := !f.bankB
  { s with frieze := { f with bankB := toB, tRefA := (if toB then f.tRefA else w.tRef), tRefB := (if toB then w.tRef else f.tRefB),
                              switch := none, expiryTold := false,
                              prods := f.prods.map fun p => { p with loaded := false } } }

/-- The bank switch takes effect before the first row at or after its counter. -/
def dueSwitch (s : State) (t : Nat) : State :=
  match s.frieze.switch with
  | some w => if w.counter ≤ t then switchBank s w else s
  | none => s

/-- The Frieze uses a clamped Δ: EXPIRED, and one error per bank and switch (07 R207). -/
def noteExpiry (s : State) (t : Nat) : State :=
  if !(rowDelta s t).2 then s
  else
    let s1 := { s with frieze := { s.frieze with expired := true } }
    if s.frieze.expiryTold then s1
    else raiseDev { s1 with frieze := { s1.frieze with expiryTold := true } } 0x0501 .c (b2n (s.frieze.bankB && !s.frieze.single)) 0

/-- One residue mismatch of a slice (07 R217). -/
def noteResidue (s : State) (j : Nat) : State :=
  let f := s.frieze
  let s1 := { s with frieze := { f with residueFail := f.residueFail + 1, residueSeen := true,
                                        sliceResidue := vset f.sliceResidue j (vget f.sliceResidue j 0 + 1) } }
  let due := match vget f.residueTime j none with
    | some t => decide (s.now ≥ t + second)
    | none => true
  if due then raiseDev { s1 with frieze := { s1.frieze with residueTime := vset s1.frieze.residueTime j (some s.now) } } 0x0504 .l j 0
  else s1

/-- Uncorrectable delay entries of a product in this granule: from now on each contributes nothing (07 R212). -/
def noteDelays (s : State) (pid : Nat) (bad : List (Nat × Nat)) (fresh : Bool) (j : Nat) : State :=
  match s.fzProd pid with
  | none => s
  | some p =>
    let old := if fresh then [] else p.badDelays
    let new := bad.filter fun x => !old.contains x
    let s1 := s.setFzProd { p with badDelays := old ++ new }
    new.foldl (fun t x =>
      raiseProduct { t with frieze := { t.frieze with delayEcc := t.frieze.delayEcc + 1 } } 0x0502 pid 1
        (if p.emit.getD x.1 false then .beam x.1 j else .nothing)) s1

/-- A product takes a row. -/
def fzTakes (s : State) (p : FzProd) (t : Nat) : Bool :=
  p.start ≤ t && (match p.stop with
    | some (b, _) => t < b
    | none => true) && (match s.product p.pid with
    | some x => !x.suspended
    | none => false)

/-- The sums of one row go to the beams of a product, its gains at hand. -/
def sumRow (s : State) (pid : Nat) (r : SettledRow) (res : List Residue) (switched : Bool) : State :=
  match s.fzProd pid with
  | none => s
  | some p =>
    let swapped (b : Nat) : Bool := match s.frieze.swap with
      | some x => x.pid == pid && x.beam == b && x.row == r.counter
      | none => false
    let rows := (List.range p.beams).map fun b => (b, beamRow s p r res (switched || swapped b) b)
    let sat := sumNat (rows.map fun x => x.2.2)
    let s1 := { s with frieze := { s.frieze with weightSat := s.frieze.weightSat + BitVec.ofNat 32 sat } }
    let s2 := s1.setFzProd { p with gainEdges := p.gainEdges.filter (· > r.counter) }
    emitBeams (rows.foldl (fun u x => offerRow u pid x.1 x.2.1) s2) pid

/-- One product forms its sums of a row. -/
def prodRow (s : State) (pid : Nat) (r : SettledRow) (bad : List (Nat × Nat × Nat)) (res : List Residue) (switched : Bool) : State :=
  match s.fzProd pid with
  | none => s
  | some p0 =>
    if !fzTakes s p0 r.counter then friezeStops s pid
    else
      let t := r.counter
      let s1 := noteDelays s pid ((bad.filter fun x => x.1 == pid).map fun x => x.2) (t % 256 == 0 || t == p0.start) (t / p0.tr)
      sumRow (readAhead s1 pid (t / 256)) pid r res switched

/-- With no settled row waiting: the next row the Frieze will take, where it has been released, else the last one released. -/
def rowAwaited (s : State) : Nat := ((s.intake.released.head?).map RelRow.counter).getD (s.intake.front - 1)

/-- The Frieze takes the next released row and forms the sums of every product (07 R201). With no row waiting, a switch
takes effect whose counter comes no later than the next row. -/
def execFriezeRowProcess (badDelays : List (Nat × Nat × Nat)) (residues : List (Nat × Nat × Nat × Nat)) (s : State) :
    Host.Outcome State Fault Refusal :=
  .next (
    if gated s then s
    else match s.intake.settled with
      | [] => dueSwitch s (rowAwaited s)
      | r :: rest =>
        let s1 := dueSwitch { s with intake := { s.intake with settled := rest } } r.counter
        let switched := s.frieze.switch.isSome && s1.frieze.switch.isNone
        let s2 := if s1.frieze.prods.any fun p => fzTakes s1 p r.counter then noteExpiry s1 r.counter else s1
        let hits := residues.filter fun x => s2.frieze.prods.any fun p =>
          p.pid == x.1 && fzTakes s2 p r.counter && x.2.1 < p.beams && x.2.2.1 < p.chCount
        let s3 := hits.foldl (fun t x => noteResidue t x.2.2.2) s2
        (s3.frieze.prods.map FzProd.pid).foldl (fun t pid => prodRow t pid r badDelays residues switched) s3)

/-! ### Swaps and gain areas (07 R210, R214) -/

/-- Rows released before the swap's first row still wait for the Frieze. -/
def rowsBefore (s : State) (row : Nat) : Bool :=
  (s.intake.settled.any fun r => r.counter < row) || s.intake.released.any fun r => r.counter < row

/-- A swap starts: the beam reads the swap buffer from the first row released from now on (07 R210). -/
def startSwap (s : State) (x : DelaySwap) : State :=
  { s with frieze := { s.frieze with swap := some { x with row := s.intake.front } } }

/-- A Clause that waits for its swap learns the first row (07 R210, 11 R351). -/
def tellSwap (s : State) (x : DelaySwap) : State :=
  let q := s.qp x.src.fn x.src.qp.val
  let note (w : Waiting) : Waiting := if w.seq = x.src.seq then { w with args := w.args ++ [s.intake.front] } else w
  s.setQp x.src.fn x.src.qp.val { q with waiting := q.waiting.map note }

/-- The copy of the swap buffer into the beam's pages ends; a swap that waits begins (07 R210). -/
def execDelaySwapCopyDone (s : State) : Host.Outcome State Fault Refusal :=
  .next (match gated s, s.frieze.swap with
    | false, some x =>
      if rowsBefore s x.row then s
      else
        let s1 := match s.fzProd x.pid with
          | some p => putEntries s false (beamEntries p (fzInputs s p).length x.beam (x.entries.map BitVec.toNat))
          | none => s
        let s2 := { s1 with frieze := { s1.frieze with swap := none } }
        match s2.frieze.swaps with
        | y :: rest => tellSwap (startSwap { s2 with frieze := { s2.frieze with swaps := rest } } y) y
        | [] => s2
    | _, _ => s)

/-- The Frieze reads the old gain area no more: the follow entry is due (07 R214). -/
def execGainAreaReleased (pid : Nat) (s : State) : Host.Outcome State Fault Refusal :=
  .next (match s.fzProd pid with
    | some p =>
      match p.gainChange with
      | some c =>
        let idle : Bool := (s.product pid).any Product.suspended && decide (c.boundary ≤ s.intake.front)
        if idle || p.gains.any fun x => x.1 ≥ c.boundary / 256 then
          let keep (a : Alloc) : Bool := a.kind != .namedGain pid || a.base == c.area
          let s1 := { s with hbm := { s.hbm with allocs := s.hbm.allocs.filter keep } }
          followEntry (s1.setFzProd { p with area := c.area, gainChange := none }) c.src 0x0408 0 0 0
        else s
      | none => s
    | none => s)

end Sys2Proof.Machine
end

