-- ==== Sys2Proof/Machine/Beam.lean ====
section
/-! DEFINITION. The BEAM Clauses (07 R200 to R232). -/

namespace Sys2Proof.Machine

/-! ### BEAM_DEFINE (07 R200, R206, R213, R218, R225, R228) -/

/-- Emitted records per second of a product. -/
def beamRate (s : State) (p : FzProd) : Rat := (p.emit.countP id : Nat) * slotRate s / (p.tr : Nat)

/-- The demand of a Frieze product over N inputs (01 R21). -/
def beamDemand (s : State) (p : FzProd) (n : Nat) (route : U32) : Demand :=
  { Demand.zero with
    frieze := (p.beams * n * p.chCount : Nat) * slotRate s,
    delay := p.beams * n, beams := p.beams,
    bytes := beamRate s p * (beamLen p : Nat), route := route, records := beamRate s p,
    uses := [(fzInputs s p, p.chBase, p.chCount)] }

/-- Some beam of the product belongs to another product (07 R200). -/
def beamsTaken (s : State) (p : FzProd) : Bool :=
  s.frieze.prods.any fun x => p.beamBase < x.beamBase + x.beams && x.beamBase < p.beamBase + p.beams

/-- The beams of a product belong to a world (16 R454). -/
def beamsOf (s : State) (w : World) (p : FzProd) : Bool :=
  (span p.beamBase (p.beamBase + p.beams)).all fun b => vget s.world.beams b .secure == w

/-- The pairs of inputs and slots of a Frieze product. -/
def fzPairs (s : State) (p : FzProd) : List (Nat × Nat) :=
  (span p.chBase (p.chBase + p.chCount)).flatMap fun slot => (fzInputs s p).map fun i => (i, slot)

/-- The EMIT mask of B beams from its 32 bytes, beam b at bit b. -/
def emitMask (beams : Nat) (mask : Nat) : List Bool := (List.range beams).map fun b => bitOf mask b

/-- The parameters of a definition in range (07 R200, R222, R223, R225): role, format, order; beams; record length;
integration; shifts. -/
def beamParams (p : FzProd) (flags n sh shP : Nat) : Except Reply Unit := do
  refuseIf (n % 16 != 0 || n < 16 || n > 8192) stBadParam 10
  refuseIf (flags ≥ 32 || (p.format == 3) != (p.role == 1 || p.role == 2)) stBadParam 11
  refuseIf (p.chBase ≥ 1024) stBadParam 12
  refuseIf (p.chCount == 0 || p.chBase + p.chCount > 1024) stBadParam 14
  refuseIf (p.beams == 0 || p.beams > 256) stBadParam 16
  refuseIf (p.beamBase + p.beams > 256) stBadParam 18
  refuseIf (p.log2T > 16) stBadParam 19
  refuseIf (p.format == 2 && p.log2Np > p.log2T) stBadParam 20
  refuseIf (sh > 39) stBadParam 21
  refuseIf (shP > 63) stBadParam 22

/-- The bank that a product which has not started loads: the active one. -/
def activeBank (s : State) : Bool := s.frieze.bankB && !s.frieze.single

/-- BEAM_DEFINE. `p0` carries the fields of the Clause. -/
def beamDefine (s : State) (f : Fn) (p0 : FzProd) (handle flags sh shP : Nat) (route : U32) (buf : HBuf) (data : HRead) :
    Result := do
  let w := worldOf f
  admitGate s
  refuseIf (!domainUp s 5) stBusy 8
  refuseIf (!pidFree s p0.pid) stBadParam 8
  let m ← namedMap s handle 10
  let n := m.entries.length
  beamParams p0 flags n sh shP
  refuseIf (beamsTaken s p0) stBadParam 18
  routeParams s f route (beamLen p0) 24
  refuseIf (p0.format == 3 && !routeHasEgress route) stBadParam 24
  let ss := pairStreams s (fzPairs s p0)
  refuseIf (ss.any Option.isNone) stBadParam 12
  let need := 32 + 8 * p0.beams * n + 4 * p0.chCount * n
  if buf.len.toNat != need then badLength need buf.len.toNat
  else
    let bs ← readBuf buf data
    refuseIf (m.world != w) stWorldDenied 10
    streamWorld ss w 12
    refuseIf (!beamsOf s w p0) stWorldDenied 18
    routeWorld s w route 24
    let p1 := { p0 with emit := emitMask p0.beams (field bs 0 32) }
    let prod := newProduct p1.pid .beam w f route (beamDemand s p1 n route) (beamLen p1)
    ratesFirst s (s.setProduct p1.pid prod) w
    let r ← place s w (.gain p0.pid) (4 * n * p0.chCount)
    let start := roundUp (s.counterIn 50000) (max p0.tr 256)
    let p := { p1 with ownArea := r.2, area := r.2,
                       pages := freePages s (p0.beams * n / 16), start := start, nextRec := start / p0.tr }
    let s1 := r.1.setProduct p.pid prod
    let s2 := { s1 with frieze := { s1.frieze with prods := s1.frieze.prods ++ [p] } }
    admission s s2 w
    let s3 := putEntries s2 (activeBank s2) (beamEntries p n 0 (words8 (bs.drop 32) (p.beams * n)))
    let s4 := s3.store p.area ((bs.drop (32 + 8 * p.beams * n)).take (4 * n * p.chCount))
    deferred s4 1 start

/-- The fields of BEAM_DEFINE as a product. -/
def beamFields (pid handle flags chBase chCount beams beamBase log2T log2Np sh shP : Nat) : FzProd :=
  let format := bits flags 2 2
  { pid := pid, map := handle, chBase := chBase, chCount := chCount, beams := beams, beamBase := beamBase, format := format,
    log2T := log2T, log2Np := log2Np, tf := bitOf flags 4, shifts := List.replicate beams (if format = 2 then shP else sh),
    newShifts := [], emit := [], role := bits flags 0 2, ownArea := 0, area := 0, gainChange := none, gains := [],
    gainEdges := [], pages := [], loaded := false, start := 0, stop := none, badDelays := [], imp := none,
    asm := List.replicate beams [], nextRec := 0, nextBeam := 0 }

def execBeamDefine (src : Src) (pid : U16) (handle flags : U8) (chBase chCount beams : U16)
    (beamBase log2T log2Np sh shP : U8) (route : U32) (buf : HBuf) (data : HRead) (s : State) :
    Host.Outcome State Fault Refusal :=
  runClause (.beamDefine src pid handle flags chBase chCount beams beamBase log2T log2Np sh shP route buf data) s fun s =>
    beamDefine s src.fn
      (beamFields pid.toNat handle.toNat flags.toNat chBase.toNat chCount.toNat beams.toNat beamBase.toNat log2T.toNat
        log2Np.toNat sh.toNat shP.toNat)
      handle.toNat flags.toNat sh.toNat shP.toNat route buf data

/-! ### Lifecycle (07 R228, R232) -/

/-- The Frieze product a Clause names, of whichever world. -/
def findBeam (s : State) (pid : Nat) : Except Reply (Product × FzProd) := do
  let p ← findProduct s pid [.beam] 8
  let x ← orRefuse (s.fzProd pid) stBadParam 8
  return (p, x)

/-- The Frieze product a Clause names, of the Clause's world. -/
def namedBeam (s : State) (f : Fn) (pid : Nat) : Except Reply (Product × FzProd) := do
  let x ← findBeam s pid
  ownWorld x.1 f 8
  return x

/-- A chain that is defined takes a beam of the product (08 R234). -/
def beamChained (s : State) (p : FzProd) : Bool :=
  s.chisel.chains.toList.any fun c => c.state != .undefined && p.beamBase ≤ c.beam && c.beam < p.beamBase + p.beams

/-- The next record boundary of a product. -/
def nextRecordBoundary (s : State) (p : FzProd) : Nat := roundUp (max s.intake.front p.start) p.tr

/-- A product stops at its next record boundary; gives the boundary. -/
def stopBeam (s : State) (p : FzProd) (releasing : Bool) : State × Nat :=
  let b := nextRecordBoundary s p
  (friezeStops (s.setFzProd { p with stop := some (b, releasing) }) p.pid, b)

/-- BEAM_RELEASE: BUSY while a chain takes one of its beams; a suspended product goes at once (log 35). -/
def beamRelease (s : State) (f : Fn) (pid : Nat) : Result := do
  let x ← namedBeam s f pid
  refuseIf (beamChained s x.2 || x.2.stop.isSome) stBusy 8
  if x.1.suspended then deferred (dropFrieze s pid) 1 s.intake.front
  else
    let r := stopBeam s x.2 true
    deferred r.1 1 r.2

def execBeamRelease (src : Src) (pid : U16) (s : State) : Host.Outcome State Fault Refusal :=
  runClause (.beamRelease src pid) s fun s => beamRelease s src.fn pid.toNat

/-- BEAM_SUSPEND. -/
def beamSuspend (s : State) (f : Fn) (pid : Nat) : Result := do
  let x ← namedBeam s f pid
  refuseIf (x.2.stop.isSome || x.1.suspended) stBusy 8
  let r := stopBeam s x.2 false
  deferred r.1 1 r.2

def execBeamSuspend (src : Src) (pid : U16) (s : State) : Host.Outcome State Fault Refusal :=
  runClause (.beamSuspend src pid) s fun s => beamSuspend s src.fn pid.toNat

/-- BEAM_RESUME, an admitting Clause. -/
def beamResume (s : State) (f : Fn) (pid : Nat) : Result := do
  admitGate s
  let x ← findBeam s pid
  refuseIf (!x.1.suspended) stBadParam 8
  let ss := pairStreams s (fzPairs s x.2)
  refuseIf (ss.any Option.isNone) stBadParam 8
  ownWorld x.1 f 8
  streamWorld ss (worldOf f) 8
  let b := roundUp s.intake.front x.2.tr
  let p := { x.2 with start := b, stop := none, nextRec := b / x.2.tr, nextBeam := 0 }
  let s1 := (s.setFzProd p).setProduct pid { x.1 with suspended := false }
  admission s s1 (worldOf f)
  deferred s1 1 b

/-! ### Delays (07 R208 to R211) -/

/-- A product has taken its first row. -/
def beamStarted (s : State) (p : FzProd) : Bool := decide (p.start < s.intake.front)

/-- BEAM_DELAY_LOAD (07 R208). The one bank of single-bank mode is active, so a product that runs cannot load it. The Clause waits
until every entry is written (11 R351). -/
def delayLoad (s : State) (f : Fn) (pid first count : Nat) (buf : HBuf) (data : HRead) : Result := do
  let x ← namedBeam s f pid
  let p := x.2
  let n := (fzInputs s p).length
  refuseIf (s.frieze.single && beamStarted s p && !x.1.suspended) stBadParam 8
  refuseIf (first ≥ p.beams) stBadParam 10
  refuseIf (count == 0 || first + count > p.beams) stBadParam 12
  refuseIf s.frieze.switch.isSome stBusy 8
  let need := 8 * count * n
  if buf.len.toNat != need then badLength need buf.len.toNat
  else
    let bs ← readBuf buf data
    let es := beamEntries p n first (words8 bs (count * n))
    if s.frieze.single || !beamStarted s p then waits (putEntries s (activeBank s) es) [pid]
    else waits (putEntries (s.setFzProd { p with loaded := true }) (!s.frieze.bankB) es) [pid]

def execBeamDelayLoad (src : Src) (pid first count : U16) (buf : HBuf) (data : HRead) (s : State) :
    Host.Outcome State Fault Refusal :=
  runClause (.beamDelayLoad src pid first count buf data) s fun s => delayLoad s src.fn pid.toNat first.toNat count.toNat buf data

/-- A Frieze product that runs has had no entries loaded into the inactive bank since the last switch (07 R209). -/
def unloaded (s : State) : Bool :=
  s.frieze.prods.any fun p => !p.loaded && (s.product p.pid).any fun x => !x.suspended

/-- BEAM_DELAY_SWITCH (07 R209). The switch comes no earlier than the next row to be released. -/
def delaySwitch (s : State) (time tRef : U96) : Result := do
  refuseIf s.frieze.single stBadParam 8
  refuseIf (!timeOk time) stBadParam 8
  refuseIf (!timeOk tRef) stBadParam 20
  refuseIf (!s.intake.epochSet || timeOf time < s.now + 50 * micros) stBadParam 8
  refuseIf (unloaded s) stBadParam 8
  refuseIf s.frieze.switch.isSome stBusy 8
  let t := max (s.counterAt (timeOf time)) s.intake.front
  let w : BankSwitch := { time := timeOf time, tRef := timeOf tRef, counter := t }
  deferred { s with frieze := { s.frieze with switch := some w, switchCtr := BitVec.ofNat 64 t } } 1 t

def execBeamDelaySwitch (src : Src) (time tRef : U96) (s : State) : Host.Outcome State Fault Refusal :=
  runClause (.beamDelaySwitch src time tRef) s fun s => delaySwitch s time tRef

/-- BEAM_DELAY_SWAP (07 R210): a swap that finds a copy in progress waits for its end. -/
def delaySwap (s : State) (src : Src) (pid beam : Nat) (buf : HBuf) (data : HRead) : Result := do
  let x ← namedBeam s src.fn pid
  refuseIf (!s.frieze.single) stBadParam 8
  refuseIf (beam ≥ x.2.beams) stBadParam 10
  let n := (fzInputs s x.2).length
  if buf.len.toNat != 8 * n then badLength (8 * n) buf.len.toNat
  else
    let bs ← readBuf buf data
    let y : DelaySwap := { pid := pid, beam := beam, entries := (words8 bs n).map (BitVec.ofNat 64), row := 0, src := src }
    if s.frieze.swap.isNone then deferred (startSwap s y) 1 s.intake.front
    else waits { s with frieze := { s.frieze with swaps := s.frieze.swaps ++ [y] } } [pid, beam]

def execBeamDelaySwap (src : Src) (pid beam : U16) (buf : HBuf) (data : HRead) (s : State) :
    Host.Outcome State Fault Refusal :=
  runClause (.beamDelaySwap src pid beam buf data) s fun s => delaySwap s src pid.toNat beam.toNat buf data

/-- BEAM_DELAY_MODE (07 R211): BUSY while any Frieze product is defined; the store is cleared. -/
def delayMode (s : State) (mode : Nat) : Result := do
  refuseIf (mode > 1) stBadParam 8
  refuseIf (!s.frieze.prods.isEmpty) stBusy 8
  done { s with frieze := { s.frieze with single := mode == 1, bankB := false, switch := none, entriesA := [], entriesB := [],
                                          tRefA := 0, tRefB := 0, expiryTold := false } }

def execBeamDelayMode (src : Src) (mode : U8) (s : State) : Host.Outcome State Fault Refusal :=
  runClause (.beamDelayMode src mode) s fun s => delayMode s mode.toNat

/-! ### Gains, scale, route, imports (07 R214, R219, R220, R222) -/

/-- In a protected pair the contents of an area go to the same address of the standby (07 R214). -/
def copyArea (s : State) (area len : Nat) : State :=
  if reserving s then (sendMsg s 4 (leBytes 8 area ++ memGetBytes s.hbm.mem area len)).1 else s

/-- BEAM_SET_GAINS (07 R214). Gains already read ahead for granules from the boundary on are read again from the new area. -/
def beamSetGains (s : State) (src : Src) (pid which area boundary : Nat) : Result := do
  let x ← namedBeam s src.fn pid
  let p := x.2
  let len := 4 * (fzInputs s p).length * p.chCount
  refuseIf (which > 1) stBadParam 10
  let first := roundUp (s.counterIn 20000) 256
  refuseIf (boundary != 0 && (boundary % 256 != 0 || boundary < first)) stBadParam 24
  if which = 1 then
    refuseIf (!inWorld s (worldOf src.fn) area len) stWorldDenied 16
    tileCheck s area len 16
  refuseIf (p.gainChange.isSome || (which == 0 && p.area == p.ownArea)) stBusy 8
  let b := if boundary = 0 then first else boundary
  let dst := if which = 0 then p.ownArea else area
  let c : GainChange := { area := dst, boundary := b, src := src }
  let s1 := s.setFzProd { p with gainChange := some c, gainEdges := p.gainEdges ++ [b],
                                 gains := p.gains.filter fun g => g.1 < b / 256 }
  let s2 := if which = 0 then s1
    else addAlloc s1 { kind := .namedGain pid, base := area, size := len, world := worldOf src.fn }
  .ok (copyArea s2 dst len, { Reply.mk' stDeferred 1 b 0 0 with followDue := true })

def execBeamSetGains (src : Src) (pid : U16) (which : U8) (area boundary : U64) (s : State) :
    Host.Outcome State Fault Refusal :=
  runClause (.beamSetGains src pid which area boundary) s fun s => beamSetGains s src pid.toNat which.toNat area.toNat boundary.toNat

/-- BEAM_SET_SCALE: the shifts of a run of beams, from their next record boundary (07 R222, R223, R232). -/
def beamSetScale (s : State) (f : Fn) (pid first count sh shP : Nat) : Result := do
  let x ← namedBeam s f pid
  let p := x.2
  refuseIf (first ≥ p.beams) stBadParam 10
  refuseIf (count == 0 || first + count > p.beams) stBadParam 12
  refuseIf (sh > 39) stBadParam 14
  refuseIf (shP > 63) stBadParam 15
  let b := nextRecordBoundary s p
  let new := (span first (first + count)).map fun k => (k, b, if p.format = 2 then shP else sh)
  deferred (s.setFzProd { p with newShifts := p.newShifts ++ new }) 1 b

def execBeamSetScale (src : Src) (pid first count : U16) (sh shP : U8) (s : State) : Host.Outcome State Fault Refusal :=
  runClause (.beamSetScale src pid first count sh shP) s fun s => beamSetScale s src.fn pid.toNat first.toNat count.toNat sh.toNat shP.toNat

/-- BEAM_SET_ROUTE: the routing entry and the EMIT mask, from the next record on (05 R170, 07 R232). -/
def beamSetRoute (s : State) (f : Fn) (pid : Nat) (route : U32) (mask : Nat) : Result := do
  let x ← findBeam s pid
  let p := { x.2 with emit := emitMask x.2.beams mask }
  refuseIf (p.format == 3 && !routeHasEgress route) stBadParam 12
  routeParams s f route x.1.maxRecord 12
  ownWorld x.1 f 8
  routeWorld s x.1.world route 12
  let d := beamDemand s p (fzInputs s p).length route
  let prod := { reserveDemand x.1 d (2 ^ 64 + x.1.seq) with routeChange := some { fromSeq := x.1.seq, route := route } }
  let s1 := (s.setFzProd p).setProduct pid prod
  admission s (replaced s1 pid) (worldOf f)
  deferred s1 3 x.1.seq

def execBeamSetRoute (src : Src) (pid : U16) (route : U32) (mask : BitVec 256) (s : State) :
    Host.Outcome State Fault Refusal :=
  runClause (.beamSetRoute src pid route mask) s fun s => beamSetRoute s src.fn pid.toNat route mask.toNat

/-- Import bindings in use (07 R231). -/
def importCount (s : State) : Nat := s.frieze.prods.countP fun p => p.imp.isSome

/-- BEAM_IMPORT_BIND (07 R219, R220). -/
def importBind (s : State) (f : Fn) (pid first : Nat) (serial : U32) (remote window : Nat) : Result := do
  let x ← namedBeam s f pid
  let p := x.2
  refuseIf (p.role < 2 || (p.imp.isNone && importCount s ≥ 8)) stBadParam 8
  let g ← orRefuse (s.osl.rxGroups.find? fun g => g.first == first) stBadParam 10
  refuseIf (remote > 4095) stBadParam 16
  let need : Rat := (window * p.beams * p.chCount : Nat) * slotRate s / 1000000
  refuseIf (window == 0 || window > 1000 || need > 8388608) stBadParam 18
  refuseIf (g.world != worldOf f) stWorldDenied 10
  done (s.setFzProd { p with imp := some { group := first, serial := serial, remote := remote, window := window,
                                           waiting := (p.imp.map Import.waiting).getD [], arrived := [] } })

def execBeamImportBind (src : Src) (pid : U16) (first : U8) (serial : U32) (remote window : U16) (s : State) :
    Host.Outcome State Fault Refusal :=
  runClause (.beamImportBind src pid first serial remote window) s fun s => importBind s src.fn pid.toNat first.toNat serial remote.toNat window.toNat

/-- What BEAM_QUERY reports (07 R232). -/
def beamReport (s : State) (f : Fn) : Report :=
  .beams ((s.frieze.prods.filter fun p => seenBy f (s.worldOfProduct p.pid)).map fun p =>
    { pid := p.pid, beams := p.beams, beamBase := p.beamBase, role := p.role, pages := p.pages, area := p.area,
      own := allocOf s (.gain p.pid), record := beamLen p,
      demand := ((s.product p.pid).map fun x => most (demandsOf x) Demand.frieze).getD 0 })

def execBeamQuery (src : Src) (buf : HBuf) (s : State) : Host.Outcome State Fault Refusal :=
  runClause (.beamQuery src buf) s fun s => answerReport s src buf (beamReport s src.fn)

end Sys2Proof.Machine
end

