-- ==== Sys2Proof/Machine/Chain.lean ====
section
/-! DEFINITION. The stages of a zoom chain: input, stitch, mixer, half-bands, FIR and alignment, and the time of an output
index (08 R234 to R248). -/

namespace Sys2Proof.Machine

/-! ### Rates and referred time (08 R235, R247, R248) -/

/-- M. -/
def Chain.m (c : Chain) : Nat := 2 ^ c.log2M

/-- The decimation R_d. -/
def Chain.rd (c : Chain) : Nat := 2 ^ c.halfBands * c.decim

/-- T_z. -/
def Chain.tz (c : Chain) : Nat := 2 ^ c.log2Tz

/-- The bank in use. -/
def Chain.bank (c : Chain) : FirBank := if c.active then c.bankB else c.bankA

/-- The bank not in use. -/
def Chain.idleBank (c : Chain) : FirBank := if c.active then c.bankA else c.bankB

/-- Output samples per second. -/
def outRate (s : State) (c : Chain) : Rat := (c.m : Nat) * slotRate s / (c.rd : Nat)

/-- 2 G of a chain with a FIR bank and an alignment (08 R247). -/
def groupDelay2 (c : Chain) (bank : FirBank) (a : Nat) : Nat :=
  (if c.log2M = 0 then 0 else 16 * c.m - 1) + 30 * (2 ^ c.halfBands - 1) + bank.delay * 2 ^ c.halfBands + 2 * a * c.rd

/-- The settings of a chain. -/
def chainSettings (c : Chain) : ChainSettings :=
  { zoom := c.zoom, event := c.event, capture := c.capture, beam := c.beam, log2M := c.log2M, slot0 := c.slot0,
    proto := c.proto, tune := c.tune, halfBands := c.halfBands, decim := c.decim, bankA := c.bankA, bankB := c.bankB,
    active := c.active, align := c.align, log2Tz := c.log2Tz, detect := c.detect, pre := c.pre, post := c.post }

/-- CHAIN_LATENCY: a bound in 24 bits that the spec gives no figure for, a free value (08 R270, log 10). -/
def chainLatency (c : Chain) : Nat := Config.chainLatency (chainSettings c) % 2 ^ 24

/-- The alignment settings at an output index (08 R246). -/
def alignAt (c : Chain) (n : Nat) : Align :=
  match c.nextAlign with
  | some (b, a) => if n ≥ b then a else c.align
  | none => c.align

/-- The FIR bank that a switch has come to at an output index (08 R245). -/
def bankAt (c : Chain) (n : Nat) : FirBank :=
  match c.switch with
  | some w => if n ≥ w.at_ + w.fade then c.idleBank else c.bank
  | none => c.bank

/-- The output indices still ahead at which G2 or EXT_DELAY changes, in order. -/
def refChanges (c : Chain) : List Nat :=
  let a := c.nextAlign.map Prod.fst
  let w := c.switch.map fun w => w.at_ + w.fade
  match a, w with
  | some x, some y => [min x y, max x y]
  | some x, none => [x]
  | none, some y => [y]
  | none, none => []

/-- G2 and EXT_DELAY in effect at an output index, with the changes still ahead. -/
def refAt (c : Chain) (n : Int) : Nat × Int :=
  if (refChanges c).any fun b => (b : Int) ≤ n then
    (groupDelay2 c (bankAt c n.toNat) (alignAt c n.toNat).a, (alignAt c n.toNat).extDelay)
  else match c.refHist.find? fun x => (x.1 : Int) ≤ n with
  | some x => x.2
  | none => match c.refHist.getLast? with
    | some x => x.2
    | none => (groupDelay2 c c.bank c.align.a, c.align.extDelay)

/-- The referred time of an output index under a G2 and EXT_DELAY, in units of 2^-16 ns: computed exactly and rounded once
(08 R248). -/
def refTimeBy (s : State) (c : Chain) (r : Nat × Int) (n : Int) : Int :=
  let y := 2 * c.m * s.intake.num
  roundHE (((s.intake.t0 : Int) - r.2) * (y : Nat) + (2 * n * (c.rd : Nat) - (r.1 : Nat)) * (s.intake.den * second : Nat)) y

/-- The referred time of an output index (08 R248). -/
def refTime (s : State) (c : Chain) (n : Int) : Int := refTimeBy s c (refAt c n) n

/-- The first output index at or after row `t` (08 R248). -/
def firstOut (c : Chain) (t : Nat) : Nat := ceilDiv (t * c.m) c.rd

/-- The row whose stitch samples give output index `n`. -/
def rowOf (c : Chain) (n : Nat) : Nat := n * c.rd / c.m

/-! ### Samples and stages (08 R235, R237) -/

/-- A sample of the zero history (08 R268). -/
def silent : CSample := { re := 0, im := 0, taint := true, sat := false, unchecked := false }

/-- The three bits of a list of samples, united. -/
def marksOf (l : List CSample) : Bool × Bool × Bool :=
  (l.any CSample.taint, l.any CSample.sat, l.any CSample.unchecked)

/-- What a stage leaves behind: the limiting events and the residue mismatches. -/
structure Tally where
  sats : Nat
  fails : Nat
  deriving DecidableEq, Repr

/-- No events. -/
def Tally.none : Tally := { sats := 0, fails := 0 }

/-- Two tallies together. -/
def Tally.add (a b : Tally) : Tally := { sats := a.sats + b.sats, fails := a.fails + b.fails }

/-- The end of a stage: the exact parts already shifted are limited; a residue mismatch gives 0 with TAINT and UNCHECKED (08
R235, R237). -/
def finish (re im : Int) (m : Bool × Bool × Bool) (bad : Bool) : CSample × Tally :=
  if bad then ({ re := 0, im := 0, taint := true, sat := m.2.1, unchecked := true }, { sats := 0, fails := 1 })
  else
    let a := clampAbs re 8388607
    let b := clampAbs im 8388607
    ({ re := a.1, im := b.1, taint := m.1, sat := m.2.1 || a.2 || b.2, unchecked := m.2.2 },
      { sats := b2n a.2 + b2n b.2, fails := 0 })

/-- A stage that shifts its exact sums. -/
def narrow (re im : Int) (sh : Nat) (m : Bool × Bool × Bool) (bad : Bool) : CSample × Tally :=
  finish (roundHE re (2 ^ sh)) (roundHE im (2 ^ sh)) m bad

/-- C18 and S18 (08 R240). -/
def c18 (theta : Nat) : Int := cosTable 131071 65536 theta
def s18 (theta : Nat) : Int := sinTable 131071 65536 theta

/-- The input stage (08 R234). -/
def chainInput (shIn : Nat) (x : BSample) : CSample × Tally :=
  if x.bad then ({ silent with unchecked := true }, .none)
  else narrow x.re x.im shIn (x.short, false, false) false

/-! ### Stitch and mixer (08 R238, R241) -/

/-- Branch m of the stitch in one row. -/
def stitchBranch (mm sh m : Nat) (xs : List CSample) : CSample × Tally :=
  let z := (enumFrom0 xs).foldl (fun (a : Int × Int) x =>
    let ang : Int := (2 * (x.1 : Int) - mm + 1) * m * ((32768 / mm : Nat) : Int)
    let theta := (ang % 65536).toNat
    (a.1 + x.2.re * c18 theta - x.2.im * s18 theta, a.2 + x.2.re * s18 theta + x.2.im * c18 theta)) (0, 0)
  narrow z.1 z.2 sh (marksOf xs) false

/-- The prototype applied to 16 rows of a branch, newest first. -/
def stitchOut (mm sh m t : Nat) (h : List Int) (hist : List CSample) (bad : Bool) : CSample × Tally :=
  let w := (List.range 16).map fun l => (hist[l]?).getD silent
  let y := (enumFrom0 w).foldl (fun (a : Int × Int) x =>
    let k := h.getD (x.1 * mm + m) 0
    (a.1 + k * x.2.re, a.2 + k * x.2.im)) (0, 0)
  let r := narrow y.1 y.2 sh (marksOf w) bad
  if t % 2 = 1 then ({ r.1 with re := -r.1.re, im := -r.1.im }, r.2) else r

/-- The mixer at stitch index n. -/
def mix (u : Tune) (n : Nat) (x : CSample) (bad : Bool) : CSample × Tally :=
  let phi := (u.phase0 + n * u.ftw) % 2 ^ 48
  let theta := (phi + 2 ^ 31) / 2 ^ 32 % 2 ^ 16
  narrow (x.re * c18 theta + x.im * s18 theta) (x.im * c18 theta - x.re * s18 theta) u.shNco
    (x.taint, x.sat, x.unchecked) bad

/-! ### Half-bands (08 R242) -/

/-- The coefficient at an offset from the centre. -/
def hbCoef (off : Nat) : Int :=
  match off with
  | 0 => 65536
  | 1 => 41695
  | 3 => -13304
  | 5 => 7235
  | 7 => -4430
  | 9 => 2766
  | 11 => -1652
  | 13 => 904
  | 15 => -446
  | _ => 0

/-- One half-band output from its 31 inputs, newest first. -/
def halfBand (sh : Nat) (hist : List CSample) (bad : Bool) : CSample × Tally :=
  let w := (List.range 31).map fun l => (hist[l]?).getD silent
  let y := (enumFrom0 w).foldl (fun (a : Int × Int) x =>
    let k := hbCoef (if x.1 ≥ 15 then x.1 - 15 else 15 - x.1)
    (a.1 + k * x.2.re, a.2 + k * x.2.im)) (0, 0)
  narrow y.1 y.2 sh (marksOf w) bad

/-- The stages numbered in a residue mismatch: 0 stitch, 1 mixer, 2 to 7 half-bands 1 to 6, 8 FIR, 9 alignment; the index
is that of the stage's output. -/
abbrev Fails := List (Nat × Nat)

/-- A sample through the half-bands that are left: their histories, the index at the first one's input, and the sample. Gives
the histories, and the sample and its index when every stage kept it. -/
def halfBands (fails : Fails) (u : Tune) : Nat → List (List CSample) → Nat → CSample →
    List (List CSample) × Option (Nat × CSample) × Tally
  | _, [], n, x => ([], some (n, x), .none)
  | h, hist :: rest, n, x =>
    let hist1 := (x :: hist).take 31
    if n % 2 = 1 then (hist1 :: rest, none, .none)
    else
      let y := halfBand (u.shH.getD h 0) hist1 (fails.contains (2 + h, n / 2))
      let r := halfBands fails u (h + 1) rest (n / 2) y.1
      (hist1 :: r.1, r.2.1, y.2.add r.2.2)

/-! ### FIR and alignment (08 R243 to R246) -/

/-- The exact sums of a bank, shifted and rounded. -/
def firSum (b : FirBank) (hist : List CSample) : Int × Int :=
  let y := (enumFrom0 b.coefs).foldl (fun (a : Int × Int) x =>
    let v := (hist[x.1]?).getD silent
    (a.1 + x.2 * v.re, a.2 + x.2 * v.im)) (0, 0)
  (roundHE y.1 (2 ^ b.sh), roundHE y.2 (2 ^ b.sh))

/-- The inputs in a bank's support. -/
def firWindow (b : FirBank) (hist : List CSample) : List CSample :=
  (List.range b.coefs.length).map fun l => (hist[l]?).getD silent

/-- The FIR output at index n, with a switch and its cross-fade. -/
def firOut (c : Chain) (n : Nat) (hist : List CSample) (bad : Bool) : CSample × Tally :=
  let one (b : FirBank) : CSample × Tally :=
    let v := firSum b hist
    finish v.1 v.2 (marksOf (firWindow b hist)) bad
  match c.switch with
  | none => one c.bank
  | some w =>
    if n < w.at_ then one c.bank
    else if n ≥ w.at_ + w.fade then one c.idleBank
    else
      let k : Int := ((n - w.at_ : Nat) : Int)
      let x : Int := (w.fade : Nat)
      let a := firSum c.bank hist
      let b := firSum c.idleBank hist
      finish (roundHE ((x - k) * a.1 + k * b.1) w.fade) (roundHE ((x - k) * a.2 + k * b.2) w.fade)
        (marksOf (firWindow c.bank hist ++ firWindow c.idleBank hist)) bad

/-- The alignment stage: the delayed sample rotated (08 R246). -/
def alignOut (a : Align) (hist : List CSample) (bad : Bool) : CSample × Tally :=
  let x := (hist[a.a]?).getD silent
  let cc := c18 a.phase
  let ss := s18 a.phase
  narrow (x.re * cc - x.im * ss) (x.im * cc + x.re * ss) a.shAl (x.taint, x.sat, x.unchecked) bad

/-! ### One row (08 R234 to R246) -/

/-- The tune settings at a stitch index: a change at output index b holds from stitch index b · R_d on (log 40). -/
def tuneAt (c : Chain) (n : Nat) : Tune :=
  match c.nextTune with
  | some (b, u) => if n ≥ b * c.rd then u else c.tune
  | none => c.tune

/-- The output of a row: samples by output index, with the tally of the stages since the output before. -/
abbrev Outs := List (Nat × CSample × Tally)

/-- A stitch sample through the stages after the stitch. Gives the chain's histories and the output sample, if there is one. -/
def afterStitch (fails : Fails) (c : Chain) (n : Nat) (x : CSample) : Chain × Option (Nat × CSample) × Tally :=
  let u := tuneAt c n
  let y := mix u n x (fails.contains (1, n))
  let r := halfBands fails u 0 c.hbHist n y.1
  let c1 := { c with hbHist := r.1 }
  let t1 := y.2.add r.2.2
  match r.2.1 with
  | none => (c1, none, t1)
  | some (i, v) =>
    let fir := (v :: c.firHist).take 1024
    let c2 := { c1 with firHist := fir }
    if i % c.decim ≠ 0 then (c2, none, t1)
    else
      let k := i / c.decim
      let f := firOut c2 k fir (fails.contains (8, k))
      let al := (f.1 :: c.alHist).take 4096
      let o := alignOut (alignAt c2 k) al (fails.contains (9, k))
      ({ c2 with alHist := al }, some (k, o.1), (t1.add f.2).add o.2)

/-- The stitch outputs of a row: the branch histories and the samples in index order. -/
def stitchRow (fails : Fails) (c : Chain) (h : List Int) (t : Nat) (xs : List CSample) :
    List (List CSample) × List (CSample × Tally) :=
  let u := tuneAt c (t * c.m)
  if c.log2M = 0 then ([], xs.map fun x => (x, .none))
  else
    let parts := (List.range c.m).map fun m =>
      let z := stitchBranch c.m u.shS1 m xs
      let hist := (z.1 :: c.uhist.getD m []).take 16
      let y := stitchOut c.m u.shS2 m t h hist (fails.contains (0, t * c.m + m))
      (hist, (y.1, z.2.add y.2))
    (parts.map Prod.fst, parts.map Prod.snd)

/-- One row through every stage: the chain after it, its outputs, and the tally of the stages after the last of them. -/
def chainRow (fails : Fails) (c : Chain) (h : List Int) (t : Nat) (row : List BSample) : Chain × Outs × Tally :=
  let u := tuneAt c (t * c.m)
  let ins := row.map (chainInput u.shIn)
  let t0 := ins.foldl (fun a x => a.add x.2) Tally.none
  let st := stitchRow fails c h t (ins.map Prod.fst)
  (enumFrom0 st.2).foldl (fun (a : Chain × Outs × Tally) x =>
    let r := afterStitch fails a.1 (t * c.m + x.1) x.2.1
    let tally := (a.2.2.add x.2.2).add r.2.2
    match r.2.1 with
    | some (k, o) => (r.1, a.2.1 ++ [(k, o, tally)], .none)
    | none => (r.1, a.2.1, tally)) ({ c with uhist := st.1 }, [], t0)

/-- A chain whose filters start from zero history at a row; its next output index is `n` (08 R268, R269). -/
def restartChain (c : Chain) (row n : Nat) : Chain :=
  { c with row := row, first := n, nOut := n, uhist := [], hbHist := List.replicate c.halfBands [], firHist := [],
           alHist := [], inbox := [], interval := none, dueIntervals := [], asm := none,
           carried := 0 }

end Sys2Proof.Machine
end

