-- ==== Sys2Proof/Machine/Chisel.lean ====
section
/-! DEFINITION. Zoom chains at work: records, detection, events, captures, pulses, and the end of a chain (08 R249 to R268). -/

namespace Sys2Proof.Machine

/-! ### Records of a chain (08 R263 to R267) -/

/-- The sample word of a sample (08 R263). -/
def sampleWord (x : CSample) : List Byte :=
  leInt 3 x.re ++ leInt 3 x.im ++ leBytes 2 (b2n x.taint + 2 * b2n x.sat + 4 * b2n x.unchecked)

/-- The words of a payload after its 32-byte descriptor, by bit: TAINT 0, SAT 1, UNCHECKED 2. -/
def wordsWith (payload : List Byte) (k bit : Nat) : Nat :=
  (List.range k).countP fun i => bitOf (field payload (32 + 8 * i + 6) 2) bit

/-- The span of a chain record contains the takeover row, with samples before it (18 R518). -/
def chainTakeover (s : State) (c : Chain) (start : Int) (len : Nat) : Bool :=
  match s.pair.lastRow with
  | some r => start * (c.rd : Nat) < (r * c.m : Nat) && ((r * c.m : Nat) : Int) < (start + (len : Nat)) * (c.rd : Nat)
  | none => false

/-- A record of a chain: the header's time is the referred time of its start (08 R248). -/
def chainRecord (s : State) (c : Chain) (rtype flags : Nat) (start : Int) (span aux : Nat) (payload : List Byte) : RecOut :=
  { rtype := rtype, flags := flags + (if chainTakeover s c start span then flagTakeover else 0),
    start := (start % (2 ^ 64 : Nat)).toNat, span := span, time := (refTime s c start).toNat, aux := aux, payload := payload }

/-- The flags of a ZOOM or CAPTURE record (08 R267). -/
def wordFlags (payload : List Byte) (k : Nat) (partial_ : Bool) : Nat :=
  (if wordsWith payload k 2 = 0 then flagVerified else 0) + (if partial_ then flagPartial else 0) +
    (if wordsWith payload k 1 > 0 then flagSaturated else 0) + (if wordsWith payload k 0 > 0 then flagFlagged else 0)

/-- A record whose emit slot returned poison: its number goes to no destination, a GAP record names it, and an error is
raised (05 R153). -/
def emitPoisoned (s : State) (pid : Nat) (r : RecOut) : State :=
  let s1 := raiseProduct s 0x0402 pid 1 .next
  match s1.product pid with
  | none => s1
  | some x =>
    let s2 := flushErrors s1 pid none r.start r.span r.time
    let seq := ((s2.product pid).map Product.seq).getD x.seq
    let s3 := match s2.product pid with
      | some y => s2.setProduct pid { y with seq := seq + 1 }
      | none => s2
    emitGap s3 pid 3 r.rtype seq 1 r.start r.span r.time

/-- A record leaves its emit slot at `base`, or a GAP record takes its place (05 R152, R153). -/
def emitFromSlot (s : State) (pid base len : Nat) (r : RecOut) : State :=
  if poisoned s base (base + len) then emitPoisoned s pid r else emitRecord s pid r

/-- The payload bytes of a ZOOM record. -/
def zoomLen (c : Chain) : Nat := 32 + 8 * c.tz

/-- The payload bytes of a CAPTURE record. -/
def captureLen (c : Chain) : Nat := 32 + 8 * (c.pre + c.post)

/-- The slots of a chain lie in one area: two ZOOM slots, then two CAPTURE slots (05 R142; log 41). -/
def zoomSlotSize (c : Chain) : Nat := roundUp (64 + zoomLen c) granule
def captureSlotSize (c : Chain) : Nat := if c.capture.isSome then roundUp (64 + captureLen c) granule else 0
def zoomSlotBase (s : State) (i : Nat) (c : Chain) (start : Nat) : Nat :=
  allocBase s (.chainEmit i) + start / c.tz % 2 * zoomSlotSize c
def captureSlotBase (s : State) (i : Nat) (c : Chain) (slot : Nat) : Nat :=
  allocBase s (.chainEmit i) + 2 * zoomSlotSize c + slot * captureSlotSize c

/-! ### ZOOM records (08 R264) -/

/-- The descriptor of a ZOOM record. -/
def zoomDescriptor (c : Chain) (a : ZoomAsm) (sats : Nat) : List Byte :=
  leBytes 2 c.slot0 ++ leBytes 1 c.m ++ leBytes 1 c.halfBands ++ leBytes 1 c.decim ++
    leBytes 1 (b2n a.bankB + 2 * b2n a.fade + 4 * b2n a.ncoChanged + 8 * b2n a.alignChanged) ++ leBytes 2 a.taps ++
    leBytes 8 a.ftw ++ leBytes 4 a.g2 ++ leBytes 2 a.a ++ leBytes 2 a.phase ++ leBytes 4 (min sats (2 ^ 32 - 1)) ++
    leBytes 4 (min a.mismatches (2 ^ 32 - 1))

/-- The record that holds output index n begins: samples before the chain's first stand as zero with TAINT (08 R268). -/
def openZoom (s : State) (i : Nat) (c : Chain) (n : Nat) (nco aligned : Bool) : State :=
  let start := n / c.tz * c.tz
  let a : ZoomAsm := { start := start, bankB := c.active, taps := c.bank.coefs.length, ftw := c.tune.ftw,
                       g2 := groupDelay2 c c.bank c.align.a, a := c.align.a, phase := c.align.phase, fade := false,
                       ncoChanged := nco, alignChanged := aligned, mismatches := c.carried, short := decide (start < c.first) }
  let base := zoomSlotBase s i c start + 32
  let s1 := s.store base ((List.range (n - start)).flatMap fun _ => sampleWord silent)
  s1.setChain i { c with asm := some a, carried := 0 }

/-- The last sample of a ZOOM record is in: the record leaves. -/
def closeZoom (s : State) (i : Nat) : State :=
  let c := s.chain i
  match c.asm with
  | none => s
  | some a =>
    let base := zoomSlotBase s i c a.start
    let words := s.load (base + 32) (8 * c.tz)
    let payload := zoomDescriptor c a (wordsWith (zeros 32 ++ words) c.tz 1) ++ words
    let s1 := (s.store base (payload.take 32)).setChain i { c with asm := none }
    emitFromSlot s1 c.zoom base (zoomLen c)
      (chainRecord s c 0x04 (wordFlags payload c.tz a.short) a.start c.tz (i + a.start / c.tz % 2 ^ 32 * 2 ^ 32) payload)

/-! ### Captures (08 R257 to R260) -/

/-- A capture emit slot is free: unused, or its record has left every destination (08 R259). -/
def capSlotFree (s : State) (c : Chain) (k : Nat) : Bool :=
  match vget c.capSlots k none, c.capture with
  | some x, some pid => match x.seq with
    | some n => recordGone s pid n
    | none => false
  | none, _ => true
  | _, none => true

/-- The first output index of a capture, and the index after its last. -/
def capStart (x : Capture) : Int := (x.trigger : Int) - (x.pre : Nat)
def capEnd (x : Capture) : Nat := x.trigger + x.post

/-- K, the ring's capacity in samples (08 R257). -/
def ringCap (c : Chain) : Nat := 2 ^ c.ringLog2 / 8

/-- The word of a sample of a capture: that of the ring, or zero with TAINT where the chain had not begun, where the ring
had lost it, after a cut, or where the ring returned poison (08 R258, R268, 10 R326). -/
def capWord (s : State) (c : Chain) (x : Capture) (cut : Nat) (n : Int) : List Byte :=
  let a := c.ringBase + n.toNat % ringCap c * 8
  if n < (c.first : Int) || n < (x.oldest : Int) || (cut : Int) ≤ n || poisoned s a (a + 8) then sampleWord silent
  else s.load a 8

/-- The descriptor of a CAPTURE record (08 R266). -/
def capDescriptor (c : Chain) (x : Capture) (cut : Nat) (sats : Nat) : List Byte :=
  let lost := capStart x < (x.oldest : Int) && (c.first : Int) < x.oldest
  leBytes 8 x.trigger ++ leBytes 4 x.pre ++ leBytes 4 x.post ++ leBytes 4 (min x.retriggers (2 ^ 32 - 1)) ++
    leBytes 1 (b2n lost + 2 * b2n (cut < capEnd x)) ++ zeros 3 ++ leBytes 4 (groupDelay2 c c.bank c.align.a) ++
    leBytes 4 (min sats (2 ^ 32 - 1))

/-- The open capture closes at output index `cut` and is copied into its slot (08 R260, R268). -/
def closeCapture (s : State) (i : Nat) (cut : Nat) : State :=
  let c := s.chain i
  match c.opened with
  | none => s
  | some x =>
    let words := (List.range (x.pre + x.post)).flatMap fun k => capWord s c x cut (capStart x + (k : Nat))
    let sats := wordsWith (zeros 32 ++ words) (x.pre + x.post) 1
    (s.store (captureSlotBase s i c x.slot) (capDescriptor c x cut sats ++ words)).setChain i
      { c with opened := none, copying := c.copying ++ [x] }

/-- The record of a capture that has been copied leaves its slot (08 R260, R266). -/
def sendCapture (s : State) (i : Nat) : State :=
  let c := s.chain i
  match c.copying, c.capture with
  | x :: rest, some pid =>
    let k := x.pre + x.post
    let base := captureSlotBase s i c x.slot
    let payload := s.load base (32 + 8 * k)
    let early := capStart x < (c.first : Int) || field payload 20 1 > 0
    let r := chainRecord s c 0x08 (wordFlags payload k early) (capStart x) k (i + x.cause * 256 + x.id * 2 ^ 32) payload
    let s1 := emitFromSlot s pid base (32 + 8 * k) r
    let seq := ((s1.product pid).map Product.seq).getD 1 - 1
    s1.setChain i { c with copying := rest, capSlots := vset c.capSlots x.slot (some { id := x.id, seq := some seq }) }
  | _, _ => s

def execCaptureCopyDone (chain : Fin 64) (s : State) : Host.Outcome State Fault Refusal :=
  .next (if gated s then s else sendCapture s chain.val)

/-- The capture ID after another (08 R259). -/
def nextCapId (n : Nat) : Nat := if n ≥ 0xFFFFFFFD then 0 else n + 1

/-- The slot that a new capture takes. -/
def freeCapSlot (s : State) (c : Chain) : Option Nat := [0, 1].find? (capSlotFree s c)

/-- A capture opens (08 R258, R259). Where its last sample is already written it closes at once. -/
def openCapture (s : State) (i : Nat) (slot cause trigger : Nat) : State :=
  let c := s.chain i
  let x : Capture := { id := c.nextCapture, cause := cause, trigger := trigger, pre := c.pre, post := c.post,
                       oldest := c.nOut - ringCap c, retriggers := 0, slot := slot }
  let s1 := s.setChain i { c with opened := some x, nextCapture := nextCapId c.nextCapture, captures := c.captures + 1,
                                  capSlots := vset c.capSlots slot (some { id := x.id, seq := none }) }
  if capEnd x ≤ c.nOut then closeCapture s1 i (capEnd x) else s1

/-- What an event says of captures: its capture field, CAPTURE_MISSED and RETRIGGERED. -/
structure CapNote where
  id : Nat
  missed : Bool
  again : Bool
  deriving DecidableEq, Repr

/-- An event that triggers captures opens one, retriggers the open one, or finds no free slot (08 R258, R259, R265). -/
def trigger (s : State) (i : Nat) (cause n : Nat) : State × CapNote :=
  let c := s.chain i
  match c.opened with
  | some x => (s.setChain i { c with opened := some { x with retriggers := x.retriggers + 1 } },
      { id := x.id, missed := false, again := true })
  | none =>
    match freeCapSlot s c with
    | some k => (openCapture s i k cause n, { id := c.nextCapture, missed := false, again := false })
    | none => (s.setChain i { c with captureMissed := c.captureMissed + 1 }, { id := 0xFFFFFFFE, missed := true, again := false })

/-! ### Events (08 R254, R256, R262, R265) -/

/-- The bit of an event type in the trigger mask: ON, PERSIST and STUCK_ON trigger captures (08 R258). -/
def triggers (c : Chain) (type : Nat) : Bool :=
  c.capture.isSome && ((type == 1 && bitOf c.detect.trigMask 0) || (type == 3 && bitOf c.detect.trigMask 1) ||
    (type == 5 && bitOf c.detect.trigMask 2))

/-- An event before it is emitted: type, OFF reason, the index at offset 8, whether a tainted interval fell in its run or
window, the last field but one, and the trigger index. -/
structure EventOut where
  type : Nat
  reason : Nat
  first : Nat
  tainted : Bool
  value : Nat
  trig : Nat
  deriving DecidableEq, Repr

/-- The 64-byte payload of an EVENT record (08 R265). -/
def eventPayload (s : State) (i : Nat) (c : Chain) (x : Interval) (e : EventOut) (n : CapNote) : List Byte :=
  leBytes 1 e.type ++ leBytes 1 e.reason ++ leBytes 2 i ++ leBytes 4 (min c.det.droppedSince (2 ^ 32 - 1)) ++
    leBytes 8 e.first ++ leBytes 12 (timeField (refTime s c e.first).toNat).toNat ++
    leBytes 1 (b2n n.missed + 2 * b2n e.tainted + 4 * b2n n.again) ++ zeros 11 ++ leBytes 8 x.power ++
    leBytes 8 c.det.floor ++ leBytes 4 (min e.value (2 ^ 32 - 1)) ++ leBytes 4 n.id

/-- The second of referred decision time of an interval, counted from T0 (08 R256). -/
def decisionSecond (s : State) (c : Chain) (x : Interval) : Int :=
  (refTime s c ((x.first + 2 ^ x.log2N : Nat) : Int) - (s.intake.t0 : Int)) / (second : Int)

/-- The TIME_OUT pin takes a chain's request: discarded in mode 1 or 2, dropped when 16 are queued (13 R408). -/
def requestPulse (s : State) (i pin : Nat) (time : Nat) : State :=
  let o := vget s.net.outs pin Reset.timeOut
  let put (o : TimeOut) : State := { s with net := { s.net with outs := vset s.net.outs pin o } }
  if o.mode ≠ 0 then put { o with conflict := o.conflict + 1 }
  else if o.queue.length ≥ 16 then put { o with drop := o.drop + 1 }
  else
    let at_ := max time s.now
    let before := o.queue.filter fun r => r.time ≤ at_
    let after := o.queue.filter fun r => r.time > at_
    let s1 := put { o with queue := before ++ { time := at_, chain := i } :: after }
    if time < s.now then
      let c := s1.chain i
      s1.setChain i { c with toLate := c.toLate + 1 }
    else s1

/-- An emitted event in the TIME_OUT mask asks for a pulse at the referred time of the first sample after its interval,
plus TO_OFFSET (08 R262). -/
def eventPulse (s : State) (i : Nat) (c : Chain) (x : Interval) (type : Nat) : State :=
  match c.detect.pin with
  | some pin =>
    if bitOf c.detect.toMask (type - 1) then
      requestPulse s i pin (refTime s c ((x.first + 2 ^ x.log2N : Nat) : Int) + (c.detect.toOffset * nanos : Nat)).toNat
    else s
  | none => s

/-- What the standby holds of a chain (08 R269, 18 R501). -/
def chainImage (i : Nat) (c : Chain) : ChainMirror :=
  { chain := i, floor := c.det.floor,
    det := match c.det.det with
      | .off => 0
      | .learn => 1
      | .on => 2,
    onset := c.det.onset, frozen := c.det.frozenOn || c.det.stuck, stuck := c.det.stuck, flicker := c.det.crossings,
    nextCapture := c.nextCapture }

/-- The payload of a CHAIN message (18 R501; the field layout is the model's, log 27). -/
def chainPayload (x : ChainMirror) : List Byte :=
  leBytes 2 x.chain ++ leBytes 1 x.det ++ leBytes 1 (b2n x.frozen + 2 * b2n x.stuck) ++ leBytes 4 x.nextCapture ++
    leBytes 8 x.floor ++ leBytes 8 x.onset ++ leBytes 8 x.flicker

/-- A chain's state goes to the standby with each event and at each window end (08 R269). -/
def mirrorChain (s : State) (i : Nat) : State :=
  if reserving s then (sendMsg s 3 (chainPayload (chainImage i (s.chain i)))).1 else s

/-- An event is emitted, or dropped beyond 4,096 in its second (08 R256, R265). A dropped event triggers nothing (log 42). -/
def emitEvent (s : State) (i : Nat) (x : Interval) (e : EventOut) : State :=
  let c := s.chain i
  match c.event with
  | none => s
  | some pid =>
    let sec := decisionSecond s c x
    let used := match c.det.second with
      | some (k, n) => if k = sec then n else 0
      | none => 0
    if used ≥ 4096 then
      let s1 := s.setChain i { c with eventsDropped := c.eventsDropped + 1,
                                      det := { c.det with droppedSince := c.det.droppedSince + 1 } }
      { s1 with chisel := { s1.chisel with rateLimited := true } }
    else
      let t := if triggers c e.type then trigger s i e.type e.trig else (s, { id := 0xFFFFFFFF, missed := false, again := false })
      let flags := (if x.unchecked then 0 else flagVerified) + (if c.det.held then flagStale else 0) +
        (if x.sat then flagSaturated else 0) + (if t.2.missed || e.tainted then flagFlagged else 0)
      let aux := i + e.type * 256 + x.first / 2 ^ x.log2N % 2 ^ 32 * 2 ^ 32
      let r := chainRecord s c 0x05 flags x.first (2 ^ x.log2N) aux (eventPayload s i c x e t.2)
      let s1 := emitRecord t.1 pid r
      let c1 := s1.chain i
      let s2 := s1.setChain i { c1 with events := c1.events + 1,
                                        det := { c1.det with droppedSince := 0, second := some (sec, used + 1) } }
      mirrorChain (eventPulse s2 i c x e.type) i

/-! ### Detection (08 R249 to R255) -/

/-- Intervals in a duration of `num` / `den` seconds, rounded up (08 R252, R253). -/
def intervalsIn (s : State) (c : Chain) (ms : Nat) : Nat :=
  ceilDiv (ms * c.m * s.intake.num) (1000 * c.rd * s.intake.den * 2 ^ c.detect.log2N)

/-- Detector settings and seeds whose boundary the interval has reached. -/
def settleDetect (c : Chain) (n : Nat) : Chain :=
  let due := c.nextDetect.takeWhile fun x => x.1 ≤ n
  match due.getLast? with
  | some (_, d) =>
    { c with detect := { d with seed := none }, nextDetect := c.nextDetect.drop due.length,
             seed := match d.seed with
               | some v => some v
               | none => c.seed }
  | none => c

/-- The detector settings at an output index. -/
def detectAt (c : Chain) (n : Nat) : Detect :=
  match (c.nextDetect.filter fun x => x.1 ≤ n).getLast? with
  | some (_, d) => d
  | none => c.detect

/-- An interval without samples at a chain's next output index. -/
def emptyInterval (c : Chain) : Interval :=
  { first := c.nOut, log2N := c.detect.log2N, power := 0, taint := true, sat := false, unchecked := false }

/-- The OFF that a suspension, a release or a rebaseline makes of an ON chain (08 R255, R268). Its deciding interval is `x`,
and its onset the start of that interval (log 43). -/
def forceOff (s : State) (i : Nat) (reason : Nat) (x : Interval) : State :=
  let c := s.chain i
  if c.det.det ≠ .on then s
  else
    let s1 := s.setChain i { c with det := { c.det with det := .off, frozenOn := false, run := none } }
    emitEvent s1 i x { type := 2, reason := reason, first := x.first, tainted := x.taint, value := x.power / 65536, trig := 0 }

/-- The boundary of a pending rebaseline has come at output index `n` (08 R255). -/
def rebaseDue (c : Chain) (n : Nat) : Bool := c.nextRebase.any fun x => x.1 ≤ n

/-- A rebaseline takes effect: F is set and any freeze is cleared (08 R255). -/
def applyRebase (s : State) (i : Nat) : State :=
  let c := s.chain i
  match c.nextRebase with
  | none => s
  | some (_, r) =>
    let d := { c.det with frozenOn := false, stuck := false, run := none }
    let d1 := match r with
      | .seed => { d with det := .off, floor := c.seed.getD d.floor }
      | .value f => { d with det := .off, floor := f }
      | .learn => { d with det := .learn, learnSum := 0, learnCount := 0 }
    s.setChain i { c with nextRebase := none, det := d1 }

/-- A rebaseline whose boundary came before an interval that has yet to be decided (the chain was stopped meanwhile): OFF
names the last interval decided. -/
def settleRebase (s : State) (i n : Nat) : State :=
  let c := s.chain i
  if rebaseDue c n then applyRebase (forceOff s i 2 (c.det.last.getD (emptyInterval c))) i else s

/-- The floor after an untainted interval in OFF (08 R250). -/
def nextFloor (c : Chain) (p : Nat) : Nat :=
  let d : Int := (p : Int) - c.det.floor
  let sh := if d > 0 then c.detect.alphaUp else c.detect.alphaDown
  ((c.det.floor : Int) + d / (2 ^ sh : Nat)).toNat

/-- A run extended by an interval, or begun with it. -/
def extendRun (r : Option DetRun) (x : Interval) : DetRun :=
  match r with
  | some y => { y with len := y.len + 1, peak := max y.peak x.power }
  | none => { first := x.first, len := 1, peak := x.power, taint := false }

/-- The detector after an interval, and the event that it decides: ON, OFF or none (08 R249 to R252). -/
def decide1 (c : Chain) (x : Interval) : Chain × Option EventOut :=
  let d := c.det
  let broke (d : Detector) : Chain := match d.run with
    | some _ => { c with det := { d with run := none, crossings := d.crossings + 1 }, flickerCrossings := c.flickerCrossings + 1 }
    | none => { c with det := d }
  if x.taint then
    ({ c with det := { d with run := d.run.map (fun r => { r with taint := true, peak := max r.peak x.power }), winTaint := true,
                              onTaint := true, peak := max d.peak x.power } }, none)
  else
    match d.det with
    | .learn =>
      if d.held then (c, none)
      else
        let d1 := { d with learnSum := d.learnSum + x.power, learnCount := d.learnCount + 1 }
        if d1.learnCount ≥ 2 ^ c.detect.lambda then
          ({ c with det := { d1 with det := .off, floor := d1.learnSum / 2 ^ c.detect.lambda } }, none)
        else ({ c with det := d1 }, none)
    | .off =>
      if 256 * x.power > c.detect.thOn * d.floor ∧ (extendRun d.run x).len ≥ c.detect.nOn then
        let r := extendRun d.run x
        ({ c with det := { d with det := .on, frozenOn := true, run := none, onset := r.first, peak := r.peak,
                                  decided := x.first, onTaint := r.taint } },
          some { type := 1, reason := 0, first := r.first, tainted := r.taint, value := r.peak / 65536, trig := r.first })
      else
        let c1 := if 256 * x.power > c.detect.thOn * d.floor then { c with det := { d with run := some (extendRun d.run x) } }
          else broke d
        if d.held || d.stuck then (c1, none) else ({ c1 with det := { c1.det with floor := nextFloor c x.power } }, none)
    | .on =>
      let d1 := { d with peak := max d.peak x.power }
      if 256 * x.power < c.detect.thOff * d.floor then
        let r := extendRun d.run x
        if r.len ≥ c.detect.nOff then
          ({ c with det := { d1 with det := .off, frozenOn := false, run := none } },
            some { type := 2, reason := 0, first := r.first, tainted := r.taint, value := r.peak / 65536, trig := 0 })
        else ({ c with det := { d1 with run := some r } }, none)
      else (broke d1, none)

/-- PERSIST falls due at the end of an interval (08 R253). -/
def persistDue (s : State) (c : Chain) (x : Interval) : Bool :=
  let n := 2 ^ x.log2N
  let pi := intervalsIn s c c.detect.persistMs
  let k := x.first / n + 1 - c.det.onset / n
  c.det.det == .on && c.det.decided < x.first && k > 0 && k % pi == 0

/-- STUCK_ON falls due at the end of an interval (08 R253). -/
def stuckDue (s : State) (c : Chain) (x : Interval) : Bool :=
  let n := 2 ^ x.log2N
  c.det.det == .on && x.first / n + 1 - c.det.onset / n == intervalsIn s c (1000 * c.detect.holdS)

/-- The end of a flicker window (08 R252). -/
def flickerEnd (s : State) (c : Chain) (x : Interval) : Bool :=
  (x.first / 2 ^ x.log2N + 1) % intervalsIn s c c.detect.persistMs == 0

/-- One untainted interval of a level trim of the chain: 8 blocks of 2^λ; then the least mean is the seed (15 R443). -/
def chainTrimStep (s : State) (i : Nat) (x : Interval) : State :=
  match s.trims.chainLevels.find? fun t => t.chain == i with
  | none => s
  | some t =>
    if x.taint then s
    else
      let c := s.chain i
      let len := 2 ^ c.detect.lambda
      let t1 := { t with sum := t.sum + x.power, count := t.count + 1 }
      let t2 := if t1.count ≥ len then { t1 with blocks := t1.blocks ++ [t1.sum / len], sum := 0, count := 0 } else t1
      let others := s.trims.chainLevels.filter fun y => y.chain != i
      if t2.blocks.length < 8 then { s with trims := { s.trims with chainLevels := others ++ [t2] } }
      else
        let seed := t2.blocks.foldl min (t2.blocks.headD 0)
        let set := c.det.det == .off && !c.det.stuck
        let d := { c.det with held := false, floor := if set then seed else c.det.floor }
        { s with trims := { s.trims with chainLevels := others, levelRuns := s.trims.levelRuns + 1,
                                         levelRef := s.trims.dieTemp } }.setChain i { c with seed := some seed, det := d }

/-- The reason of an OFF that something other than an interval's power asks for: a rebaseline at its end, or the stop of the
chain with it (08 R255, R268). -/
def forcedBy (c : Chain) (x : Interval) (stop : Option Nat) : Option Nat :=
  if rebaseDue c (x.first + 2 ^ x.log2N) then some 2 else stop

/-- A detection interval is decided: ON, PERSIST, STUCK_ON, OFF, FLICKER in this order (08 R254). `stop` is the OFF reason
where the chain stops with this interval. -/
def decideInterval (s : State) (i : Nat) (x : Interval) (stop : Option Nat) : State :=
  let s1 := settleRebase (s.setChain i (settleDetect (s.chain i) x.first)) i x.first
  let r := decide1 (s1.chain i) x
  let s2 := s1.setChain i { r.1 with det := { r.1.det with last := some x } }
  let s3 := match r.2 with
    | some e => if e.type = 1 then emitEvent s2 i x e else s2
    | none => s2
  let c := s3.chain i
  let onEvent (type : Nat) : EventOut :=
    { type := type, reason := 0, first := c.det.onset, tainted := c.det.onTaint, value := c.det.peak / 65536, trig := x.first }
  let s4 := if persistDue s3 c x then emitEvent s3 i x (onEvent 3) else s3
  let c4 := s4.chain i
  let s5 := if stuckDue s4 c4 x then emitEvent (s4.setChain i { c4 with det := { c4.det with stuck := true } }) i x (onEvent 5) else s4
  let own := match r.2 with
    | some e => if e.type = 2 then emitEvent s5 i x e else s5
    | none => s5
  let s6 := match forcedBy (own.chain i) x stop with
    | some reason => forceOff own i reason x
    | none => own
  let c6 := s6.chain i
  let s7 := if !flickerEnd s6 c6 x then s6
    else
      let first := x.first + 2 ^ x.log2N - intervalsIn s6 c6 c6.detect.persistMs * 2 ^ x.log2N
      let t := if c6.det.crossings = 0 then s6
        else emitEvent s6 i x { type := 4, reason := 0, first := first, tainted := c6.det.winTaint, value := c6.det.crossings, trig := 0 }
      let c7 := t.chain i
      mirrorChain (t.setChain i { c7 with det := { c7.det with crossings := 0, winTaint := false } }) i
  let s8 := chainTrimStep s7 i x
  if rebaseDue (s8.chain i) (x.first + 2 ^ x.log2N) then applyRebase s8 i else s8

/-- The oldest interval that waits is decided. -/
def decideNext (s : State) (i : Nat) : State :=
  let c := s.chain i
  match c.dueIntervals with
  | [] => s
  | x :: rest => decideInterval (s.setChain i { c with dueIntervals := rest }) i x none

/-- Every interval that waits is decided, and an ON chain goes OFF for `reason`: in the interval in progress, or with the last
one that waits where it ends at the stop (08 R254, R268; log 43). -/
def decideAll (s : State) (i reason : Nat) : State :=
  let c := s.chain i
  let n := c.dueIntervals.length
  let s1 := (enumFrom0 c.dueIntervals).foldl (fun t x =>
    decideInterval t i x.2 (if x.1 + 1 = n ∧ c.interval.isNone then some reason else none))
    (s.setChain i { c with dueIntervals := [] })
  forceOff s1 i reason (c.interval.getD (emptyInterval c))

def execDetectIntervalEnd (chain : Fin 64) (s : State) : Host.Outcome State Fault Refusal :=
  .next (if gated s then s else decideNext s chain.val)

/-- A sample joins the detection interval of its index (08 R249). An interval that began before the chain did is tainted. -/
def sumInterval (c : Chain) (n : Nat) (x : CSample) : Chain :=
  if c.event.isNone then c
  else
    let d := detectAt c n
    let first := n / 2 ^ d.log2N * 2 ^ d.log2N
    let v := match c.interval with
      | some y => if y.first = first ∧ y.log2N = d.log2N then y
          else { first := first, log2N := d.log2N, power := 0, taint := decide (first < n), sat := false, unchecked := false }
      | none => { first := first, log2N := d.log2N, power := 0, taint := decide (first < n), sat := false, unchecked := false }
    let w : Interval := { v with power := v.power + (x.re * x.re + x.im * x.im).toNat, taint := v.taint || x.taint,
                                 sat := v.sat || x.sat, unchecked := v.unchecked || x.unchecked }
    if n + 1 = first + 2 ^ d.log2N then { c with interval := none, dueIntervals := c.dueIntervals ++ [w] }
    else { c with interval := some w }

/-! ### Suspension and release (08 R268) -/

/-- The products of a chain with their record types. -/
def chainProducts (c : Chain) : List (Nat × Nat) :=
  (c.zoom, 0x04) :: ((c.event.map fun p => (p, 0x05)).toList ++ (c.capture.map fun p => (p, 0x08)).toList)

/-- A chain goes: its products, areas and settings; its counters stay (08 R270). -/
def dropChain (s : State) (i : Nat) : State :=
  let c := s.chain i
  let s1 := freeAllocs s fun k => k == .capRing i || k == .chainEmit i
  let s2 := s1.setChain i { Reset.chain with
    satSamples := c.satSamples, taintSamples := c.taintSamples, events := c.events, eventsDropped := c.eventsDropped,
    captures := c.captures, captureMissed := c.captureMissed, residueFail := c.residueFail, toLate := c.toLate,
    flickerCrossings := c.flickerCrossings }
  let s3 := { s2 with trims := { s2.trims with chainLevels := s2.trims.chainLevels.filter fun t => t.chain != i } }
  (chainProducts c).foldl (fun t p => productStopped (t.delProduct p.1) p.1) s3

/-- The chain has come to the boundary at which it stops: intervals that wait are decided, an ON chain emits OFF, an open
capture is cut, captures leave, and each product emits its GAP record (08 R268). -/
def stopChain (s : State) (i b : Nat) (releasing : Bool) : State :=
  let s2 := decideAll s i (if releasing then 3 else 1)
  let s3 := closeCapture s2 i b
  let s4 := (List.range (s3.chain i).copying.length).foldl (fun t _ => sendCapture t i) s3
  let ps := chainProducts (s4.chain i)
  let s5 := ps.foldl (fun t p => gapSuspended t p.1 p.2 b (refTime t (t.chain i) b).toNat) s4
  if releasing then dropChain s5 i
  else
    let c := s5.chain i
    let d := { c.det with run := none, frozenOn := false }
    let s6 := s5.setChain i { c with state := .suspended, stop := none, inbox := [], interval := none, det := d }
    ps.foldl (fun t p => productStopped (suspendProduct t p.1) p.1) s6

/-- A chain whose next output index is its stop boundary stops. -/
def chainStops (s : State) (i : Nat) : State :=
  let c := s.chain i
  match c.stop with
  | some (b, rel) => if c.nOut ≥ b then stopChain s i b rel else s
  | none => s

/-! ### Rows (08 R234) -/

/-- The settings that change at an output index: FIR bank, tune and alignment, and G2 with EXT_DELAY. -/
def settleChain (c : Chain) (n : Nat) : Chain :=
  let c1 := match c.switch with
    | some w => if n ≥ w.at_ + w.fade then { c with active := !c.active, switch := none } else c
    | none => c
  let c2 := match c1.nextTune with
    | some (b, u) => if n ≥ b then { c1 with tune := u, nextTune := none } else c1
    | none => c1
  let c3 := match c2.nextAlign with
    | some (b, a) => if n ≥ b then { c2 with align := a, nextAlign := none } else c2
    | none => c2
  let g := (groupDelay2 c3 c3.bank c3.align.a, c3.align.extDelay)
  if refAt c3 n = g then c3 else { c3 with refHist := (n, g) :: c3.refHist }

/-- One class L error per chain per second for residue mismatches (08 R237). -/
def noteChainResidue (s : State) (i fails : Nat) : State :=
  if fails = 0 then s
  else
    let c := s.chain i
    let told : Bool := match c.residueTime with
      | some u => decide (s.now < u + second)
      | none => false
    let c1 := { c with residueFail := c.residueFail + BitVec.ofNat 32 fails,
                       residueTime := if told then c.residueTime else some s.now }
    let s1 := { s with chisel := { s.chisel with residueSeen := true } }.setChain i c1
    if told then s1 else raise s1 0x0601 .l (vget s.world.chains i .secure) i 0

/-- What the stages of a row counted. -/
def noteTally (s : State) (i : Nat) (t : Tally) : State :=
  let c := s.chain i
  let bump (a : ZoomAsm) : ZoomAsm := { a with mismatches := a.mismatches + t.fails }
  noteChainResidue (s.setChain i { c with
    satSamples := c.satSamples + BitVec.ofNat 32 t.sats, asm := c.asm.map bump,
    carried := if c.asm.isNone then c.carried + t.fails else c.carried }) i t.fails

/-- A fade touches an output index. -/
def fading (c : Chain) (n : Nat) : Bool :=
  match c.switch with
  | some w => decide (w.at_ ≤ n ∧ n < w.at_ + w.fade)
  | none => false

/-- An output sample: into the ring, the ZOOM record, the detection interval and the open capture. `c0` is the chain as it
was before the row's outputs. -/
def takeOutput (s : State) (i : Nat) (o : Nat × CSample × Tally) : State :=
  let n := o.1
  let c := s.chain i
  if n < c.nOut || c.state != .run then s
  else
    let nco : Bool := match c.nextTune with
      | some (b, _) => decide (b ≤ n)
      | none => false
    let ali : Bool := match c.nextAlign with
      | some (b, _) => decide (b ≤ n)
      | none => false
    let fade := fading c n
    let s1 := s.setChain i (settleChain c n)
    let s2 := if (s1.chain i).asm.isNone then openZoom s1 i (s1.chain i) n nco ali else s1
    let s3 := noteTally s2 i o.2.2
    let c3 := s3.chain i
    let word := sampleWord o.2.1
    let s4 := if c3.capture.isSome then s3.store (c3.ringBase + n % ringCap c3 * 8) word else s3
    let s5 := s4.store (zoomSlotBase s4 i c3 (n / c3.tz * c3.tz) + 32 + 8 * (n % c3.tz)) word
    let mark (a : ZoomAsm) : ZoomAsm := { a with fade := a.fade || fade }
    let c4 := { sumInterval c3 n o.2.1 with
                  nOut := n + 1, asm := c3.asm.map mark,
                  taintSamples := c3.taintSamples + (if o.2.1.taint then 1 else 0) }
    let s6 := s5.setChain i c4
    let s7 := if (n + 1) % c4.tz = 0 then closeZoom s6 i else s6
    let s8 := match (s7.chain i).opened with
      | some x => if capEnd x ≤ n + 1 then closeCapture s7 i (capEnd x) else s7
      | none => s7
    chainStops s8 i

/-- The Frieze product that holds a beam. -/
def beamOwner (s : State) (beam : Nat) : Option FzProd :=
  s.frieze.prods.find? fun p => p.beamBase ≤ beam && beam < p.beamBase + p.beams

/-- A row of the chain's beam waits for its partial sum (07 R221). -/
def beamHolds (s : State) (c : Chain) (t : Nat) : Bool :=
  match beamOwner s c.beam with
  | some p => p.imp.any fun m => m.waiting.any fun x => x.2.1 + p.beamBase == c.beam && x.2.2.counter == t
  | none => false

/-- Row t of the chain's beam will not come: the Frieze is past the row, and holds none of it (08 R234). The beam's product
took no such row: it is suspended, stopped, not started or gone. -/
def beamSilent (s : State) (c : Chain) (t : Nat) : Bool :=
  decide (t < s.intake.front) && !rowsBefore s (t + 1) && !beamHolds s c t

/-- A row whose sums never formed. -/
def noSums (c : Chain) : List BSample := List.replicate c.m noSample

/-- A chain takes a row with its sums. -/
def takeRow (s : State) (i : Nat) (fails : Fails) (c : Chain) (sums : List BSample) : State :=
  let h := match vget s.chisel.protos c.proto none with
    | some p => p.coefs
    | none => []
  let r := chainRow fails c h c.row sums
  let s1 := s.setChain i { r.1 with row := c.row + 1 }
  let s2 := r.2.1.foldl (fun t o => takeOutput t i o) s1
  noteTally s2 i r.2.2

/-- The sums of the chain's slots in a row of its beam. -/
def chainSums (s : State) (c : Chain) (r : BeamRow) : List BSample :=
  let base := ((beamOwner s c.beam).map FzProd.chBase).getD 0
  (List.range c.m).map fun k => (r.chans[c.slot0 + k - base]?).getD noSample

/-- A chain takes its next row: that of its beam, or zeros with TAINT where the beam gives none (08 R234). A row that the beam
still holds is waited for. Rows before the chain's start are passed over. -/
def execChainRowProcess (chain : Fin 64) (residues : List (Nat × Nat)) (s : State) : Host.Outcome State Fault Refusal :=
  .next (
    let i := chain.val
    let c := s.chain i
    if gated s || c.state != .run then s
    else
      let c1 := { c with inbox := c.inbox.filter fun r => c.row < r.counter }
      match c.inbox.find? fun r => r.counter == c.row with
      | some r => takeRow s i residues c1 (chainSums s c r)
      | none => if beamSilent s c c.row then takeRow s i residues c1 (noSums c) else s.setChain i c1)

end Sys2Proof.Machine
end

