-- ==== Sys2Proof/Machine/Zoom.lean ====
section
/-! DEFINITION. The ZOOM Clauses (08 R233 to R271, 11 R369). -/

namespace Sys2Proof.Machine

/-! ### Prototypes (08 R239) -/

/-- The i32 coefficients of a byte string. -/
def words32 (bs : List Byte) (n : Nat) : List Int := (List.range n).map fun i => toSigned 32 (field bs (4 * i) 4)

/-- M is one of 1, 2, 4 to 64 (08 R235). -/
def stitchOk (m : Nat) : Bool := [1, 2, 4, 8, 16, 32, 64].contains m

/-- ZOOM_PROTO_LOAD: A is the lowest free handle. -/
def protoLoad (s : State) (f : Fn) (m : Nat) (buf : HBuf) (data : HRead) : Result := do
  refuseIf (!domainUp s 4) stBusy 8
  refuseIf (!stitchOk m) stBadParam 8
  refuseIf (buf.len.toNat != 64 * m) stBadParam 56
  match (List.range 8).find? fun h => (vget s.chisel.protos h none).isNone with
  | none => refuse stBadParam 8
  | some h =>
    let bs ← readBuf buf data
    let cs := words32 bs (16 * m)
    refuseIf (cs.any fun c => c.natAbs > 131071) stBadParam 48
    refuseIf (cs != cs.reverse) stBadParam 48
    let x : Proto := { coefs := cs, world := worldOf f }
    done { s with chisel := { s.chisel with protos := vset s.chisel.protos h (some x) } } h

def execZoomProtoLoad (src : Src) (m : U8) (buf : HBuf) (data : HRead) (s : State) : Host.Outcome State Fault Refusal :=
  runClause (.zoomProtoLoad src m buf data) s fun s => protoLoad s src.fn m.toNat buf data

/-- The prototype a Clause names. -/
def namedProto (s : State) (h off : Nat) : Except Reply Proto :=
  orRefuse (if h < 8 then vget s.chisel.protos h none else none) stBadParam off

/-- A chain names the prototype. -/
def protoNamed (s : State) (h : Nat) : Bool :=
  s.chisel.chains.toList.any fun c => c.state != .undefined && c.log2M != 0 && c.proto == h

def protoFree (s : State) (f : Fn) (h : Nat) : Result := do
  let p ← namedProto s h 8
  refuseIf (p.world != worldOf f) stWorldDenied 8
  refuseIf (protoNamed s h) stBusy 8
  done { s with chisel := { s.chisel with protos := vset s.chisel.protos h none } }

def execZoomProtoFree (src : Src) (handle : U8) (s : State) : Host.Outcome State Fault Refusal :=
  runClause (.zoomProtoFree src handle) s fun s => protoFree s src.fn handle.toNat

/-! ### The settings block (11 R369) -/

/-- Block bytes 0 to 31: sh_in, M, s0, handle, sh_s1, sh_s2, H, sh_1 to sh_6, sh_nco, FTW, PHASE0. -/
def blockTune (bs : List Byte) : Tune :=
  { ftw := field bs 16 8, phase0 := field bs 24 8, shIn := field bs 0 1, shS1 := field bs 5 1, shS2 := field bs 6 1,
    shNco := field bs 14 1, shH := (List.range 6).map fun h => field bs (8 + h) 1 }

/-- The ranges of block bytes 0 to 31; `off` gives the Clause offset of a block offset. -/
def tuneChecks (bs : List Byte) (off : Nat → Nat) : Except Reply Unit := do
  let u := blockTune bs
  refuseIf (u.shIn > 16) stBadParam (off 0)
  refuseIf (!stitchOk (field bs 1 1)) stBadParam (off 1)
  refuseIf (u.shS1 > 31) stBadParam (off 5)
  refuseIf (u.shS2 > 31) stBadParam (off 6)
  refuseIf (field bs 7 1 > 6) stBadParam (off 7)
  (enumFrom0 u.shH).forM fun x => refuseIf (x.2 > 31) stBadParam (off (8 + x.1))
  refuseIf (u.shNco > 31) stBadParam (off 14)
  refuseIf (field bs 15 1 != 0) stBadParam (off 15)
  refuseIf (u.ftw ≥ 2 ^ 48) stBadParam (off 16)
  refuseIf (u.phase0 ≥ 2 ^ 48) stBadParam (off 24)

/-- Block bytes 48 to 63: A, ALIGN_PHASE, sh_al, EXT_DELAY. -/
def blockAlign (bs : List Byte) : Align :=
  { a := field bs 0 2, phase := field bs 2 2, shAl := field bs 4 1, extDelay := toSigned 64 (field bs 8 8) }

/-- The ranges of block bytes 48 to 63. -/
def alignChecks (bs : List Byte) (off : Nat → Nat) : Except Reply Unit := do
  let a := blockAlign bs
  refuseIf (a.a > 4095) stBadParam (off 48)
  refuseIf (a.shAl > 31) stBadParam (off 52)
  refuseIf (field bs 5 3 != 0) stBadParam (off 53)

/-- Block bytes 64 to 103. -/
def blockDetect (bs : List Byte) : Detect :=
  { log2N := field bs 0 1, lambda := field bs 1 1, alphaUp := field bs 2 1, alphaDown := field bs 3 1, thOn := field bs 4 2,
    thOff := field bs 6 2, nOn := field bs 8 2, nOff := field bs 10 2, persistMs := field bs 12 4, holdS := field bs 16 4,
    trigMask := field bs 20 1 % 8, pin := if bitOf (field bs 21 1) 2 then some (field bs 21 1 % 4) else none,
    toMask := field bs 22 1, toOffset := field bs 24 4, seed := if bitOf (field bs 20 1) 7 then some (field bs 32 8) else none }

/-- The ranges of block bytes 64 to 103. -/
def detectChecks (bs : List Byte) (off : Nat → Nat) : Except Reply Unit := do
  let d := blockDetect bs
  refuseIf (d.log2N > 16) stBadParam (off 64)
  refuseIf (d.lambda > 16) stBadParam (off 65)
  refuseIf (d.alphaUp > 16) stBadParam (off 66)
  refuseIf (d.alphaDown > 16) stBadParam (off 67)
  refuseIf (d.thOn == 0) stBadParam (off 68)
  refuseIf (d.thOff == 0 || d.thOff > d.thOn) stBadParam (off 70)
  refuseIf (d.nOn == 0) stBadParam (off 72)
  refuseIf (d.nOff == 0) stBadParam (off 74)
  refuseIf (d.persistMs == 0 || d.persistMs > 60000) stBadParam (off 76)
  refuseIf (d.holdS == 0 || d.holdS > 3600) stBadParam (off 80)
  refuseIf (bits (field bs 20 1) 3 4 != 0) stBadParam (off 84)
  refuseIf (field bs 21 1 ≥ 8) stBadParam (off 85)
  refuseIf (field bs 23 1 != 0) stBadParam (off 87)
  refuseIf (d.toOffset > 1000000000) stBadParam (off 88)
  refuseIf (field bs 28 4 != 0) stBadParam (off 92)

/-- The world of the TIME_OUT pin that the detector settings name (08 R262). -/
def pinWorld (s : State) (w : World) (bs : List Byte) (off : Nat) : Except Reply Unit :=
  refuseIf ((blockDetect bs).pin.any fun p => vget s.world.pins p .secure != w) stWorldDenied off

/-- A FIR bank: L, shift and declared delay in range, and Σ|c| at most 16,777,215 (08 R243). -/
def firChecks (b : FirBank) (l offL offSh offDelay offCoefs : Nat) : Except Reply Unit := do
  refuseIf (l == 0 || l > 1024) stBadParam offL
  refuseIf (b.sh > 31) stBadParam offSh
  refuseIf (b.delay > 2 * (l - 1)) stBadParam offDelay
  refuseIf (b.coefs.any fun c => c < -131072 || 131071 < c) stBadParam offCoefs
  refuseIf (sumNat (b.coefs.map Int.natAbs) > 16777215) stBadParam offCoefs

/-- The rate limits of a chain (08 R236). -/
def rateChecks (s : State) (c : Chain) (taps offM offL : Nat) : Except Reply Unit := do
  refuseIf ((c.m : Nat) * slotRate s > 50000000) stBadParam offM
  refuseIf ((taps : Nat) * outRate s c > 400000000) stBadParam offL

/-! ### ZOOM_DEFINE (08 R233, R236, R257, R258, R264, R268) -/

/-- The demands of a chain's products: one chain for the ZOOM product; EVENT records up to R256's limit; CAPTURE records back
to back (log 44). -/
def zoomDemand (s : State) (c : Chain) (kind : Nat) (route : U32) : Demand :=
  let rate := outRate s c
  let rec_ : Rat := if kind = 0 then rate / (c.tz : Nat) else if kind = 1 then 4096 else rate / (max 1 (c.pre + c.post) : Nat)
  let len : Nat := if kind = 0 then 64 + zoomLen c else if kind = 1 then 128 else 64 + captureLen c
  { Demand.zero with chains := if kind = 0 then 1 else 0, bytes := rec_ * (len : Nat), route := route, records := rec_ }

/-- The longest record of a chain's product. -/
def zoomMaxRec (c : Chain) (kind : Nat) : Nat :=
  if kind = 0 then 64 + zoomLen c else if kind = 1 then 128 else 64 + captureLen c

/-- The kind of product: ZOOM, EVENT, CAPTURE. -/
def zoomKind (kind : Nat) : PKind := if kind = 0 then .zoom else if kind = 1 then .evt else .capture

/-- The products that a definition makes, with their kinds, routes and the Clause offsets of both. -/
structure ZoomUse where
  pid : Nat
  kind : Nat
  route : U32
  offPid : Nat
  offRoute : Nat
  deriving DecidableEq, Repr

/-- The products named: 0xFFFF names none for EVENT and CAPTURE. -/
def zoomUses (zoom event capture : Nat) (rz re rc : U32) : List ZoomUse :=
  [{ pid := zoom, kind := 0, route := rz, offPid := 10, offRoute := 16 }] ++
    (if event = 0xFFFF then [] else [{ pid := event, kind := 1, route := re, offPid := 12, offRoute := 20 }]) ++
    (if capture = 0xFFFF then [] else [{ pid := capture, kind := 2, route := rc, offPid := 14, offRoute := 24 }])

/-- The chain that a settings block describes. -/
def blockChain (c : Chain) (bs : List Byte) : Chain :=
  { c with log2M := Nat.log2 (field bs 1 1), slot0 := field bs 2 2, proto := field bs 4 1, tune := blockTune bs,
           halfBands := field bs 7 1, decim := field bs 32 1, align := blockAlign (bs.drop 48),
           detect := { blockDetect (bs.drop 64) with seed := none }, seed := (blockDetect (bs.drop 64)).seed,
           log2Tz := field bs 104 1, ringLog2 := field bs 105 1, pre := field bs 108 4, post := field bs 112 4,
           ringBase := field bs 120 8 }

/-- The rest of the block's ranges: D, bank A, records, ring and extent. -/
def blockChecks (c : Chain) (bs : List Byte) : Except Reply Unit := do
  refuseIf (c.decim == 0 || c.decim > 32) stBadParam 48
  refuseIf (field bs 38 2 != 0 || field bs 106 2 != 0 || field bs 116 4 != 0) stBadParam 48
  refuseIf (c.log2Tz < 6 || c.log2Tz > 16) stBadParam 48
  refuseIf (c.capture.isNone && c.ringLog2 != 0) stBadParam 48
  if c.capture.isSome then
    refuseIf (c.ringLog2 < 21 || c.ringLog2 > 34 || c.ringBase % granule != 0) stBadParam 48
    let len := c.pre + c.post
    refuseIf (len > ringCap c / 2 || len > 2 ^ 26) stBadParam 48

/-- The beam that feeds a chain: defined, of a LOCAL or TAIL product, with the chain's slots (08 R233, R236). Gives the
product. -/
def chainBeam (s : State) (beam : Nat) (c : Chain) (offBeam offSlot : Nat) : Except Reply Nat := do
  let p ← orRefuse (beamOwner s beam) stBadParam offBeam
  refuseIf (p.role == 1 || p.role == 2) stBadParam offBeam
  refuseIf (c.slot0 < p.chBase || c.slot0 + c.m > p.chBase + p.chCount) stBadParam offSlot
  return p.pid

/-- The prototype suits the chain: it has 16 M coefficients (08 R239). A chain with M = 1 uses none. -/
def chainProto (s : State) (c : Chain) (off : Nat) : Except Reply Unit :=
  if c.log2M = 0 then .ok ()
  else do
    let p ← namedProto s c.proto off
    refuseIf (p.coefs.length != 16 * c.m) stBadParam off

/-- The prototype is of the chain's world (08 R239). -/
def protoWorld (s : State) (w : World) (c : Chain) (off : Nat) : Except Reply Unit :=
  refuseIf (c.log2M != 0 && (vget s.chisel.protos c.proto none).any fun p => p.world != w) stWorldDenied off

/-- The areas of a chain: its ring as named, and its emit slots. -/
def chainAreas (s : State) (i : Nat) (w : World) (c : Chain) : Except Reply State := do
  let s1 := if c.capture.isSome then addAlloc s { kind := .capRing i, base := c.ringBase, size := 2 ^ c.ringLog2, world := w } else s
  let r ← place s1 w (.chainEmit i) (2 * zoomSlotSize c + 2 * captureSlotSize c)
  return r.1

/-- Every product of a definition is added. -/
def addProducts (s : State) (f : Fn) (c : Chain) (us : List ZoomUse) : State :=
  us.foldl (fun t u => t.setProduct u.pid
    (newProduct u.pid (zoomKind u.kind) (worldOf f) f u.route (zoomDemand s c u.kind u.route) (zoomMaxRec c u.kind))) s

/-- The product IDs and routes of a definition. -/
def useChecks (s : State) (f : Fn) (c : Chain) : List ZoomUse → Except Reply Unit
  | [] => .ok ()
  | u :: t => do
    refuseIf (!pidFree s u.pid || t.any fun v => v.pid == u.pid) stBadParam u.offPid
    routeParams s f u.route (zoomMaxRec c u.kind) u.offRoute
    useChecks s f c t

/-- The worlds of the routes of a definition. -/
def useWorlds (s : State) (w : World) : List ZoomUse → Except Reply Unit
  | [] => .ok ()
  | u :: t => do
    routeWorld s w u.route u.offRoute
    useWorlds s w t

/-- A detector at its start: LEARN, or OFF with its seed (08 R250). -/
def freshDetector (seed : Option Nat) : Detector :=
  match seed with
  | some v => { Reset.detector with det := .off, floor := v }
  | none => { Reset.detector with det := .learn }

/-- ZOOM_DEFINE. -/
def zoomDefine (s : State) (f : Fn) (i beam : Nat) (us : List ZoomUse) (event capture : Option Nat) (buf : HBuf)
    (data coefs : HRead) : Result := do
  let w := worldOf f
  admitGate s
  refuseIf (!domainUp s 4) stBusy 8
  refuseIf (i ≥ 64 || (s.chain i).state != .undefined) stBadParam 8
  if buf.len.toNat != 128 then badLength 128 buf.len.toNat
  else
    let bs ← readBuf buf data
    let block (_ : Nat) : Nat := 48
    tuneChecks bs block
    alignChecks (bs.drop 48) block
    let old := s.chain i
    let c0 := blockChain { Reset.chain with
      satSamples := old.satSamples, taintSamples := old.taintSamples, events := old.events, eventsDropped := old.eventsDropped,
      captures := old.captures, captureMissed := old.captureMissed, residueFail := old.residueFail, toLate := old.toLate,
      flickerCrossings := old.flickerCrossings, zoom := ((us.head?).map ZoomUse.pid).getD 0, event := event,
      capture := capture, beam := beam } bs
    blockChecks c0 bs
    let l := field bs 34 2
    refuseIf (l == 0 || l > 1024) stBadParam 48
    let raw ← readBuf { addr := 0, len := BitVec.ofNat 32 (4 * l) } coefs
    let bank : FirBank := { coefs := words32 raw l, sh := field bs 33 1, delay := field bs 36 2 }
    firChecks bank l 48 48 48 48
    rateChecks s c0 l 48 48
    let start := roundUp (s.counterIn 50000) 256
    let seed := match c0.seed with
      | some f => some f
      | none => tabGet i s.trims.keptSeeds
    let c1 := { c0 with bankA := bank, state := .run, seed := seed, det := freshDetector seed }
    let n := firstOut c1 start
    let c := { restartChain c1 start n with refHist := [(n, (groupDelay2 c1 bank c1.align.a, c1.align.extDelay))] }
    useChecks s f c us
    detectChecks (bs.drop 64) block
    let fed ← chainBeam s beam c 9 48
    chainProto s c 48
    refuseIf (vget s.world.chains i .secure != w) stWorldDenied 8
    refuseIf (s.worldOfProduct fed != w) stWorldDenied 9
    useWorlds s w us
    pinWorld s w (bs.drop 64) 48
    protoWorld s w c 48
    refuseIf (c.capture.isSome && !inWorld s w c.ringBase (2 ^ c.ringLog2)) stWorldDenied 48
    let s1 ← chainAreas s i w c
    let s2 := addProducts (s1.setChain i c) f c us
    admission s s2 w (if c.capture.isSome then tileCheck s c.ringBase (2 ^ c.ringLog2) 48 else .ok ())
    deferred s2 1 start

def execZoomDefine (src : Src) (chain beam : U8) (zoom event capture : U16) (routeZ routeE routeC : U32) (buf : HBuf)
    (data coefs : HRead) (s : State) : Host.Outcome State Fault Refusal :=
  runClause (.zoomDefine src chain beam zoom event capture routeZ routeE routeC buf data coefs) s fun s =>
    let opt (p : U16) : Option Nat := if p.toNat = 0xFFFF then none else some p.toNat
    zoomDefine s src.fn chain.toNat beam.toNat (zoomUses zoom.toNat event.toNat capture.toNat routeZ routeE routeC)
      (opt event) (opt capture) buf data coefs

/-! ### Lifecycle (08 R268) -/

/-- The chain a Clause names is defined. -/
def findChain (s : State) (i : Nat) : Except Reply Chain := do
  refuseIf (i ≥ 64 || (s.chain i).state == .undefined) stBadParam 8
  return s.chain i

/-- The chain a Clause names is of its world. -/
def ownChain (s : State) (f : Fn) (i : Nat) : Except Reply Unit :=
  refuseIf (vget s.world.chains i .secure != worldOf f) stWorldDenied 8

/-- The chain a Clause names, where its other parameters are checked after it. -/
def namedChain (s : State) (f : Fn) (i : Nat) : Except Reply Chain := do
  let c ← findChain s i
  ownChain s f i
  return c

/-- The next ZOOM record boundary of a chain. -/
def zoomBoundary (c : Chain) : Nat := roundUp c.nOut c.tz

/-- ZOOM_RELEASE and ZOOM_SUSPEND: a suspended chain is released at once (log 35). -/
def zoomStop (s : State) (f : Fn) (i : Nat) (releasing : Bool) : Result := do
  let c ← namedChain s f i
  refuseIf (c.stop.isSome || (!releasing && c.state == .suspended)) stBusy 8
  let b := zoomBoundary c
  if c.state == .suspended then deferred (dropChain s i) 4 b
  else deferred (chainStops (s.setChain i { c with stop := some (b, releasing) }) i) 4 b

def execZoomRelease (src : Src) (chain : U8) (s : State) : Host.Outcome State Fault Refusal :=
  runClause (.zoomRelease src chain) s fun s => zoomStop s src.fn chain.toNat true

def execZoomSuspend (src : Src) (chain : U8) (s : State) : Host.Outcome State Fault Refusal :=
  runClause (.zoomSuspend src chain) s fun s => zoomStop s src.fn chain.toNat false

/-- The first ZOOM record boundary that rows not yet released reach. -/
def resumeBoundary (s : State) (c : Chain) : Nat :=
  let b := roundUp (max c.nOut (s.intake.front * c.m / c.rd)) c.tz
  if rowOf c b ≥ s.intake.front then b else b + c.tz

/-- ZOOM_RESUME, an admitting Clause: filters restart from zero history, F is kept, and the chain re-enters OFF. -/
def zoomResume (s : State) (f : Fn) (i : Nat) : Result := do
  admitGate s
  let c ← findChain s i
  refuseIf (c.state != .suspended) stBadParam 8
  let fed ← chainBeam s c.beam c 8 8
  ownChain s f i
  refuseIf (s.worldOfProduct fed != worldOf f) stWorldDenied 8
  let b := resumeBoundary s c
  let d := { c.det with det := .off, run := none, learnSum := 0, learnCount := 0 }
  let c1 := { restartChain c (rowOf c b) b with state := .run, stop := none, det := d }
  let wake (t : State) (p : Nat × Nat) : State := match t.product p.1 with
    | some x => t.setProduct p.1 { x with suspended := false }
    | none => t
  let s1 := (chainProducts c).foldl wake (s.setChain i c1)
  admission s s1 (worldOf f)
  deferred s1 4 b

/-! ### FIR banks (08 R243 to R245) -/

/-- A chain has taken its first row. -/
def chainStarted (s : State) (c : Chain) : Bool := decide (c.row < s.intake.front) || decide (c.first < c.nOut)

/-- ZOOM_FIR_LOAD. -/
def firLoad (s : State) (f : Fn) (i bank l sh delay : Nat) (buf : HBuf) (data : HRead) : Result := do
  let c ← namedChain s f i
  refuseIf (bank > 1) stBadParam 9
  refuseIf (l == 0 || l > 1024) stBadParam 10
  refuseIf (c.state == .run && chainStarted s c && (bank == 1) == c.active) stBadParam 9
  refuseIf c.switch.isSome stBusy 8
  if buf.len.toNat != 4 * l then badLength (4 * l) buf.len.toNat
  else
    let bs ← readBuf buf data
    let b : FirBank := { coefs := words32 bs l, sh := sh, delay := delay }
    firChecks b l 10 12 14 48
    rateChecks s c l 8 10
    done (s.setChain i (if bank = 1 then { c with bankB := b } else { c with bankA := b }))

def execZoomFirLoad (src : Src) (chain bank : U8) (len : U16) (shift : U8) (delay : U16) (buf : HBuf) (data : HRead)
    (s : State) : Host.Outcome State Fault Refusal :=
  runClause (.zoomFirLoad src chain bank len shift delay buf data) s fun s =>
    firLoad s src.fn chain.toNat bank.toNat len.toNat shift.toNat delay.toNat buf data

/-- The first output index whose referred time under a G2 and EXT_DELAY is at or after a Plinth time. -/
def indexBy (s : State) (c : Chain) (r : Nat × Int) (u : Nat) : Nat :=
  let x : Int := ((u : Int) + r.2 - (s.intake.t0 : Int)) * (2 * c.m * s.intake.num : Nat)
  let d : Nat := s.intake.den * second
  -- 2 n R_d d ≥ x + G2 d, before rounding
  let guess := (-(-(x + (r.1 * d : Nat)) / (2 * c.rd * d : Nat))).toNat
  let near := (List.range 3).map fun k => guess - 1 + k
  (near.find? fun (n : Nat) => decide ((u : Int) ≤ refTimeBy s c r (n : Int))).getD (guess + 2)

/-- The first output index whose referred time is at or after a Plinth time, over the changes still ahead (08 R245). -/
def indexAt (s : State) (c : Chain) (u : Nat) : Nat :=
  (refChanges c).foldl (fun n b => if n < b then n else max b (indexBy s c (refAt c b) u)) (indexBy s c (refAt c c.nOut) u)

/-- ZOOM_FIR_SWITCH: ahead is counted from the chain's next output index (log 45). -/
def firSwitch (s : State) (f : Fn) (i byTime fade : Nat) (time : U96) : Result := do
  let c ← namedChain s f i
  refuseIf (byTime > 1) stBadParam 9
  refuseIf (!(fade == 0 || (fade ≤ 4096 && 2 ^ Nat.log2 fade == fade))) stBadParam 10
  refuseIf (byTime == 0 && time.toNat ≥ 2 ^ 64) stBadParam 24
  refuseIf (byTime == 1 && !timeOk time) stBadParam 16
  let at_ := if byTime = 1 then indexAt s c (timeOf time) else time.toNat
  refuseIf (at_ < c.nOut || refTime s c at_ < refTime s c c.nOut + (50 * micros : Nat)) stBadParam 16
  refuseIf (c.bankA.delay != c.bankB.delay && (at_ % c.tz != 0 || fade != 0)) stBadParam 16
  refuseIf c.switch.isSome stBusy 8
  deferred (s.setChain i { c with switch := some { at_ := at_, fade := fade } }) 4 at_

def execZoomFirSwitch (src : Src) (chain byTime : U8) (fade : U16) (time : U96) (s : State) :
    Host.Outcome State Fault Refusal :=
  runClause (.zoomFirSwitch src chain byTime fade time) s fun s => firSwitch s src.fn chain.toNat byTime.toNat fade.toNat time

/-! ### Settings (08 R246, R255, R264, R271) -/

/-- ZOOM_SET_TUNE: M, s0, the handle and H must be unchanged. -/
def setTune (s : State) (f : Fn) (i : Nat) (bs : List Byte) : Result := do
  let c ← namedChain s f i
  let off (k : Nat) : Nat := 16 + k
  tuneChecks bs off
  refuseIf (field bs 1 1 != c.m) stBadParam 17
  refuseIf (field bs 2 2 != c.slot0) stBadParam 18
  refuseIf (field bs 4 1 != c.proto) stBadParam 20
  refuseIf (field bs 7 1 != c.halfBands) stBadParam 23
  deferred (s.setChain i { c with nextTune := some (zoomBoundary c, blockTune bs) }) 4 (zoomBoundary c)

def execZoomSetTune (src : Src) (chain : U8) (block : BitVec 256) (s : State) : Host.Outcome State Fault Refusal :=
  runClause (.zoomSetTune src chain block) s fun s => setTune s src.fn chain.toNat (leBytes 32 block.toNat)

/-- ZOOM_SET_ALIGN. -/
def setAlign (s : State) (f : Fn) (i : Nat) (bs : List Byte) : Result := do
  let c ← namedChain s f i
  let off (k : Nat) : Nat := k - 32
  alignChecks bs off
  deferred (s.setChain i { c with nextAlign := some (zoomBoundary c, blockAlign bs) }) 4 (zoomBoundary c)

def execZoomSetAlign (src : Src) (chain : U8) (block : BitVec 128) (s : State) : Host.Outcome State Fault Refusal :=
  runClause (.zoomSetAlign src chain block) s fun s => setAlign s src.fn chain.toNat (leBytes 16 block.toNat)

/-- ZOOM_SET_DETECT: from the next interval boundary of the new n_det. -/
def setDetect (s : State) (f : Fn) (i : Nat) (bs : List Byte) : Result := do
  let c ← namedChain s f i
  let off (k : Nat) : Nat := k - 48
  detectChecks bs off
  pinWorld s (worldOf f) bs (off 85)
  let d := blockDetect bs
  let b := roundUp c.nOut (2 ^ d.log2N)
  let keep := c.nextDetect.filter fun x => x.1 < b
  deferred (s.setChain i { c with nextDetect := keep ++ [(b, d)] }) 4 b

def execZoomSetDetect (src : Src) (chain : U8) (block : BitVec 320) (s : State) : Host.Outcome State Fault Refusal :=
  runClause (.zoomSetDetect src chain block) s fun s => setDetect s src.fn chain.toNat (leBytes 40 block.toNat)

/-- The next interval boundary, after the chain's next output index (08 R255; log 43). -/
def intervalBoundary (c : Chain) : Nat :=
  let n := 2 ^ (detectAt c c.nOut).log2N
  (c.nOut / n + 1) * n

/-- ZOOM_REBASELINE: from the next interval boundary. A seed that the chain does not have is BAD_PARAM. -/
def rebaseline (s : State) (f : Fn) (i kind value : Nat) : Result := do
  let c ← namedChain s f i
  refuseIf c.event.isNone stBadParam 8
  refuseIf (kind > 2 || (kind == 0 && c.seed.isNone)) stBadParam 9
  let b := intervalBoundary c
  let r : Rebase := if kind = 0 then .seed else if kind = 1 then .value value else .learn
  deferred (s.setChain i { c with nextRebase := some (b, r) }) 4 b

def execZoomRebaseline (src : Src) (chain kind : U8) (value : U64) (s : State) : Host.Outcome State Fault Refusal :=
  runClause (.zoomRebaseline src chain kind value) s fun s => rebaseline s src.fn chain.toNat kind.toNat value.toNat

/-- ZOOM_CAPTURE_NOW: the capture is open from the Clause on (08 R259, R261; log 45). -/
def captureNow (s : State) (f : Fn) (i index : Nat) : Result := do
  let c ← namedChain s f i
  refuseIf (c.capture.isNone || c.state != .run) stBadParam 8
  let n := if index = 0 then c.nOut else index
  refuseIf (n > c.nOut && refTime s c n > refTime s c c.nOut + (60 * second : Nat)) stBadParam 16
  refuseIf c.opened.isSome stBusy 8
  match freeCapSlot s c with
  | none => refuse stBusy 8
  | some k => deferred (openCapture s i k 0x80 n) 5 c.nextCapture

def execZoomCaptureNow (src : Src) (chain : U8) (index : U64) (s : State) : Host.Outcome State Fault Refusal :=
  runClause (.zoomCaptureNow src chain index) s fun s => captureNow s src.fn chain.toNat index.toNat

/-- ZOOM_SET_ROUTE. -/
def zoomSetRoute (s : State) (f : Fn) (i which : Nat) (route : U32) : Result := do
  let c ← findChain s i
  let pid ← orRefuse (if which = 0 then some c.zoom else if which = 1 then c.event else if which = 2 then c.capture else none)
    stBadParam 9
  let p ← orRefuse (s.product pid) stBadParam 9
  setRoute s f p route 12

def execZoomSetRoute (src : Src) (chain which : U8) (route : U32) (s : State) : Host.Outcome State Fault Refusal :=
  runClause (.zoomSetRoute src chain which route) s fun s => zoomSetRoute s src.fn chain.toNat which.toNat route

/-- What ZOOM_QUERY reports of one chain (08 R271). -/
def chainItem (s : State) (i : Nat) : ChainItem :=
  let c := s.chain i
  { chain := i, settings := chainSettings c, g2 := groupDelay2 c c.bank c.align.a, latency := chainLatency c,
    ring := allocOf s (.capRing i), slots := allocOf s (.chainEmit i) }

/-- What ZOOM_QUERY reports: the defined chains of the world. -/
def chainReport (s : State) (f : Fn) : Report :=
  .chains (((List.range 64).filter fun i =>
    (s.chain i).state != .undefined && seenBy f (vget s.world.chains i .secure)).map (chainItem s))

def execZoomQuery (src : Src) (buf : HBuf) (s : State) : Host.Outcome State Fault Refusal :=
  runClause (.zoomQuery src buf) s fun s => answerReport s src buf (chainReport s src.fn)

end Sys2Proof.Machine
end

