-- ==== Sys2Proof/Machine/GlossRun.lean ====
section
/-! DEFINITION. Running the Gloss cores: traps, EMIT and the DERIVED records, the feed of a core, and one instruction (09 R274
to R300). -/

namespace Sys2Proof.Machine

/-- The world of a core (09 R273). -/
def coreWorld (s : State) (i : Nat) : World := vget s.world.cores i .secure

/-- Change core i. -/
def onCore (s : State) (i : Nat) (f : Core → Core) : State := s.setCore i (f (s.core i))

/-! ### DERIVED records on their way (09 R296, R298) -/

/-- A record of the DERIVED product queued behind those that have not left. -/
def queueItem (s : State) (i : Nat) (x : DerivItem) : State := onCore s i fun c => { c with closed := c.closed ++ [x] }

/-- A record of the DERIVED product takes the next number and is queued (09 R296, 05 R161). -/
def numberItem (s : State) (i pid : Nat) (x : Nat → DerivItem) : State :=
  let n := takeNumber s pid
  queueItem n.1 i (x n.2)

/-- The ERROR records that the DERIVED product owes take their numbers first (17 R484). -/
def queueErrors (s : State) (i pid start span time : Nat) : State :=
  match s.product pid with
  | none => s
  | some p =>
    let item (e : OwedErr) (n : Nat) : DerivItem :=
      { seq := n, slot := none, entry := some e.entry, start := start, span := span, aux := 0, time := time, flags := 0,
        len := 0, cause := 0, first := 0, count := 0 }
    p.owedErrs.foldl (fun t e => numberItem t i pid (item e)) (s.setProduct pid { p with owedErrs := [] })

/-- A record of the DERIVED product is queued behind the ERROR records it owes. No record begins after a class F fault (17
R486). -/
def queueDerived (s : State) (i pid start span time : Nat) (x : Nat → DerivItem) : State :=
  if s.err.fault then s else numberItem (queueErrors s i pid start span time) i pid x

/-- A GAP record of the DERIVED product (09 R300, R304, 05 R168): causes 1 SUSPENDED, 3 POISON. -/
def queueGap (s : State) (i pid cause first count start time : Nat) : State :=
  queueDerived s i pid start 0 time fun n =>
    { seq := n, slot := none, entry := none, start := start, span := 0, aux := 0, time := time, flags := 0, len := 0,
      cause := cause, first := first, count := count }

/-- A queued GAP or ERROR record leaves. -/
def sendAside (s : State) (pid : Nat) (x : DerivItem) : State :=
  match x.entry with
  | some e => sendNumbered s pid x.seq (errorOut { entry := e, key := none } x.start x.span x.time)
  | none => sendGap s pid x.seq x.cause 7 x.first x.count x.start x.span x.time

/-- GAP and ERROR records at the head of the queue leave at once: the declared rate is for closed records. -/
def sendAsides (s : State) (i pid : Nat) : State :=
  (s.core i).closed.foldl (fun t _ =>
    match (t.core i).closed with
    | x :: rest =>
      if x.slot.isNone then sendAside (onCore t i fun c => { c with closed := rest }) pid x else t
    | [] => t) s

/-- The end of what the DERIVED product has emitted and closed. -/
def derivedEnd (s : State) (i pid : Nat) : Nat :=
  ((s.core i).closed.filter fun x => x.slot.isSome).foldl (fun e x => max e (x.start + x.span))
    (((s.product pid).map Product.ep).getD 0)

/-- A GAP record of the DERIVED product from its end on, cause SUSPENDED or POISON. -/
def gapDerived (s : State) (i pid cause : Nat) : State :=
  let start := derivedEnd s i pid
  sendAsides (queueGap s i pid cause 0 0 start (s.timeAt start)) i pid

/-- A quota cut has selected a product that has not stopped (16 R466). -/
def cutSelects (s : State) (pid : Nat) : Bool := s.world.cuts.any fun c => c.selected.contains pid

/-- A CLOSE ends a DERIVED product that a quota cut selected: its core is halted there, and the product suspends with its GAP
record (16 R466). -/
def haltCut (s : State) (i pid : Nat) : State :=
  let s1 := gapDerived (onCore s i fun c => { c with state := .halted }) i pid 1
  productStopped (suspendProduct s1 pid) pid

/-- The open DERIVED record is abandoned: it has taken no number (09 R275, R300). -/
def abandon (c : Core) : Core :=
  match c.opened with
  | some o => { c with opened := none, slots := vset c.slots o.slot .free }
  | none => c

/-! ### Traps (09 R300) -/

/-- A trap stops the core before the instruction completes: FAULTED, LAST_TRAP, a class L record, the open record
abandoned, and a GAP record of the DERIVED product, unless a detachment has queued its last one. Causes 8 to 10 are
uncorrectable ECC errors, which also raise EMIT_POISON for the product (17 R477; log 81). -/
def coreTrap (s : State) (i cause : Nat) : State :=
  let s1 := onCore s i fun c =>
    { abandon c with state := .faulted, waiting := none, lastTrap := { pc := c.pc.toNat, cause := cause } }
  let s2 := raise s1 0x0702 .l (coreWorld s i) i 0
  match (s.core i).attach with
  | some a =>
    let ecc : Bool := decide (8 ≤ cause ∧ cause ≤ 10)
    let s3 := if ecc then raiseProduct s2 0x0402 a.derived 1 .next else s2
    if a.gapMade then s3 else gapDerived s3 i a.derived (if ecc then 3 else 1)
  | none => s2

/-! ### EMIT (09 R297 to R299) -/

/-- Payload bytes a slot holds. -/
def slotRoom (a : Attach) : Nat := 2 ^ a.slotLog2 - 64

/-- The HBM address of a slot. -/
def slotAddr (a : Attach) (k : Nat) : Nat := a.slotBase + k * 2 ^ a.slotLog2

/-- The emit slot holds no record: unused, or its record has left every destination (09 R298). -/
def coreSlotFree (s : State) (a : Attach) (x : CoreSlot) : Bool :=
  match x with
  | .free => true
  | .leaving seq => recordGone s a.derived seq
  | _ => false

/-- The first free emit slot of a core. -/
def freeCoreSlot (s : State) (c : Core) (a : Attach) : Option Nat :=
  [0, 1].find? fun k => coreSlotFree s a (vget c.slots k .opened)

/-- A packed word and whether it was limited (09 R297). -/
def packWord (mode : Nat) (w : Nat) : List Byte × Bool :=
  match mode with
  | 0 => (leBytes 3 w, false)
  | 1 => let r := clampAbs (toSigned 24 w) 127; (leInt 1 r.1, r.2)
  | 2 => let r := clampAbs (toSigned 24 w) 32767; (leInt 2 r.1, r.2)
  | 3 => (leBytes 2 w, false)
  | _ => (leInt 4 (toSigned 24 w), false)

/-- Payload bytes appended to the open record; bytes beyond its slot are discarded, and EOV sets (09 R298). -/
def appendPiece (s : State) (i : Nat) (a : Attach) (bytes : List Byte) (limited : Bool) : State :=
  match (s.core i).opened with
  | none => s
  | some o =>
    let fit := bytes.take (slotRoom a - o.len)
    let cut : Bool := decide (fit.length < bytes.length)
    let s1 := s.store (slotAddr a o.slot + 64 + o.len) fit
    onCore s1 i fun c =>
      { c with opened := some { o with len := o.len + fit.length }, eov := c.eov || cut, emEov := c.emEov || cut,
               sat := c.sat || limited, emSat := c.emSat || limited }

/-- A number of the header block: words as halfwords, low first. -/
def halves (ws : List Nat) (off n : Nat) : Nat :=
  (List.range n).foldl (fun v k => v + ws.getD (off + k) 0 % 65536 * 2 ^ (16 * k)) 0

/-- The source frames that a record closed now inherits from (09 R299). -/
def inherited (c : Core) : List SrcFrame :=
  c.frames.filter fun f => f.passed || decide ((c.inRd.toNat + 2 ^ 24 - f.first) % 2 ^ 24 < f.words)

/-- The flags of a DERIVED record (09 R299). Only the flags that the table lists can be requested or inherited. -/
def derivedFlags (c : Core) (requested : Nat) (vreq avok : Bool) : Nat :=
  let fs := inherited c
  let has (b : Nat) : Bool := bitOf requested b || fs.any fun f => bitOf f.flags b
  let verified := vreq && fs.all (fun f => bitOf f.flags 0) && (!c.emAv || avok)
  (if verified then flagVerified else 0) + (if has 1 then flagPartial else 0) + (if has 2 then flagTakeover else 0) +
    (if has 3 then flagStale else 0) + (if has 4 || c.emSat || (c.emAv && !avok) then flagSaturated else 0) +
    (if has 5 || (fs.any SrcFrame.gap) || c.emEov || c.collide then flagFlagged else 0) +
    (if has 7 then flagUnprotected else 0)

/-- The emitter after a CLOSE: its flags clear, no frame counts as passed, and frames wholly released are forgotten. -/
def afterClose (c : Core) : Core :=
  let live := c.frames.filter fun f =>
    decide ((f.first + 2 ^ 24 - c.inRd.toNat) % 2 ^ 24 < 2 ^ 23) ||
      decide ((c.inRd.toNat + 2 ^ 24 - f.first) % 2 ^ 24 < f.words)
  { c with opened := none, emAv := false, emSat := false, emEov := false, collide := false,
           derivedRecords := c.derivedRecords + 1, frames := live.map fun f => { f with passed := false } }

/-- A CLOSE after the detachment has queued the product's last GAP record: the record takes no number (09 R304; log 82). -/
def discardRecord (c : Core) (k : Nat) : Core :=
  { afterClose c with derivedRecords := c.derivedRecords, slots := vset c.slots k .free }

/-- CLOSE: zero bytes pad the payload to a multiple of 8, and the record takes its number (09 R296, R297). -/
def closeRecord (s : State) (i : Nat) (a : Attach) (f : EF) : State :=
  match (s.core i).opened with
  | none => s
  | some o => if a.gapMade then onCore s i fun c => discardRecord c o.slot else
    let s1 := appendPiece s i a (zeros (roundUp o.len 8 - o.len)) false
    let c := s1.core i
    let len := roundUp o.len 8
    let h := o.header
    let start := halves h 0 4
    let span := halves h 4 2
    let time := timeOf (BitVec.ofNat 96 (halves h 10 6))
    let s2 := s1.setCore i { afterClose c with slots := vset c.slots o.slot .closed }
    let s3 := sendAsides (queueDerived s2 i a.derived start span time fun n =>
      { seq := n, slot := some o.slot, entry := none, start := start, span := span, aux := halves h 6 4, time := time,
        flags := derivedFlags c (h.getD 16 0) f.vreq f.avok, len := len, cause := 0, first := 0, count := 0 }) i a.derived
    if cutSelects s3 a.derived then haltCut s3 i a.derived else s3

/-- The words that EMIT reads through its pointer. -/
def emitWords (s : State) (i : Nat) (f : EF) (n : Nat) : State × List Nat :=
  let r := takeWords f.inY f.ptr.val .inc n (s.core i)
  (s.setCore i r.2, r.1)

/-- An OPEN piece: its first 20 words are the header block. Words that the piece is too short to hold are free values. -/
def openHeader (s : State) (ws : List Nat) : State × List Nat :=
  let missing := 20 - ws.length
  let r := (List.range missing).foldl (fun (p : State × List Nat) _ =>
    let x := p.1.free (2 ^ 24)
    (x.2, p.2 ++ [x.1])) (s, [])
  (r.1, ws.take 20 ++ r.2)

/-- The piece's words and bytes go into the open record, and CLOSE closes it. -/
def emitPiece (s : State) (i : Nat) (a : Attach) (f : EF) (ws : List Nat) : State :=
  let packed := ws.map (packWord f.mode.val)
  let s1 := appendPiece s i a (packed.flatMap Prod.fst) (packed.any Prod.snd)
  if f.cls then closeRecord s1 i a f else s1

/-- n of an EMIT: the value of its V register; one outside 1 to 32,768 has no meaning in the spec, and a free value in the
range stands for it. -/
def emitCount (s : State) (i : Nat) (f : EF) : State × Nat :=
  let v := (s.core i).vr f.v.val
  if 1 ≤ v ∧ v ≤ 32768 then (s, v.toNat)
  else
    let r := s.free 32768
    (r.2, r.1 + 1)

/-- EMIT with its record open, or with a slot to open one in. Its cycles are 4 and half its words, rounded up (09 R289). -/
def emitNow (s : State) (i : Nat) (a : Attach) (f : EF) (slot : Option Nat) : State :=
  let n := emitCount s i f
  let r := emitWords n.1 i f n.2
  let s1 := match slot with
    | some k =>
      let h := openHeader r.1 r.2
      let s2 := onCore h.1 i fun c =>
        { c with opened := some { header := h.2, slot := k, len := 0 }, slots := vset c.slots k .opened }
      emitPiece s2 i a f (r.2.drop 20)
    | none => emitPiece r.1 i a f r.2
  onCore s1 i fun c => spend (skip c 1) (ceilDiv n.2 2 + 4) 0

/-- EMIT: BAD_PACK and EMIT_SEQUENCE trap; an OPEN waits while both slots hold records (09 R297, R298). A core without an
attachment, or one that is being detached, has no slot, so its OPEN waits. -/
def coreEmit (s : State) (i : Nat) (f : EF) : State :=
  let c := s.core i
  if f.mode.val ≥ 5 then coreTrap s i 0xB
  else if f.opn = c.opened.isSome then coreTrap s i 7
  else
    match c.attach with
    | none => s.setCore i { c with waiting := some (.emitOpen f s.now) }
    | some a =>
      if f.opn then
        match (if a.detaching then none else freeCoreSlot s c a) with
        | some k => emitNow s i a f (some k)
        | none => s.setCore i { c with waiting := some (.emitOpen f s.now) }
      else emitNow s i a f none

/-! ### One instruction -/

/-- LEN of the inbound area; 0 without an attachment. -/
def inboundLen (c : Core) : Nat := match c.attach with
  | some a => 2 ^ a.inLog2
  | none => 0

/-- Words that the core has not released. -/
def inboundHeld (c : Core) : Nat := (c.inWr - c.inRd).toNat

/-- WAITF n (09 R294). -/
def coreWaitf (s : State) (i : Nat) (n : Nat) : State :=
  let c := s.core i
  let need := if n = 0 then 16384 else n
  if need > inboundLen c then coreTrap s i 6
  else if inboundHeld c ≥ need then s.setCore i (spend (skip c 1) 1 0)
  else s.setCore i { c with waiting := some (.waitf need s.now) }

/-- Push a loop whose body runs from the next instruction to `last` (09 R286). -/
def pushLoop (s : State) (i : Nat) (last count : Nat) : State :=
  let c := s.core i
  if c.loops.length ≥ 4 then coreTrap s i 3
  else
    s.setCore i (spend (skip { c with loops := { first := nextAddr c.pc.toNat, last := last, left := count } :: c.loops } 1) 2 0)

/-- LOOPD with count 0 skips the body: what follows is what follows the body's last instruction (09 R286). -/
def skipBody (c : Core) (last : Nat) : Core :=
  let r := loopEnd last c.loops
  { c with loops := r.1, pc := BitVec.ofNat 14 r.2 }

/-- A taken branch (09 R287). -/
def jump (c : Core) (target : Nat) : Core := { c with loops := popLoops target c.loops, pc := BitVec.ofNat 14 target }

/-- A branch, call or return (09 R287, R291). -/
def coreBranch (s : State) (i : Nat) (op : BOp) (target : Nat) : State :=
  let c := s.core i
  match op with
  | .call =>
    if c.calls.length ≥ 8 then coreTrap s i 4
    else s.setCore i (spend { c with calls := nextAddr c.pc.toNat :: c.calls, pc := BitVec.ofNat 14 target } 3 0)
  | .ret =>
    match c.calls with
    | [] => coreTrap s i 5
    | t :: rest => s.setCore i (spend { c with calls := rest, pc := BitVec.ofNat 14 t } 3 0)
  | _ => s.setCore i (if taken c op then spend (jump c target) 3 0 else spend (skip c 1) 1 0)

/-- EVT n: CORE_EVT and the GLOSS interrupt of the core's function (09 R291, 11 R363). -/
def coreEvt (s : State) (i n : Nat) : State :=
  let s1 := onCore s i fun c => spend (skip { c with evt := c.evt ||| BitVec.ofNat 8 (2 ^ n) } 1) 1 0
  sendVector s1 (fnOf (coreWorld s i)) 2

/-- What an instruction does, at a core that may run it. -/
def coreDo (s : State) (i : Nat) (g : GInstr) : State :=
  let c := s.core i
  let cyc := cyclesOf c g
  match g with
  | .p op f =>
    let r := if op = .bfly ∧ f.a.val = f.n.val % 4 then s.free (2 ^ 56) else (0, s)
    r.2.setCore i (spend (advance (transfer c (pOp c op f r.1) f.x)) cyc 0)
  | .r op f => s.setCore i (spend (advance (rOp c i op f)) cyc 0)
  | .m op f => s.setCore i (spend (advance (mOp c op f)) cyc 0)
  | .branch op t => coreBranch s i op t.toNat
  | .loop n l => pushLoop s i l.toNat (n.toNat + 1)
  | .loopd v l =>
    let n := (c.vr v.val % 65536).toNat
    if n = 0 then s.setCore i (spend (skipBody c l.toNat) 3 0) else pushLoop s i l.toNat n
  | .ldil d x => s.setCore i (spend (skip (writeReg c d.val (toSigned 24 x.toNat)) 2) 2 0)
  | .waitf n => coreWaitf s i n.toNat
  | .emit f => coreEmit s i f
  | .evt n => coreEvt s i n.val
  | .halt => s.setCore i (spend { skip c 1 with state := .halted } 1 0)

/-- The trap that the ECC of an instruction's reads causes, if any (09 R300). -/
def eccTrap (g : GInstr) (e : Ecc) : Option Nat :=
  match e with
  | .badP => some 0xA
  | .badX => if readsMem false g then some 8 else none
  | .badY => if readsMem true g then some 9 else none
  | _ => none

/-- A corrected single-bit error is counted and raised as class C (09 R300). -/
def noteCorrected (s : State) (i : Nat) (e : Ecc) : State :=
  if e = .corrected then
    raise (onCore s i fun c => { c with eccCorr := c.eccCorr + 1 }) 0x0703 .c (coreWorld s i) i 0
  else s

/-- The core issues an instruction: its stalls pass, and it leaves its own hazards (09 R289). -/
def coreIssue (s : State) (i : Nat) (g : GInstr) : State :=
  onCore s i fun c =>
    let st := stallOf c.haz g
    { spend c 0 st with haz := hazardsAfter c.haz g, stored := [] }

/-- The word of the instruction at the PC and the one after it. -/
def fetchPair (c : Core) : Nat × Nat := (wordGet c.pc.toNat c.prog, wordGet (nextAddr c.pc.toNat) c.prog)

/-- Core i runs instruction g when g stands at its PC; a word that is no instruction traps whatever g is. A core that is
clock-gated, not RUNNING or waiting runs nothing. -/
def runGloss (i : Nat) (g : GInstr) (e : Ecc) (s : State) : Host.Outcome State Fault Refusal :=
  let c := s.core i
  if gated s || c.state != .running || c.waiting.isSome then .next s
  else if e = .badP then .next (coreTrap s i 0xA)
  else
    match GInstr.decode (fetchPair c).1 (fetchPair c).2 with
    | none => .next (coreTrap (noteCorrected s i e) i 1)
    | some d =>
      if d ≠ g then .next s
      else
        let s1 := noteCorrected s i e
        if endsLoop c g then .next (coreTrap s1 i 2)
        else
          match eccTrap g e with
          | some cause => .next (coreTrap s1 i cause)
          | none => .next (coreDo (coreIssue s1 i g) i g)

/-! ### Waits (09 R289, R294, R298) -/

/-- GCLK cycles from a Plinth time to now: one is 51,200 units (09 R272). -/
def waitCycles (s : State) (since : Nat) : Nat := (s.now - since) / 51200

/-- The cycles of the wait in progress, which count in CYCLES and STALL_CYCLES as they pass (09 R298, R303). -/
def waited (s : State) (c : Core) : Nat :=
  match c.waiting with
  | some (.waitf _ since) | some (.emitOpen _ since) => waitCycles s since
  | none => 0

/-- A wait ends: it has counted as stalls. -/
def leaveWait (s : State) (c : Core) : Core := spend { c with waiting := none } 0 (waited s c)

/-- A core's wait for the feed ends: the wait counts in its cycles and stalls. -/
def waitfEnd (s : State) (i : Nat) : State :=
  let c := s.core i
  match c.waiting with
  | some (.waitf n _) =>
    if gated s || c.state != .running || inboundHeld c < n then s
    else s.setCore i (spend (skip (leaveWait s c) 1) 1 0)
  | _ => s

def execWaitfSatisfied (core : Fin 32) (s : State) : Host.Outcome State Fault Refusal := .next (waitfEnd s core.val)

/-- A core's wait for an emit slot ends: the EMIT runs. -/
def emitOpenEnd (s : State) (i : Nat) : State :=
  let c := s.core i
  match c.waiting, c.attach with
  | some (.emitOpen f _), some a =>
    if gated s || c.state != .running || a.detaching then s
    else
      match freeCoreSlot s c a with
      | some k => emitNow (s.setCore i (leaveWait s c)) i a f (some k)
      | none => s
  | _, _ => s

def execEmitOpenWaitEnd (core : Fin 32) (s : State) : Host.Outcome State Fault Refusal := .next (emitOpenEnd s core.val)

/-! ### The end of an attachment (09 R304) -/

/-- A detachment begins: no further frame starts, and the GAP record of the DERIVED product is queued behind its closed
records (log 82). -/
def beginDetach (s : State) (i : Nat) (a : Attach) : State :=
  gapDerived (onCore s i fun c => { c with attach := some { a with detaching := true, gapMade := true, recs := [] } }) i a.derived 1

/-- The attachment goes once no frame is in progress and every record has left: its areas and the DERIVED product are
removed, and what is open is abandoned. -/
def finishDetach (s : State) (i : Nat) : State :=
  match (s.core i).attach with
  | none => s
  | some a =>
    if !a.detaching || (s.core i).frame.isSome || (s.core i).closed != [] then s
    else
      let s2 := onCore s i fun c =>
        { abandon c with attach := none, frames := [], slots := Vector.replicate 2 .free, lastOut := [] }
      productStopped ((freeAllocs s2 fun k => k == .feedBuf i || k == .coreSlots i).delProduct a.derived) a.derived

/-! ### DERIVED_RECORD_RELEASE (09 R298) -/

/-- A closed record of `len` bytes may leave now: the bytes of the last two records, over the time since the older of
them, keep the declared rate. -/
def rateAllows (s : State) (c : Core) (a : Attach) : Bool :=
  match c.lastOut.getLast? with
  | none => true
  | some (t, _) => sumNat (c.lastOut.map Prod.snd) * second ≤ a.rate * (s.now - t)

/-- The record as it leaves. -/
def derivedOut (s : State) (a : Attach) (x : DerivItem) (k : Nat) : RecOut :=
  { rtype := 7, flags := x.flags, start := x.start, span := x.span, time := x.time, aux := x.aux,
    payload := s.load (slotAddr a k + 64) x.len }

/-- The oldest closed record leaves its slot; a poisoned slot is told of instead (05 R152, R153). -/
def releaseDerived (s : State) (i : Nat) : State :=
  let c := s.core i
  match c.attach, c.closed with
  | some a, x :: rest =>
    match x.slot with
    | none => sendAsides s i a.derived
    | some k =>
      if gated s || !rateAllows s c a then s
      else
        let base := slotAddr a k + 64
        let bad := poisoned s base (base + x.len)
        let out := (s.now, x.len + 64) :: c.lastOut.take 1
        let s1 := s.setCore i { c with closed := rest, lastOut := out,
                                       slots := vset c.slots k (if bad then .free else .leaving x.seq) }
        let s2 := if bad then
            queueGap (raiseProduct s1 0x0402 a.derived 1 .next) i a.derived 3 x.seq 1 x.start x.time
          else sendNumbered s1 a.derived x.seq (derivedOut s a x k)
        finishDetach (sendAsides s2 i a.derived) i
  | _, _ => finishDetach s i

def execDerivedRecordRelease (core : Fin 32) (s : State) : Host.Outcome State Fault Refusal :=
  .next (releaseDerived s core.val)

/-! ### The feed (09 R293 to R295) -/

/-- Pieces of n bytes, the last zero-filled. -/
def pieces (n : Nat) (bs : List Byte) : List (List Byte) := (List.range (ceilDiv bs.length n)).map fun k => slice bs (k * n) n

/-- A word of 24 bits sign-extended from the little-endian bytes. -/
def signWord (n : Nat) (bs : List Byte) : Nat := (BitVec.ofInt 24 (toSigned (8 * n) (ofLe bs))).toNat

/-- The words of one unpack mode (09 R295). -/
def unpackMode (mode : Nat) (bs : List Byte) : List Nat :=
  match mode with
  | 1 => (pieces 3 bs).map ofLe
  | 2 => (pieces 1 bs).map (signWord 1)
  | 3 => (pieces 2 bs).map (signWord 2)
  | 4 => (pieces 4 bs).flatMap fun p => [ofLe (p.take 2), ofLe (p.drop 2)]
  | 5 => (pieces 8 bs).flatMap fun p => [ofLe (p.take 3), ofLe ((p.drop 3).take 3), bits (ofLe p) 48 3]
  | _ => []

/-- The words of a payload under an unpack program. -/
def unpack : List UnpackSeg → List Byte → List Nat
  | [], _ => []
  | g :: t, bs =>
    let n := g.count.getD bs.length
    unpackMode g.mode (bs.take n) ++ unpack t (bs.drop n)

/-- The words of an inbound frame (09 R293). -/
def frameWords (segs : List UnpackSeg) (rec : List Byte) : List Nat :=
  let w := (pieces 2 (rec.take 64)).map ofLe ++ unpack segs (rec.drop 64)
  [1, w.length % 2 ^ 24, w.length / 2 ^ 24] ++ w

/-- The record at the head of the feed buffer, or the GAP record in its place where a byte of it is poisoned (10 R326). -/
def headRecord (s : State) (a : Attach) (x : FeedRec) : State × List Byte :=
  let size := 2 ^ a.feedLog2
  let off := x.pos % size
  let bad := poisoned s (a.feedBase + off) (a.feedBase + min size (off + x.len)) ||
    (decide (off + x.len > size) && poisoned s a.feedBase (a.feedBase + (off + x.len - size)))
  if bad then
    let pid := a.source.getD 0
    (raiseProduct s 0x0402 pid 1 .next,
     recordBytes 0x0E (gapFlags 3) pid (s.worldOfProduct pid) 0 0 x.seq x.time x.start 0 0 (gapPayload x.seq 1 3 x.rtype))
  else (s, getWrapped s.hbm.mem a.feedBase size x.pos x.len)

/-- The next frame begins: that of the record at the head of the feed buffer (09 R293). -/
def startFrame (s : State) (i : Nat) : State :=
  let c := s.core i
  match c.attach with
  | none => s
  | some a =>
    match a.recs with
    | x :: rest =>
      if c.frame.isSome || a.detaching then s
      else
        let h := headRecord s a x
        let ws := frameWords a.unpack h.2
        onCore h.1 i fun c =>
          { c with frame := some { words := ws, free := x.len }, attach := some { a with recs := rest },
                   frames := c.frames ++ [{ first := c.inWr.toNat, words := ws.length, flags := field h.2 2 2,
                                            gap := field h.2 0 1 == 0x0E, passed := false }] }
    | [] => s

/-- Words of a frame that fit are written (09 R294): the core, the words left and the addresses written. -/
def copyWords (base len : Nat) : List Nat → Core → Core × List Nat × List Nat
  | [], c => (c, [], [])
  | w :: t, c =>
    if inboundHeld c < len then
      let a := (base + c.inWr.toNat % len) % 32768
      let r := copyWords base len t { c with x := wordPut a w c.x, inWr := c.inWr + 1 }
      (r.1, r.2.1, a :: r.2.2)
    else (c, w :: t, [])

/-- Core writes lost because an external write reached the same word in the same cycle (09 R278). -/
def collisions (s : State) (i n : Nat) : State :=
  if n = 0 then s
  else
    (List.range n).foldl (fun t _ => raise t 0x0701 .l (coreWorld s i) i 0)
      (onCore s i fun c => { c with portCollide := c.portCollide + BitVec.ofNat 32 n, collide := true })

/-- The core writes among `written` that the external port overwrote in their own cycle. -/
def lostWrites (c : Core) (inY : Bool) (collide written : List Nat) : Nat :=
  (written.filter fun a => collide.contains a && c.stored.contains (inY, a)).length

/-- The last word of a frame is in: its space is free, the source's pending GAP record is told, and a detachment that
waited goes on. -/
def endFrame (s : State) (i : Nat) : State :=
  let c := s.core i
  match c.frame, c.attach with
  | some f, some a =>
    if f.words = [] then
      let s1 := s.setCore i { c with frame := none, feedFrames := c.feedFrames + 1,
                                     attach := some { a with head := a.head + f.free } }
      finishDetach (feedGap s1 i) i
    else s
  | _, _ => s

/-- The feed engine copies what it can of one frame; `collide` are the words that the core port touches in the same cycle. -/
def feedCopy (s : State) (i : Nat) (collide : List Nat) : State :=
  if gated s then s
  else
    let s1 := startFrame s i
    let c := s1.core i
    match c.frame, c.attach with
    | some f, some a =>
      let r := copyWords a.inBase (2 ^ a.inLog2) f.words c
      let s2 := s1.setCore i { r.1 with frame := some { f with words := r.2.1 } }
      endFrame (collisions s2 i (lostWrites c false collide r.2.2)) i
    | _, _ => s1

def execFeedFrameCopy (core : Fin 32) (collide : List (Fin 32768)) (s : State) : Host.Outcome State Fault Refusal :=
  .next (feedCopy s core.val (collide.map Fin.val))

end Sys2Proof.Machine
end

