-- ==== Sys2Proof/Machine/GlossInstr.lean ====
section
/-! DEFINITION. The Gloss instructions as commands: core number, operand fields and what its memories' ECC reported (09 R291). -/

namespace Sys2Proof.Machine

/-! ### P format -/

def execGNop (core : Fin 32) (f : PF) (e : Ecc) (s : State) : Host.Outcome State Fault Refusal :=
  runGloss core.val (.p .nop f) e s

def execGMpy (core : Fin 32) (f : PF) (e : Ecc) (s : State) : Host.Outcome State Fault Refusal :=
  runGloss core.val (.p .mpy f) e s

def execGMac (core : Fin 32) (f : PF) (e : Ecc) (s : State) : Host.Outcome State Fault Refusal :=
  runGloss core.val (.p .mac f) e s

def execGMsu (core : Fin 32) (f : PF) (e : Ecc) (s : State) : Host.Outcome State Fault Refusal :=
  runGloss core.val (.p .msu f) e s

def execGDmac (core : Fin 32) (f : PF) (e : Ecc) (s : State) : Host.Outcome State Fault Refusal :=
  runGloss core.val (.p .dmac f) e s

def execGCmach (core : Fin 32) (f : PF) (e : Ecc) (s : State) : Host.Outcome State Fault Refusal :=
  runGloss core.val (.p .cmach f) e s

def execGCmacl (core : Fin 32) (f : PF) (e : Ecc) (s : State) : Host.Outcome State Fault Refusal :=
  runGloss core.val (.p .cmacl f) e s

def execGCmacjl (core : Fin 32) (f : PF) (e : Ecc) (s : State) : Host.Outcome State Fault Refusal :=
  runGloss core.val (.p .cmacjl f) e s

def execGPwr (core : Fin 32) (f : PF) (e : Ecc) (s : State) : Host.Outcome State Fault Refusal :=
  runGloss core.val (.p .pwr f) e s

def execGClr (core : Fin 32) (f : PF) (e : Ecc) (s : State) : Host.Outcome State Fault Refusal :=
  runGloss core.val (.p .clr f) e s

def execGAdd (core : Fin 32) (f : PF) (e : Ecc) (s : State) : Host.Outcome State Fault Refusal :=
  runGloss core.val (.p .add f) e s

def execGSub (core : Fin 32) (f : PF) (e : Ecc) (s : State) : Host.Outcome State Fault Refusal :=
  runGloss core.val (.p .sub f) e s

def execGAddq (core : Fin 32) (f : PF) (e : Ecc) (s : State) : Host.Outcome State Fault Refusal :=
  runGloss core.val (.p .addq f) e s

def execGSubq (core : Fin 32) (f : PF) (e : Ecc) (s : State) : Host.Outcome State Fault Refusal :=
  runGloss core.val (.p .subq f) e s

def execGAddw (core : Fin 32) (f : PF) (e : Ecc) (s : State) : Host.Outcome State Fault Refusal :=
  runGloss core.val (.p .addw f) e s

def execGSubw (core : Fin 32) (f : PF) (e : Ecc) (s : State) : Host.Outcome State Fault Refusal :=
  runGloss core.val (.p .subw f) e s

def execGBfly (core : Fin 32) (f : PF) (e : Ecc) (s : State) : Host.Outcome State Fault Refusal :=
  runGloss core.val (.p .bfly f) e s

def execGTfr (core : Fin 32) (f : PF) (e : Ecc) (s : State) : Host.Outcome State Fault Refusal :=
  runGloss core.val (.p .tfr f) e s

def execGNeg (core : Fin 32) (f : PF) (e : Ecc) (s : State) : Host.Outcome State Fault Refusal :=
  runGloss core.val (.p .neg f) e s

def execGAbs (core : Fin 32) (f : PF) (e : Ecc) (s : State) : Host.Outcome State Fault Refusal :=
  runGloss core.val (.p .abs f) e s

def execGAsr (core : Fin 32) (f : PF) (e : Ecc) (s : State) : Host.Outcome State Fault Refusal :=
  runGloss core.val (.p .asr f) e s

def execGAsl (core : Fin 32) (f : PF) (e : Ecc) (s : State) : Host.Outcome State Fault Refusal :=
  runGloss core.val (.p .asl f) e s

def execGTst (core : Fin 32) (f : PF) (e : Ecc) (s : State) : Host.Outcome State Fault Refusal :=
  runGloss core.val (.p .tst f) e s

def execGLdq (core : Fin 32) (f : PF) (e : Ecc) (s : State) : Host.Outcome State Fault Refusal :=
  runGloss core.val (.p .ldq f) e s

/-! ### R format -/

def execGMov (core : Fin 32) (f : RF) (e : Ecc) (s : State) : Host.Outcome State Fault Refusal :=
  runGloss core.val (.r .mov f) e s

def execGLdi (core : Fin 32) (f : RF) (e : Ecc) (s : State) : Host.Outcome State Fault Refusal :=
  runGloss core.val (.r .ldi f) e s

def execGRnd (core : Fin 32) (f : RF) (e : Ecc) (s : State) : Host.Outcome State Fault Refusal :=
  runGloss core.val (.r .rnd f) e s

def execGExpw (core : Fin 32) (f : RF) (e : Ecc) (s : State) : Host.Outcome State Fault Refusal :=
  runGloss core.val (.r .expw f) e s

def execGPaddi (core : Fin 32) (f : RF) (e : Ecc) (s : State) : Host.Outcome State Fault Refusal :=
  runGloss core.val (.r .paddi f) e s

def execGSetbs (core : Fin 32) (f : RF) (e : Ecc) (s : State) : Host.Outcome State Fault Refusal :=
  runGloss core.val (.r .setbs f) e s

def execGSetex (core : Fin 32) (f : RF) (e : Ecc) (s : State) : Host.Outcome State Fault Refusal :=
  runGloss core.val (.r .setex f) e s

def execGClrf (core : Fin 32) (f : RF) (e : Ecc) (s : State) : Host.Outcome State Fault Refusal :=
  runGloss core.val (.r .clrf f) e s

def execGBexpr (core : Fin 32) (f : RF) (e : Ecc) (s : State) : Host.Outcome State Fault Refusal :=
  runGloss core.val (.r .bexpr f) e s

def execGLdw (core : Fin 32) (f : RF) (e : Ecc) (s : State) : Host.Outcome State Fault Refusal :=
  runGloss core.val (.r .ldw f) e s

/-! ### M format -/

def execGLd (core : Fin 32) (f : MF) (e : Ecc) (s : State) : Host.Outcome State Fault Refusal :=
  runGloss core.val (.m .ld f) e s

def execGSt (core : Fin 32) (f : MF) (e : Ecc) (s : State) : Host.Outcome State Fault Refusal :=
  runGloss core.val (.m .st f) e s

def execGStw (core : Fin 32) (f : MF) (e : Ecc) (s : State) : Host.Outcome State Fault Refusal :=
  runGloss core.val (.m .stw f) e s

def execGLdwMem (core : Fin 32) (f : MF) (e : Ecc) (s : State) : Host.Outcome State Fault Refusal :=
  runGloss core.val (.m .ldw f) e s

def execGSavw (core : Fin 32) (f : MF) (e : Ecc) (s : State) : Host.Outcome State Fault Refusal :=
  runGloss core.val (.m .savw f) e s

def execGRstw (core : Fin 32) (f : MF) (e : Ecc) (s : State) : Host.Outcome State Fault Refusal :=
  runGloss core.val (.m .rstw f) e s

/-! ### C format -/

def execGBra (core : Fin 32) (target : BitVec 14) (e : Ecc) (s : State) : Host.Outcome State Fault Refusal :=
  runGloss core.val (.branch .bra target) e s

def execGBeq (core : Fin 32) (target : BitVec 14) (e : Ecc) (s : State) : Host.Outcome State Fault Refusal :=
  runGloss core.val (.branch .beq target) e s

def execGBne (core : Fin 32) (target : BitVec 14) (e : Ecc) (s : State) : Host.Outcome State Fault Refusal :=
  runGloss core.val (.branch .bne target) e s

def execGBlt (core : Fin 32) (target : BitVec 14) (e : Ecc) (s : State) : Host.Outcome State Fault Refusal :=
  runGloss core.val (.branch .blt target) e s

def execGBge (core : Fin 32) (target : BitVec 14) (e : Ecc) (s : State) : Host.Outcome State Fault Refusal :=
  runGloss core.val (.branch .bge target) e s

def execGCall (core : Fin 32) (target : BitVec 14) (e : Ecc) (s : State) : Host.Outcome State Fault Refusal :=
  runGloss core.val (.branch .call target) e s

def execGRet (core : Fin 32) (target : BitVec 14) (e : Ecc) (s : State) : Host.Outcome State Fault Refusal :=
  runGloss core.val (.branch .ret target) e s

def execGLoop (core : Fin 32) (count : BitVec 10) (last : BitVec 14) (e : Ecc) (s : State) :
    Host.Outcome State Fault Refusal :=
  runGloss core.val (.loop count last) e s

def execGLoopd (core : Fin 32) (v : Fin 8) (last : BitVec 14) (e : Ecc) (s : State) :
    Host.Outcome State Fault Refusal :=
  runGloss core.val (.loopd v last) e s

def execGLdil (core : Fin 32) (dst : Fin 32) (imm : BitVec 24) (e : Ecc) (s : State) :
    Host.Outcome State Fault Refusal :=
  runGloss core.val (.ldil dst imm) e s

def execGWaitf (core : Fin 32) (n : BitVec 14) (e : Ecc) (s : State) :
    Host.Outcome State Fault Refusal :=
  runGloss core.val (.waitf n) e s

def execGEmit (core : Fin 32) (f : EF) (e : Ecc) (s : State) :
    Host.Outcome State Fault Refusal :=
  runGloss core.val (.emit f) e s

def execGEvt (core : Fin 32) (n : Fin 8) (e : Ecc) (s : State) :
    Host.Outcome State Fault Refusal :=
  runGloss core.val (.evt n) e s

def execGHalt (core : Fin 32) (e : Ecc) (s : State) :
    Host.Outcome State Fault Refusal :=
  runGloss core.val (.halt) e s

end Sys2Proof.Machine
end

