-- ==== Sys2Proof/Machine/Gloss.lean ====
section
/-! DEFINITION. The GLOSS Clauses (09 R273 to R275, R292, R301, R302, R304). -/

namespace Sys2Proof.Machine

/-- The core a Clause names exists. -/
def findCore (s : State) (i : Nat) : Except Reply Core := do
  refuseIf (i ≥ 32) stBadParam 8
  return s.core i

/-- WORLD_DENIED for a core of the other world (09 R304). -/
def ownCore (s : State) (f : Fn) (i : Nat) : Except Reply Unit :=
  refuseIf (coreWorld s i != worldOf f) stWorldDenied 8

/-- The core a Clause names, where its other parameters are checked after it. -/
def namedCore (s : State) (f : Fn) (i : Nat) : Except Reply Core := do
  let c ← findCore s i
  ownCore s f i
  return c

/-! ### Images (09 R302) -/

/-- The segments of one memory: at offset `off`, `n` of them; the memory, and the offset after them. None for a segment
beyond address 0x7FFF, beyond the image, or with a non-zero byte [31:24] in a word. -/
def imageSegs (bs : List Byte) : Nat → Nat → List (Nat × Nat) → Option (List (Nat × Nat) × Nat)
  | 0, off, m => some (m, off)
  | n + 1, off, m =>
    let start := field bs off 2
    let count := field bs (off + 2) 2
    let ws := (List.range count).map fun k => field bs (off + 4 + 4 * k) 4
    if off + 4 + 4 * count > bs.length || start + count > 0x8000 || ws.any (fun w => w ≥ 2 ^ 24) then none
    else imageSegs bs n (off + 4 + 4 * count) (wordPutAll start ws m)

/-- The bytes that an image needs: its header, or what its length field says. -/
def imageLen (bs : List Byte) : Nat := if bs.length < 32 then 32 else field bs 16 4

/-- P, X, Y and the entry address of an image; none for one that R302 refuses. -/
def readImage (bs : List Byte) : Option (List (Nat × Nat) × List (Nat × Nat) × List (Nat × Nat) × Nat) :=
  let n := field bs 4 4
  if field bs 0 2 != 0x6C05 then none
  else if (crc32c (bs.take 20 ++ zeros 4 ++ bs.drop 24)).toNat != field bs 20 4 then none
  else if n = 0 || n > 16384 || 32 + 4 * n > bs.length then none
  else do
    let prog := wordPutAll 0 ((List.range n).map fun k => field bs (32 + 4 * k) 4) []
    let x ← imageSegs bs (field bs 10 2) (32 + 4 * n) []
    let y ← imageSegs bs (field bs 12 2) x.2 []
    return (prog, x.1, y.1, field bs 8 2 % 16384)

/-- A core with its memories from an image, at its entry address, with no loop, call, wait or open record. -/
def takeImage (c : Core) (m : List (Nat × Nat) × List (Nat × Nat) × List (Nat × Nat) × Nat) : Core :=
  { abandon c with prog := m.1, x := m.2.1, y := m.2.2.1, entry := BitVec.ofNat 14 m.2.2.2,
                   pc := BitVec.ofNat 14 m.2.2.2, loops := [], calls := [], haz := Reset.core.haz, stored := [],
                   waiting := none }

/-- GLOSS_LOAD. -/
def glossLoadC (s : State) (f : Fn) (i : Nat) (buf : HBuf) (data : HRead) : Result := do
  let c ← namedCore s f i
  refuseIf (!domainUp s (i / 8)) stBusy 8
  refuseIf (c.state == .running || c.state == .halted) stBusy 8
  let bs ← readBuf buf data
  refuseIf (bs.length ≥ 2 && field bs 0 2 != 0x6C05) stBadParam 48
  if bs.length ≠ imageLen bs then badLength (imageLen bs) bs.length
  else match readImage bs with
  | none => refuse stBadParam 48
  | some m =>
    let s1 := s.setCore i { takeImage c m with state := .loaded, commanded := .loaded, image := bs }
    quotaCheck s s1 (worldOf f)
    done s1

def execGlossLoad (src : Src) (core : U8) (buf : HBuf) (data : HRead) (s : State) : Host.Outcome State Fault Refusal :=
  runClause (.glossLoad src core buf data) s fun s => glossLoadC s src.fn core.toNat buf data

/-- Starting the core of a DERIVED product that a quota cut suspended resumes the product: admission is run again (16 R467;
log 61). -/
def resumeDerived (s : State) (f : Fn) (c : Core) : Except Reply State :=
  match c.attach.bind fun a => s.product a.derived with
  | some p =>
    if p.suspended then do
      let s1 := s.setProduct p.pid { p with suspended := false }
      admission s s1 (worldOf f) (.ok ())
      return s1
    else return s
  | none => return s

/-- GLOSS_START: a loaded core from its entry address, a halted one at its next instruction. -/
def glossStartC (s : State) (f : Fn) (i : Nat) : Result := do
  let c ← findCore s i
  refuseIf (c.state != .loaded && c.state != .halted) stBadParam 8
  ownCore s f i
  let pc := if c.state = .loaded then c.entry else c.pc
  let s ← resumeDerived s f c
  done (s.setCore i { c with state := .running, commanded := .running, pc := pc, timer := 0 })

/-- GLOSS_STOP: the boundary is the one before the next instruction; a wait ends there and has counted, and an open DERIVED
record is abandoned (09 R275, R298). The Clause waits until the core is halted (11 R351). -/
def glossStopC (s : State) (f : Fn) (i : Nat) : Result := do
  let c ← namedCore s f i
  refuseIf (c.state != .running && c.state != .halted) stBadParam 8
  if c.state = .halted then waits (s.setCore i { c with commanded := .halted }) [i]
  else waits (s.setCore i { abandon (leaveWait s c) with state := .halted, commanded := .halted }) [i]

def execGlossStop (src : Src) (core : U8) (s : State) : Host.Outcome State Fault Refusal :=
  runClause (.glossStop src core) s fun s => glossStopC s src.fn core.toNat

/-! ### Attachments (09 R292, R295, R298) -/

/-- An unpack segment of a Clause: a byte count of 0 is the rest of the payload. -/
def clauseSeg (x : U32) : UnpackSeg :=
  let n := bits x.toNat 0 28
  { count := if n = 0 then none else some n, mode := bits x.toNat 28 3 }

/-- The largest record of a DERIVED product. -/
def derivedMax (log2Slot : Nat) : Nat := 2 ^ log2Slot

/-- The demand of a DERIVED product: its declared rate (09 R298); records of the least length, for its reservations. -/
def derivedDemand (rate : Nat) (route : U32) : Demand :=
  { Demand.zero with bytes := (rate : Rat), route := route, records := (rate : Rat) / 64 }

/-- Twice the source's record rate, which is added to the admitted HBM traffic (09 R292). -/
def feedTraffic (source : Option Product) : Rat :=
  match source with
  | none => 0
  | some p => 2 * most (demandsOf p) Demand.bytes

/-- The source a GLOSS_ATTACH names: 0xFFFF is none. -/
def attachSource (s : State) (source : Nat) (log2Feed : Nat) : Except Reply (Option Product) :=
  if source = 0xFFFF then .ok none
  else do
    let p ← orRefuse (s.product source) stBadParam 10
    refuseIf ((coreFed s source).isSome) stBadParam 10
    refuseIf (2 ^ log2Feed < 2 * p.maxRecord) stBadParam 16
    return some p

/-- GLOSS_ATTACH. -/
def glossAttachC (s : State) (f : Fn) (i log2In source derived inBase log2Feed log2Slot : Nat) (route : U32) (rate : Nat)
    (segs : List U32) (feedBase slotBase : Nat) : Result := do
  let w := worldOf f
  refuseIf (!s.hbm.filled) stBusy 8
  refuseIf (!s.intake.epochSet) stBadParam 8
  let c ← findCore s i
  refuseIf (!domainUp s (i / 8)) stBusy 8
  refuseIf (log2In < 8 || log2In > 14) stBadParam 9
  refuseIf (!pidFree s derived) stBadParam 12
  refuseIf (inBase % 2 ^ log2In != 0 || inBase ≥ 32768) stBadParam 14
  let fed : Bool := source != 0xFFFF
  refuseIf (fed && (log2Feed < 21 || log2Feed > 30)) stBadParam 16
  refuseIf (log2Slot < 21 || log2Slot > 28) stBadParam 17
  routeParams s f route (derivedMax log2Slot) 20
  (enumFrom0 segs).forM fun x => refuseIf (bits x.2.toNat 28 3 > 5) stBadParam (32 + 4 * x.1)
  refuseIf (fed && feedBase % granule != 0) stBadParam 48
  refuseIf (slotBase % granule != 0) stBadParam 56
  let p ← attachSource s source log2Feed
  ownCore s f i
  refuseIf (p.any fun p => p.world != w) stWorldDenied 10
  routeWorld s w route 20
  refuseIf (fed && !inWorld s w feedBase (2 ^ log2Feed)) stWorldDenied 48
  refuseIf (!inWorld s w slotBase (2 * 2 ^ log2Slot)) stWorldDenied 56
  refuseIf c.attach.isSome stBusy 8
  let a : Attach :=
    { source := p.map Product.pid, feedBase := feedBase, feedLog2 := log2Feed, inBase := inBase, inLog2 := log2In,
      unpack := segs.map clauseSeg, derived := derived, slotBase := slotBase, slotLog2 := log2Slot, rate := rate, head := 0,
      tail := 0, recs := [], declines := [], declining := false, detaching := false, gapMade := false }
  let s1 := s.setCore i { c with attach := some a, inWr := 0, inRd := 0, frame := none, frames := [], lastOut := [] }
  let s2 := if fed then addAlloc s1 { kind := .feedBuf i, base := feedBase, size := 2 ^ log2Feed, world := w } else s1
  let s3 := addAlloc s2 { kind := .coreSlots i, base := slotBase, size := 2 * 2 ^ log2Slot, world := w }
  let s4 := s3.setProduct derived (newProduct derived .derived w f route (derivedDemand rate route) (derivedMax log2Slot))
  let placed : Except Reply Unit := do
    if fed then tileCheck s feedBase (2 ^ log2Feed) 48
    tileCheck s2 slotBase (2 * 2 ^ log2Slot) 56
  admission s s4 w placed (feedTraffic p)
  done s4

def execGlossAttach (src : Src) (core log2In : U8) (source derived inBase : U16) (log2Feed log2Slot : U8) (route : U32)
    (rate : U64) (seg0 seg1 seg2 seg3 : U32) (feedBase slotBase : U64) (s : State) : Host.Outcome State Fault Refusal :=
  runClause (.glossAttach src core log2In source derived inBase log2Feed log2Slot route rate seg0 seg1 seg2 seg3 feedBase slotBase) s fun s =>
    glossAttachC s src.fn core.toNat log2In.toNat source.toNat derived.toNat inBase.toNat log2Feed.toNat log2Slot.toNat route
      rate.toNat [seg0, seg1, seg2, seg3] feedBase.toNat slotBase.toNat

/-- The attachment a Clause needs. -/
def needAttach (c : Core) : Except Reply Attach := orRefuse c.attach stBadParam 8

/-- GLOSS_DETACH: the boundary is the number of the GAP record that ends the DERIVED product (log 82). -/
def glossDetachC (s : State) (f : Fn) (i : Nat) : Result := do
  let c ← namedCore s f i
  let a ← needAttach c
  refuseIf a.detaching stBusy 8
  let s1 := beginDetach s i a
  let n := ((s1.product a.derived).map Product.seq).getD 0
  deferred (finishDetach s1 i) 3 (if s.err.fault then n else n - 1)

def execGlossDetach (src : Src) (core : U8) (s : State) : Host.Outcome State Fault Refusal :=
  runClause (.glossDetach src core) s fun s => glossDetachC s src.fn core.toNat

/-- GLOSS_SET_ROUTE. -/
def glossSetRouteC (s : State) (f : Fn) (i : Nat) (route : U32) : Result := do
  let c ← findCore s i
  let a ← needAttach c
  let p ← orRefuse (s.product a.derived) stBadParam 8
  setRoute s f p route 12

def execGlossSetRoute (src : Src) (core : U8) (route : U32) (s : State) : Host.Outcome State Fault Refusal :=
  runClause (.glossSetRoute src core route) s fun s => glossSetRouteC s src.fn core.toNat route

/-! ### Memory access (09 R304) -/

/-- The words of a core's space: 0 X, 1 Y, 2 P. -/
def spaceWords (c : Core) (space : Nat) : List (Nat × Nat) := if space = 0 then c.x else if space = 1 then c.y else c.prog

/-- The words that a space has. -/
def spaceSize (space : Nat) : Nat := if space = 2 then 16384 else 32768

/-- GLOSS_MEM_READ: each word takes 4 bytes. -/
def memReadC (s : State) (src : Src) (i space first count : Nat) (buf : HBuf) : Result := do
  let c ← namedCore s src.fn i
  refuseIf (space > 2) stBadParam 9
  refuseIf (first ≥ spaceSize space) stBadParam 10
  refuseIf (first + count > spaceSize space) stBadParam 12
  refuseIf (c.state != .halted && c.state != .faulted) stBusy 8
  answerQuery s src buf ((List.range count).flatMap fun k => leBytes 4 (wordGet (first + k) (spaceWords c space)))

def execGlossMemRead (src : Src) (core space : U8) (first count : U16) (buf : HBuf) (s : State) :
    Host.Outcome State Fault Refusal :=
  runClause (.glossMemRead src core space first count buf) s fun s => memReadC s src core.toNat space.toNat first.toNat count.toNat buf

/-- GLOSS_MEM_WRITE: each word takes 4 bytes, byte [31:24] zero. -/
def memWriteC (s : State) (f : Fn) (i space first count : Nat) (buf : HBuf) (data : HRead) : Result := do
  let c ← namedCore s f i
  refuseIf (space > 1) stBadParam 9
  refuseIf (first ≥ 32768) stBadParam 10
  refuseIf (first + count > 32768) stBadParam 12
  refuseIf (c.state != .halted) stBusy 8
  if buf.len.toNat != 4 * count then badLength (4 * count) buf.len.toNat
  else
    let bs ← readBuf buf data
    let ws := (List.range count).map fun k => field bs (4 * k) 4
    refuseIf (ws.any fun w => w ≥ 2 ^ 24) stBadParam 48
    done (s.setCore i (if space = 0 then { c with x := wordPutAll first ws c.x } else { c with y := wordPutAll first ws c.y }))

def execGlossMemWrite (src : Src) (core space : U8) (first count : U16) (buf : HBuf) (data : HRead) (s : State) :
    Host.Outcome State Fault Refusal :=
  runClause (.glossMemWrite src core space first count buf data) s fun s => memWriteC s src.fn core.toNat space.toNat first.toNat count.toNat buf data

/-- What GLOSS_QUERY reports of one core (09 R304). -/
def coreItem (s : State) (i : Nat) : CoreItem :=
  let c := s.core i
  { core := i, state := c.state, source := c.attach.bind Attach.source, derived := c.attach.map Attach.derived,
    feed := c.attach.map fun a => (a.feedBase, a.feedLog2), slots := c.attach.map fun a => (a.slotBase, a.slotLog2),
    rate := (c.attach.map Attach.rate).getD 0 }

/-- What GLOSS_QUERY reports: the cores of the world. -/
def coreReport (s : State) (f : Fn) : Report :=
  .cores (((List.range 32).filter fun i => seenBy f (vget s.world.cores i .secure)).map (coreItem s))

def execGlossQuery (src : Src) (buf : HBuf) (s : State) : Host.Outcome State Fault Refusal :=
  runClause (.glossQuery src buf) s fun s => answerReport s src buf (coreReport s src.fn)

/-! ### Takeover (09 R301) -/

/-- A core of a unit that becomes active: X, Y and P from the mirrored image, at its entry address, in the state that the
Maquette records. -/
def coreTakeover (c : Core) : Core :=
  match readImage c.image with
  | none => c
  | some m => { takeImage c m with state := c.commanded, lastTrap := { pc := 0, cause := 0 }, inWr := 0, inRd := 0, frame := none,
                                   frames := [] }

end Sys2Proof.Machine
end

