-- ==== Sys2Proof/Machine/PairBase.lean ====
section
/-! DEFINITION. Entering FORMING (18 R503), and the end of a cold boot (19 R526, R529, R532). -/

namespace Sys2Proof.Machine

/-- A mirror lane is brought up on both sides (18 R503, 02 R59). -/
def mirrorLaneUp (s : State) (l : Nat) : State :=
  let s1 := if (s.lane l).rx = .off then rxDefine s l else s
  if (s1.lane l).tx = .off then txStart s1 l else s1

/-- ALIVE_OUT toggles: it is held low in reset, while FAULT_N is asserted, and in recovery mode (18 R498, 19 R544, 20 R554). -/
def aliveRuns (s : State) : Bool := !s.power.inReset && s.err.faultN && s.boot.mode != .recovery

/-- The unit enters FORMING with a partner serial, and the mirror link comes up (18 R503). -/
def formPair (s : State) (partner : U32) : State :=
  let p := { s.pair with role := .forming, partner := partner, synced := false, guarded := false, rank := s.pair.strapRank,
                         peer := none, mismatch := 0, split := false }
  [48, 49, 50, 51].foldl mirrorLaneUp { s with pair := p }

/-- The pair enable and the partner serial of the settings (19 R532). -/
def settingsPair (s : State) : Option U32 :=
  match newestSettings s with
  | some (_, c) => if bitOf (field c 18 1) 0 then some (BitVec.ofNat 32 (field c 20 4)) else none
  | none => none

/-- The boot HBM data rate: that of the settings, or 8.0 Gb/s (10 R328, 19 R532). A stored value that is no data rate counts
as 8.0 Gb/s. -/
def settingsRate (s : State) : Nat :=
  match newestSettings s with
  | some (_, c) => if [8000, 7200, 6400, 5600, 4800].contains (field c 16 2) then field c 16 2 else 8000
  | none => 8000

/-- After a boot that reaches its last step, a copy of the boot record that does not hold the newest record and has fewer
than 8 erased entries is erased (19 R529). -/
def eraseCopies (s : State) : State :=
  match newestRecord s with
  | none => s
  | some (inOne, _) =>
    let full (l : List (Nat × BootEntry)) : Bool := l.length > 56
    let b := s.boot
    let b1 := if inOne && full b.rec0 then { b with rec0 := [] } else b
    { s with boot := if !inOne && full b1.rec1 then { b1 with rec1 := [] } else b1 }

/-- Step 6 of a cold boot: Clause service opens, READY is 1 and a pair enabled in the settings enters FORMING (19 R526). -/
def bootComplete (s : State) : State :=
  if s.boot.mode = .firmware && !s.boot.ready && !s.err.activating then
    let s1 := eraseCopies { s with boot := { s.boot with ready := true }, err := { s.err with service := true } }
    match settingsPair s1 with
    | some p => formPair s1 p
    | none => s1
  else s

end Sys2Proof.Machine
end

