-- ==== Sys2Proof/Machine/Hbm.lean ====
section
/-! DEFINITION. The HBM3 controller: where a byte lies, scheduling, refresh, activation counting, ECC and training (10). -/

namespace Sys2Proof.Machine

/-! ### Where a byte lies (10 R306, R308 to R311) -/

/-- Where an HBM byte lies. -/
structure HbmPlace where
  stack : Nat
  sid : Nat
  pc : Nat
  col : Nat
  bg : Nat
  ba : Nat
  row : Nat
  byte : Nat
  deriving DecidableEq, Repr

/-- The parity of a number's low 15 bits. -/
def parity15 (n : Nat) : Nat := sumNat ((List.range 15).map fun i => bits n i 1) % 2

/-- PC, COL, BG, BA and RL of an offset in a granule under an order (10 R310). -/
def orderFields (order a : Nat) : Nat × Nat × Nat × Nat × Nat :=
  match order with
  | 0 => (bits a 6 5, bits a 11 4, bits a 15 2, bits a 17 2, bits a 19 2)
  | 1 => (bits a 10 5, bits a 6 4, bits a 15 2, bits a 17 2, bits a 19 2)
  | 2 => (bits a 14 5, bits a 6 4, bits a 10 2, bits a 12 2, bits a 19 2)
  | _ => (bits a 8 5, bits a 6 2 + 4 * bits a 13 2, bits a 15 2, bits a 17 2, bits a 19 2)

/-- The offset in a granule with the given fields under an order. -/
def orderOffset (order pc col bg ba rl byte : Nat) : Nat :=
  byte + rl * 2 ^ 19 + match order with
    | 0 => pc * 2 ^ 6 + col * 2 ^ 11 + bg * 2 ^ 15 + ba * 2 ^ 17
    | 1 => pc * 2 ^ 10 + col * 2 ^ 6 + bg * 2 ^ 15 + ba * 2 ^ 17
    | 2 => pc * 2 ^ 14 + col * 2 ^ 6 + bg * 2 ^ 10 + ba * 2 ^ 12
    | _ => pc * 2 ^ 8 + col % 4 * 2 ^ 6 + col / 4 * 2 ^ 13 + bg * 2 ^ 15 + ba * 2 ^ 17

/-- MAP of the descriptor that covers a granule; 0b101 where none does (10 R310). -/
def granuleMap (s : State) (g : Nat) : Nat :=
  match s.world.regions.toList.find? fun r => r.valid && r.base ≤ g && g < r.base + r.size with
  | some r => r.map.toNat
  | none => 5

/-- The bank bits under the hash (10 R311). -/
def hashBank (bg ba row : Nat) : Nat × Nat :=
  (bg ^^^ (parity15 (row &&& 0x1249) + 2 * parity15 (row &&& 0x2492)),
   ba ^^^ (parity15 (row &&& 0x4924) + 2 * parity15 (row &&& 0x5555)))

/-- The place of an address; none without a stack in service. -/
def hbmPlace (s : State) (a : Nat) : Option HbmPlace :=
  let n := s.hbm.serving.length
  if n = 0 then none
  else
    let g := a / granule
    let stack := s.hbm.serving.getD (g % n) 0
    let nsid := max 1 (s.stack stack).nSid
    let h := g / n
    let map := granuleMap s g
    let f := orderFields (map % 4) (a % granule)
    let row := 4 * (h / nsid) + f.2.2.2.2
    let b := if map ≥ 4 then hashBank f.2.2.1 f.2.2.2.1 row else (f.2.2.1, f.2.2.2.1)
    some { stack := stack, sid := h % nsid, pc := f.1, col := f.2.1, bg := b.1, ba := b.2, row := row, byte := a % 64 }

/-- Granules per stack of a supported configuration; none of another (10 R306). -/
def stackGranules (x : Stack) : Option Nat :=
  match x.dense, x.nSid with
  | false, 2 => some 8192
  | false, 3 => some 12288
  | true, 3 => some 18432
  | true, 4 => some 24576
  | _, _ => none

/-- Rows of a bank (10 R306). -/
def stackRows (x : Stack) : Nat := if x.dense then 24576 else 16384

/-- Usable capacity in granules of a set of stacks (10 R309). -/
def capacityOf (s : State) (l : List Nat) : Nat :=
  match l with
  | [] => 0
  | p :: _ => l.length * ((stackGranules (s.stack p)).getD 1 - 1)

/-! ### Pseudo-channels and banks -/

/-- The key of a pseudo-channel; of a bank. -/
def pcKey (stack pc : Nat) : Nat := stack * 32 + pc
def bankKey (p : HbmPlace) : Nat := pcKey p.stack p.pc * 64 + p.sid * 16 + p.bg * 4 + p.ba

def State.pcAt (s : State) (k : Nat) : Pc := (tabGet k s.hbm.pcs).getD Reset.pc

def State.setPcAt (s : State) (k : Nat) (x : Pc) : State := { s with hbm := { s.hbm with pcs := tabSet k x s.hbm.pcs } }

def State.bankAt (s : State) (k : Nat) : Bank := (tabGet k s.hbm.banks).getD Reset.bank

def State.setBankAt (s : State) (k : Nat) (x : Bank) : State :=
  { s with hbm := { s.hbm with banks := tabSet k x s.hbm.banks } }

/-- Every bank of a pseudo-channel is precharged: the open row becomes the last one (10 R313). -/
def precharge (s : State) (key : Nat) : State :=
  let shut (b : Nat × Bank) : Nat × Bank :=
    if b.1 / 64 = key then
      match b.2.opened with
      | some r => (b.1, { b.2 with opened := none, last := some r })
      | none => b
    else b
  { s with hbm := { s.hbm with banks := s.hbm.banks.map shut } }

/-! ### Activation counting (10 R322, R323) -/

/-- The least count among entries. -/
def leastCount (l : List ActEntry) : Nat := ((minBy ActEntry.count l).map ActEntry.count).getD 0

/-- The table after an activation of a row: its entries, and the position of the row's. -/
def countRow (l : List ActEntry) (row : Nat) : List ActEntry × Nat :=
  match l.findIdx? fun e => e.row == row with
  | some i => (l.modify i fun e => { e with count := e.count + 1 }, i)
  | none =>
    if l.length < 8 then (l ++ [{ row := row, count := 1 }], l.length)
    else
      let least := leastCount l
      let i := (l.findIdx? fun e => e.count == least).getD 0
      (l.set i { row := row, count := least + 1 }, i)

/-- T_act of a stack. -/
def actLimit (x : Stack) : Nat := if x.rfm then min 4096 x.rfmThreshold else 4096

/-- The rows beside a row of a bank. -/
def neighbours (x : Stack) (row : Nat) : List Nat :=
  (if row = 0 then [] else [row - 1]) ++ (if row + 1 < stackRows x then [row + 1] else [])

/-- A row of a bank is activated. At T_act its neighbours are refreshed: by one RFM command, or by activating the rows
beside it, which are given as the rows to activate next. -/
def activateRow (s : State) (stack key row : Nat) : State × List Nat :=
  let b := s.bankAt key
  let x := s.stack stack
  let c := countRow b.acts row
  match c.1[c.2]? with
  | none => (s, [])
  | some e =>
    if e.count < actLimit x then (s.setBankAt key { b with acts := c.1 }, [])
    else
      let acts := c.1.set c.2 { e with count := leastCount (c.1.eraseIdx c.2) }
      let s1 := s.setBankAt key { b with acts := acts }
      ({ s1 with hbm := { s1.hbm with neighbour := s1.hbm.neighbour + 1 } }, if x.rfm then [] else neighbours x row)

/-- Rows of a bank activated in turn, with those that neighbour refreshes activate; they count as activations themselves.
`fuel` bounds their number (log 83). -/
def activateAll (stack key : Nat) : Nat → List Nat → State → State
  | 0, _, s => s
  | _, [], s => s
  | fuel + 1, row :: rest, s =>
    let r := activateRow s stack key row
    activateAll stack key fuel (rest ++ r.2) r.1

/-- An activation of a row. -/
def activate (s : State) (stack key row : Nat) : State := activateAll stack key 65536 [row] s

/-! ### The page predictor (10 R313) -/

/-- The predictor after an access that hits the kept or last row, or another row. -/
def predict (p : Pred) (hit : Bool) : Pred :=
  match p, hit with
  | .strongClose, true => .weakClose
  | .strongClose, false => .strongClose
  | .weakClose, true => .weakOpen
  | .weakClose, false => .strongClose
  | .weakOpen, true => .strongOpen
  | .weakOpen, false => .weakClose
  | .strongOpen, true => .strongOpen
  | .strongOpen, false => .weakOpen

/-- A request reaches its row: a hit of the open row, or an activation. An activation moves the predictor, and so does the
first access after it decided to keep a row (10 R313). -/
def reachRow (s : State) (p : HbmPlace) : State :=
  let key := bankKey p
  let b := s.bankAt key
  let x := s.stack p.stack
  let kept := b.opened = some p.row || (b.opened = none && b.last = some p.row)
  let moves : Bool := (b.idle || b.opened != some p.row) && (b.opened.isSome || b.last.isSome)
  let pred := if moves then predict b.pred kept else b.pred
  if b.opened = some p.row then
    (s.setBankAt key { b with pred := pred, idle := false }).setStack p.stack { x with pageHits := x.pageHits + 1 }
  else
    let x1 := if b.opened.isSome then { x with pageConflicts := x.pageConflicts + 1 } else x
    let s1 := (s.setBankAt key { b with pred := pred, idle := false, opened := some p.row,
                                        last := b.opened.or b.last }).setStack p.stack x1
    activate s1 p.stack key p.row

/-- The predictor decides when a bank's queues hold no request to its open row. -/
def decidePage (s : State) (key : Nat) (pending : List HbmPlace) : State :=
  let b := s.bankAt key
  match b.opened with
  | none => s
  | some r =>
    if pending.any fun p => bankKey p == key && p.row == r then s
    else
      match b.pred with
      | .strongClose | .weakClose => s.setBankAt key { b with opened := none, last := some r, idle := true }
      | _ => s.setBankAt key { b with idle := true }

/-! ### Error records of HBM words (10 R325) -/

/-- The world of an HBM address; none for a granule that no descriptor covers. -/
def wordWorld (s : State) (addr : Nat) : Option World := granuleWorld s (addr / granule)

/-- A record whose resource is an HBM word (17 R475). -/
def raiseWord (s : State) (cause : U16) (cls : Cls) (addr : Nat) : State :=
  match wordWorld s addr with
  | some w => raise s cause cls w (addr / 256) (addr % 256)
  | none => raiseDev s cause cls (addr / 256) (addr % 256)

/-- The 64-bit word at an address becomes poison: data zero (10 R324). -/
def poisonWord (s : State) (addr : Nat) : State :=
  let w := addr / 8
  { s with hbm := { s.hbm with mem := memPutBytes (8 * w) (zeros 8) s.hbm.mem, poison := setIns w s.hbm.poison } }

/-- R325 poisons a word. -/
def poisonCounted (s : State) (addr : Nat) : State :=
  let s1 := poisonWord s addr
  { s1 with hbm := { s1.hbm with eccUncorr := s1.hbm.eccUncorr + 1, poisonSeen := true, lastUncorr := addr / 8 * 8 } }

/-- The outcome of a read of the word at an address: 0 clean, 1 a single-bit error, 2 uncorrectable with a clean retry, 3
uncorrectable twice, 4 a correction by the on-die ECC. A word that is poison returns poison whatever else. -/
def readOutcome (s : State) (stack addr outcome : Nat) (scrub : Bool) : State :=
  let h := s.hbm
  let x := s.stack stack
  if poisoned s addr (addr + 1) then
    if scrub then s else { s with hbm := { h with poisonReads := h.poisonReads + 1 } }
  else
    match outcome with
    | 1 => raiseWord { s with hbm := { h with eccCorr := h.eccCorr + 1 } } 0x0801 .c (addr / 8 * 8)
    | 2 => raiseWord { s with hbm := { h with eccRetryOk := h.eccRetryOk + 1 } } 0x0802 .t (addr / 8 * 8)
    | 3 =>
      let s1 := poisonCounted s addr
      let s2 := if scrub then s1 else { s1 with hbm := { s1.hbm with poisonReads := s1.hbm.poisonReads + 1 } }
      raiseWord s2 0x0803 .l (addr / 8 * 8)
    | 4 => raiseDev (s.setStack stack { x with odecc := x.odecc + 1 }) 0x0804 .c stack 0
    | _ => s

/-- A parity error of a command or of write data: the request is replayed, cleanly or not. A failed replay poisons the words
written. -/
def parityOutcome (s : State) (stack : Nat) (words : List Nat) (clean : Bool) : State :=
  let x := s.stack stack
  let s1 := s.setStack stack { x with parity := x.parity + 1 }
  if clean then raiseDev s1 0x0805 .t stack 0 else raiseDev (words.foldl poisonCounted s1) 0x0805 .l stack 0

/-! ### Errors of an access by DMA or BAR2 (10 R317, R325) -/

/-- Word addresses of the bytes from `lo` to `hi - 1`. -/
def wordsOf (lo hi : Nat) : List Nat :=
  if lo < hi then (List.range ((hi - 1) / 8 - lo / 8 + 1)).map fun i => (lo / 8 + i) * 8 else []

/-- The outcomes among `ecc`, as (byte address, outcome), of the reads of the bytes from `lo` to `hi - 1`: a parity error of the
command, or what the word's decoder gave. -/
def readErrors (s : State) (lo hi : Nat) (ecc : List (Nat × Nat)) : State :=
  (ecc.filter fun e => lo ≤ e.1 && e.1 < hi).foldl (fun t e =>
    match hbmPlace t e.1 with
    | some p =>
      match e.2 with
      | 5 => parityOutcome t p.stack [] true
      | 6 => parityOutcome t p.stack [] false
      | o => readOutcome t p.stack e.1 o true
    | none => t) s

/-- What the reads of the words that a write covers in part gave (10 R317). -/
def mergeErrors (s : State) (lo hi : Nat) (ecc : List (Nat × Nat)) : State :=
  let part (w : Nat) : Bool := decide (w < lo) || decide (hi < w + 8)
  let reads := ecc.filter fun e => e.2 < 5
  ((wordsOf lo hi).filter part).foldl (fun t w => readErrors t w (w + 8) reads) s

/-- Parity errors of the writes of the bytes from `lo` to `hi - 1`, once they are written: a failed replay poisons the words of
the 64-byte unit that were written. -/
def writeErrors (s : State) (lo hi : Nat) (ecc : List (Nat × Nat)) : State :=
  (ecc.filter fun e => lo ≤ e.1 && e.1 < hi && 5 ≤ e.2).foldl (fun t e =>
    match hbmPlace t e.1 with
    | some p =>
      let u := e.1 / 64 * 64
      parityOutcome t p.stack (wordsOf (max lo u) (min hi (u + 64))) (e.2 == 5)
    | none => t) s

/-! ### Serving requests (10 R312 to R317) -/

/-- A request is a read of its row; a write of it (10 R315). -/
def ReqKind.reads : ReqKind → Bool
  | .write | .spill .write _ => false
  | _ => true

def ReqKind.writes : ReqKind → Bool
  | .read | .spill .addReturn _ => false
  | _ => true

/-- The 64-byte units of a request: one, or the run of a spill operation. -/
def reqUnits (r : HbmReq) : Nat :=
  match r.kind with
  | .spill _ n => max 1 n
  | _ => 1

/-- The words that a request writes. -/
def writtenWords (r : HbmReq) : List Nat :=
  let unit := r.addr / 64 * 64
  if !r.kind.writes then []
  else match r.kind with
    | .partWrite => [r.addr / 8 * 8]
    | _ => wordsOf unit (unit + 64 * reqUnits r)

/-- The word whose read gave an outcome: that of the request, or the one of a spill run that the outcome's upper bits count
to. -/
def errWord (r : HbmReq) (ecc : Nat) : Nat :=
  match r.kind with
  | .spill _ _ => r.addr / 64 * 64 + 8 * (ecc / 8 % (8 * reqUnits r))
  | _ => r.addr

/-- Two places share a row. -/
def samePlaceRow (a b : HbmPlace) : Bool := bankKey a == bankKey b && a.row == b.row

/-- Some request is in row match: another to its row is pending and one of the two is a write (10 R314). -/
def rowMatch : List (HbmReq × HbmPlace) → Bool
  | [] => false
  | x :: t => (t.any fun y => samePlaceRow x.2 y.2 && (x.1.kind.writes || y.1.kind.writes)) || rowMatch t

/-- The requests of a queue with their places. -/
def placed (s : State) (q : List HbmReq) : List (HbmReq × HbmPlace) := q.filterMap fun r => (hbmPlace s r.addr).map fun p => (r, p)

/-- The position of the request served next (10 R312, R314). -/
def nextRequest (s : State) (q : List (HbmReq × HbmPlace)) : Nat :=
  if rowMatch q then 0
  else
    match q.findIdx? fun x => x.1.overtaken ≥ 64 with
    | some i => i
    | none => (q.findIdx? fun x => (s.bankAt (bankKey x.2)).opened == some x.2.row).getD 0

/-- The units of a request lie within one page (10 R315). -/
def onePage (s : State) (r : HbmReq) (p : HbmPlace) : Bool :=
  (List.range (reqUnits r)).all fun k => (hbmPlace s (r.addr + 64 * k)).any fun q => samePlaceRow p q

/-- Arrivals join the queues of their pseudo-channel while there is room: 64 reads and 64 writes (10 R312). Requests that do
not map to it are none of its own. -/
def acceptAll (s : State) (stack pc : Nat) (q : List HbmReq) : List HbmReq → List HbmReq
  | [] => q
  | r :: t =>
    let mine := match hbmPlace s r.addr with
      | some p => p.stack == stack && p.pc == pc && onePage s r p
      | none => false
    let room := (q.filter fun x => x.kind.writes == r.kind.writes).length < 64
    acceptAll s stack pc (if mine && room then q ++ [{ r with overtaken := 0 }] else q) t

/-- FCLK cycles from a Plinth time until now (01 R17). -/
def fclkSince (s : State) (t : Nat) : Nat := (s.now - t) * 4 / (5 * nanos)

/-- In-order service begins, or ends and its cycles count (10 R314). -/
def noteOrder (s : State) (key : Nat) (matched : Bool) : State :=
  let c := s.pcAt key
  match c.inorderSince with
  | none => if matched then s.setPcAt key { c with inorderSince := some s.now } else s
  | some t =>
    if matched then s
    else
      let s1 := s.setPcAt key { c with inorderSince := none }
      { s1 with hbm := { s1.hbm with inorder := s1.hbm.inorder + BitVec.ofNat 32 (fclkSince s t) } }

/-- What serving one request does besides its data (10 R313, R315, R317, R325): the row, once for the whole run of a spill
operation, then the ECC or parity outcome. -/
def serveRequest (s : State) (stack : Nat) (r : HbmReq) (p : HbmPlace) (ecc : Nat) : State :=
  let s1 := reachRow s p
  match ecc % 8 with
  | 5 => parityOutcome s1 stack (writtenWords r) true
  | 6 => parityOutcome s1 stack (writtenWords r) false
  | o => if r.kind.reads then readOutcome s1 stack (errWord r ecc) o false else s1

/-- Every stack in service in SELF_REFRESH wakes (10 R333). -/
def wakeStacks (s : State) : State :=
  { s with hbm := { s.hbm with stackTab := s.hbm.stackTab.map fun x =>
      if x.state = .selfRefresh then { x with state := .active } else x } }

/-- HBM bytes are reached: stacks in SELF_REFRESH wake, and the pseudo-channels that hold the bytes leave power-down (10
R333). -/
def touchHbm (s : State) (addr n : Nat) : State :=
  let keys := (List.range (ceilDiv (addr % 64 + n) 64)).filterMap fun k =>
    (hbmPlace s (addr / 64 * 64 + 64 * k)).map fun p => pcKey p.stack p.pc
  let s1 := wakeStacks s
  { s1 with hbm := { s1.hbm with pcs := s1.hbm.pcs.map fun x => if keys.contains x.1 then (x.1, { x.2 with down := false }) else x } }

/-- A pseudo-channel serves the request that is next (10 R312, R314). -/
def serveOne (s : State) (stack pc ecc : Nat) : State :=
  let key := pcKey stack pc
  let q := (s.pcAt key).queue
  let ps := placed s q
  let s1 := noteOrder s key (rowMatch ps)
  let i := nextRequest s1 ps
  match ps[i]? with
  | none => s1
  | some (r, p) =>
    let rest := (enumFrom0 q).filterMap fun x =>
      if x.1 = i then none else some (if x.1 < i then { x.2 with overtaken := x.2.overtaken + 1 } else x.2)
    let s2 := serveRequest (s1.setPcAt key { s1.pcAt key with queue := rest }) stack r p ecc
    let left := placed s2 rest
    decidePage (noteOrder s2 key (rowMatch left)) (bankKey p) (left.map Prod.snd)

/-- Every queue is drained (10 R331). -/
def drainQueues (s : State) : State :=
  s.hbm.pcs.foldl (fun t x => (List.range x.2.queue.length).foldl (fun u _ => serveOne u (x.1 / 32) (x.1 % 32) 0) t) s

/-- HBM_REQUEST_SERVE: requests arrive at a pseudo-channel, and it serves one. During a data-rate change requests are held
(10 R331). -/
def hbmServe (s : State) (stack pc : Nat) (arrivals : List HbmReq) (ecc : Nat) : State :=
  if !s.hbm.serving.contains stack then s
  else
    let key := pcKey stack pc
    let q := acceptAll s stack pc (s.pcAt key).queue arrivals
    let s1 := s.setPcAt key { s.pcAt key with queue := q }
    if s.hbm.rateRunning || q.isEmpty then s1
    else
      serveOne (wakeStacks (s1.setPcAt key { s1.pcAt key with down := false })) stack pc ecc

def execHbmRequestServe (stack : Fin 6) (pc : Fin 32) (arrivals : List HbmReq) (ecc : Nat) (s : State) :
    Host.Outcome State Fault Refusal :=
  .next (hbmServe s stack.val pc.val arrivals ecc)

/-! ### Refresh (10 R318 to R321) -/

/-- The allowance, and what one refresh takes from the debt. -/
def allowance (x : Stack) : Nat := if x.hot then 8 else 16
def refreshUnit (x : Stack) : Nat := if x.hot then 1 else 2

/-- Refreshes that bring a debt within the allowance: how many, and the debt after them. -/
def payDown (x : Stack) (d : Nat) : Nat × Nat :=
  let n := ceilDiv (d - allowance x) (refreshUnit x)
  (n, d - n * refreshUnit x)

/-- The debt of a pseudo-channel, with the refreshes that the allowance forces. -/
def setDebt (s : State) (stack key d : Nat) : State :=
  let x := s.stack stack
  let p := payDown x d
  let c := s.pcAt key
  let s1 := s.setPcAt key { c with debt := p.2, down := c.down && p.1 == 0 }
  let s2 := if p.1 = 0 then s1 else precharge { s1 with hbm := { s1.hbm with forced := s1.hbm.forced + BitVec.ofNat 32 p.1 } } key
  s2.setStack stack { s2.stack stack with debtPeak := max x.debtPeak p.2 }

/-- The pseudo-channels of a stack by key. -/
def stackKeys (stack : Nat) : List Nat := (List.range 32).map (pcKey stack)

/-- REFRESH_DEBT_TICK: every 1.95 us the debt of each pseudo-channel rises. In SELF_REFRESH it stays at 0, and so it does
while a data-rate change holds the stacks there. -/
def debtTick (s : State) (stack : Nat) : State :=
  if (s.stack stack).state != .active || s.hbm.rateRunning then s
  else (stackKeys stack).foldl (fun t k => setDebt t stack k ((t.pcAt k).debt + 1)) s

def execRefreshDebtTick (stack : Fin 6) (s : State) : Host.Outcome State Fault Refusal := .next (debtTick s stack.val)

/-- REFRESH_ISSUE: a pseudo-channel with no pending request and a debt of at least 1 refreshes. -/
def refreshIssue (s : State) (stack pc : Nat) : State :=
  let key := pcKey stack pc
  let c := s.pcAt key
  if (s.stack stack).state != .active || c.debt = 0 || !c.queue.isEmpty then s
  else precharge (s.setPcAt key { c with debt := c.debt - refreshUnit (s.stack stack), down := false }) key

def execRefreshIssue (stack : Fin 6) (pc : Fin 32) (s : State) : Host.Outcome State Fault Refusal :=
  .next (refreshIssue s stack.val pc.val)

/-- Queues drained, debts paid and banks precharged (10 R321, R331). -/
def settleHbm (s : State) : State :=
  let quiet (b : Nat × Bank) : Nat × Bank := (b.1, { b.2 with opened := none, last := b.2.opened.or b.2.last })
  let s1 := drainQueues s
  { s1 with hbm := { s1.hbm with pcs := [], banks := s1.hbm.banks.map quiet } }

/-! ### Retraining (10 R329, R332) -/

/-- A retraining starts, unless one runs, the stacks are not trained or a data-rate change waits or runs. -/
def startRetrain (s : State) : State :=
  if s.hbm.step != .idle || !s.hbm.ready || s.hbm.ratePending.isSome then s
  else { s with hbm := { s.hbm with step := .readEye, stepTime := s.now } }

/-- RETRAIN_TIMER: 600 s after the last retraining. -/
def execRetrainTimer (s : State) : Host.Outcome State Fault Refusal :=
  .next (if s.now ≥ s.hbm.trainTime + 600 * second then startRetrain s else s)

/-- The active stacks enter SELF_REFRESH. -/
def toSelfRefresh (s : State) : State :=
  { s with hbm := { s.hbm with stackTab := s.hbm.stackTab.map fun x =>
      if x.state = .active then { x with state := .selfRefresh } else x } }

/-- A data-rate change begins: queues drained, debts paid, banks precharged, and all stacks in self-refresh (10 R331). -/
def startRateChange (s : State) : State :=
  let s1 := toSelfRefresh (settleHbm s)
  { s1 with hbm := { s1.hbm with rateRunning := true, step := .idle } }

/-- RETRAIN_STEP_DONE: the read eye, then the write eye. A margin below the floor is reported, naming the stack. A data-rate
change that waits discards what was gathered (10 R332). -/
def retrainStep (s : State) (low : Option (Fin 6)) : State :=
  if s.hbm.step != .readEye && s.hbm.step != .writeEye then s
  else if s.hbm.ratePending.isSome then startRateChange { s with hbm := { s.hbm with discarded := true } }
  else
    let s1 := match low with
      | some x => raiseDev { s with hbm := { s.hbm with marginLow := true } } 0x0808 .l x.val 0
      | none => s
    if s1.hbm.step = .readEye then { s1 with hbm := { s1.hbm with step := .writeEye, stepTime := s1.now } }
    else
      { s1 with hbm := { s1.hbm with step := .idle, retrains := s1.hbm.retrains + 1, trainTime := s1.now,
                                     stackTab := s1.hbm.stackTab.map fun x => { x with trainTemp := x.temp } } }

def execRetrainStepDone (low : Option (Fin 6)) (s : State) : Host.Outcome State Fault Refusal := .next (retrainStep s low)

/-! ### Temperature and windows (10 R320, R322) -/

/-- HBM_TEMP_READ: hot above 85, cool at or below 83, a record above 100 at most once a second, and a retraining after a
move of more than 8. Turning hot halves the allowance at once. -/
def tempRead (s : State) (stack temp : Nat) : State :=
  let x := s.stack stack
  if x.state = .off || x.state = .training then s
  else
    let hot := if temp > 85 then true else if temp ≤ 83 then false else x.hot
    let tell : Bool := decide (temp > 100) && match x.hotTime with
      | some t => decide (s.now ≥ t + second)
      | none => true
    let x1 := { x with temp := min temp 255, hot := hot, hotTime := if tell then some s.now else x.hotTime }
    let s1 := s.setStack stack x1
    let s2 := (stackKeys stack).foldl (fun t k => setDebt t stack k (t.pcAt k).debt) s1
    let s3 := if tell then raiseDev s2 0x0809 .l stack 0 else s2
    if temp > x.trainTemp + 8 || x.trainTemp > temp + 8 then startRetrain s3 else s3

def execHbmTempRead (stack : Fin 6) (temp : Nat) (s : State) : Host.Outcome State Fault Refusal :=
  .next (tempRead s stack.val temp)

/-- ACT_TABLE_CLEAR: the start of a 32 ms refresh window. -/
def actClear (s : State) (stack : Nat) : State :=
  let clear (b : Nat × Bank) : Nat × Bank := if b.1 / 2048 = stack then (b.1, { b.2 with acts := [] }) else b
  { s with hbm := { s.hbm with banks := s.hbm.banks.map clear } }

def execActTableClear (stack : Fin 6) (s : State) : Host.Outcome State Fault Refusal := .next (actClear s stack.val)

/-- PATROL_SCRUB_READ: the next 64-byte unit of usable capacity. `ecc` holds the outcome of its read, and in its next bits
the word of the unit that gave it. -/
def scrubRead (s : State) (ecc : Nat) : State :=
  let units := s.hbm.capacity * (granule / 64)
  if units = 0 || s.hbm.rateRunning then s
  else
    let u := s.hbm.scrub % units
    let addr := 64 * u + 8 * (ecc / 8 % 8)
    let s1 := match hbmPlace s addr with
      | some p => readOutcome (touchHbm s addr 8) p.stack addr (ecc % 8) true
      | none => s
    { s1 with hbm := { s1.hbm with scrub := (u + 1) % units } }

def execPatrolScrubRead (ecc : Nat) (s : State) : Host.Outcome State Fault Refusal := .next (scrubRead s ecc)

/-! ### Power states (10 R333) -/

/-- PC_POWERDOWN_IDLE: a pseudo-channel without requests and without a refresh due. -/
def pcDown (s : State) (stack pc : Nat) : State :=
  let c := s.pcAt (pcKey stack pc)
  if (s.stack stack).state != .active || !c.queue.isEmpty || c.debt != 0 then s
  else s.setPcAt (pcKey stack pc) { c with down := true }

def execPcPowerdownIdle (stack : Fin 6) (pc : Fin 32) (s : State) : Host.Outcome State Fault Refusal :=
  .next (pcDown s stack.val pc.val)

/-- The stacks in service enter SELF_REFRESH together (10 R321, R333). -/
def sleepStacks (s : State) : State :=
  let s1 := toSelfRefresh (settleHbm s)
  { s1 with hbm := { s1.hbm with sleeping := true } }

/-- SELF_REFRESH_IDLE: stacks that a request woke go back after 100 us of idle. -/
def execSelfRefreshIdle (s : State) : Host.Outcome State Fault Refusal :=
  .next (if s.hbm.sleeping && !s.hbm.rateRunning && s.hbm.pcs.all (fun x => x.2.queue.isEmpty) then sleepStacks s else s)

/-! ### Training (10 R306, R328, 16 R459) -/

/-- Where an address lies once other stacks serve; none for a byte of a stack that no longer does (10 R308). Offsets within
a granule stay. -/
def movedAddr (old new : List Nat) (a : Nat) : Option Nat :=
  if old = [] then none
  else
    let g := a / granule
    let stack := old.getD (g % old.length) 0
    (new.findIdx? (· == stack)).map fun i => (g / old.length * new.length + i) * granule + a % granule

/-- Bytes and poisoned words under new addresses; those that have none are lost. -/
def moveMem (s : State) (f : Nat → Option Nat) : State :=
  let mem := s.hbm.mem.foldl (fun m c => match f c.1 with
    | some a => memPut a c.2 m
    | none => m) []
  let poison := s.hbm.poison.foldl (fun l w => match f (8 * w) with
    | some a => setIns (a / 8) l
    | none => l) []
  { s with hbm := { s.hbm with mem := mem, poison := poison } }

/-- The address under the descriptors of `s'` of the byte that an address names under those of `s`: it lies where it lay (10
R310). -/
def remappedAddr (s s' : State) (a : Nat) : Nat :=
  let g := a / granule
  let old := granuleMap s g
  let new := granuleMap s' g
  if old = new then a
  else match hbmPlace s a with
    | none => a
    | some p =>
      let f := orderFields (old % 4) (a % granule)
      let b := if new ≥ 4 then hashBank p.bg p.ba p.row else (p.bg, p.ba)
      g * granule + orderOffset (new % 4) p.pc p.col b.1 b.2 f.2.2.2.2 p.byte

/-- Descriptors have changed from those of `s`: no contents are moved (10 R310). -/
def keepPlaces (s s' : State) : State :=
  if s.hbm.mem.all (fun c => remappedAddr s s' c.1 == c.1) && s.hbm.poison.all (fun w => remappedAddr s s' (8 * w) == 8 * w) then s'
  else moveMem s' fun a => some (remappedAddr s s' a)

/-- Memory and poison under new serving stacks; bytes of other stacks are lost, and new ones read as zero. The stacks that
stay keep their debts, predictors and activation tables. -/
def remap (s : State) (new : List Nat) : State :=
  let old := s.hbm.serving
  if old = new then s
  else
    let s1 := moveMem (drainQueues s) (movedAddr old new)
    { s1 with hbm := { s1.hbm with serving := new, capacity := capacityOf s new,
                                   pcs := s1.hbm.pcs.filter fun x => new.contains (x.1 / 32),
                                   banks := s1.hbm.banks.filter fun x => new.contains (x.1 / 2048) } }

/-- Stacks that passed training. -/
def passed (s : State) : List Nat :=
  (List.range 6).filter fun i => (s.stack i).state == .active || (s.stack i).state == .selfRefresh

/-- Descriptor 0 at boot: valid, secure, the whole usable capacity, MAP 0b101 (16 R459). -/
def bootRegion (s : State) : Region := { valid := true, world := .secure, map := 5, base := 0, size := s.hbm.capacity }

/-- The last stack has finished: capacity, READY, the zero-fill and FILLED; at a cold boot descriptor 0, and the end of the
boot (10 R328, 19 R526). -/
def trainingEnds (s : State) : State :=
  if (List.range 6).any fun i => (s.stack i).state == .training then s
  else
    let s1 := remap s (passed s)
    let h := s1.hbm
    let s2 := { s1 with hbm := { h with ready := true, filled := true, step := .idle, trainTime := s1.now,
                                        rate := if h.rate = 0 then settingsRate s1 else h.rate } }
    if s2.boot.ready then s2
    else bootComplete { s2 with world := { s2.world with regions := vset s2.world.regions 0 (bootRegion s2) } }

/-- A stack reports a configuration that is supported and that of stack 0 (10 R306). -/
def configAgrees (s : State) (stack : Nat) (x : Stack) : Bool :=
  let z := s.stack 0
  (stackGranules x).isSome &&
    (stack == 0 || z.nSid == 0 || (z.nSid == x.nSid && z.dense == x.dense))

/-- Stacks that differ from stack 0 are held out of service (10 R306). -/
def holdOut (s : State) : State :=
  (List.range 6).foldl (fun t i =>
    let x := t.stack i
    if x.state = .active && !configAgrees t i x then raiseDev (t.setStack i { x with state := .off }) 0x0806 .l i 0 else t) s

/-- STACK_TRAINING_DONE: what the stack reports, and whether it passed after lane repair. -/
def stackTrained (s : State) (stack sid repaired : Nat) (dense : Bool) (rfm : Option Nat) (ok : Bool) : State :=
  let x := s.stack stack
  if x.state != .training then s
  else
    let y := { x with nSid := sid, dense := dense, lanesRepaired := min repaired 15, rfm := rfm.isSome,
                      rfmThreshold := rfm.getD 4096, state := if ok then .active else .off }
    let s1 := s.setStack stack y
    trainingEnds (holdOut (if ok then s1 else raiseDev s1 0x0807 .l stack 0))

def execStackTrainingDone (stack : Fin 6) (sid repaired : Nat) (dense : Bool) (rfm : Option Nat) (ok : Bool) (s : State) :
    Host.Outcome State Fault Refusal :=
  .next (stackTrained s stack.val sid repaired dense rfm ok)

end Sys2Proof.Machine
end

