-- ==== Sys2Proof/Machine/Dma.lean ====
section
/-! DEFINITION. The DMA engines (12), host access through BAR2 (11 R341) and the function-level reset (11 R342, 12 R384). -/

namespace Sys2Proof.Machine

/-! ### Memory writes that see poison (10 R317, R324, R326) -/

/-- The bytes of one 64-bit word that a write covers: bytes with a mark each, `true` where the byte came from a poisoned
word. A marked byte makes the word poison; a whole word replaces what was there; part of a word that is poison is lost. The
flag says that the write met poison. -/
def storeWord (s : State) (addr : Nat) (bs : List (Byte × Bool)) : State × Bool :=
  if bs.any Prod.snd then (poisonWord s addr, true)
  else if bs.length < 8 && poisoned s addr (addr + 1) then
    ({ s with hbm := { s.hbm with poisonReads := s.hbm.poisonReads + 1 } }, true)
  else (s.store addr (bs.map Prod.fst), false)

/-- Write bytes to HBM word by word. `fuel` bounds the number of words. -/
def storeMarked : Nat → State → Nat → List (Byte × Bool) → State × Bool
  | 0, s, _, _ => (s, false)
  | fuel + 1, s, addr, bs =>
    if bs = [] then (s, false)
    else
      let n := 8 - addr % 8
      let r := storeWord s addr (bs.take n)
      let t := storeMarked fuel r.1 (addr + n) (bs.drop n)
      (t.1, r.2 || t.2)

/-- Poisoned words in a range of HBM bytes. -/
def poisonCount (s : State) (addr n : Nat) : Nat :=
  (s.hbm.poison.filter fun w => 8 * w < addr + n && addr < 8 * w + 8).length

/-- The words of the bytes from `lo` to `hi - 1` are read: stacks wake, the reads have their outcomes, and poisoned words count
in POISON_READS (10 R325, R326, R333). -/
def readWords (s : State) (lo hi : Nat) (ecc : List (Nat × Nat)) : State :=
  let s1 := readErrors (touchHbm s lo (hi - lo)) lo hi ecc
  { s1 with hbm := { s1.hbm with poisonReads := s1.hbm.poisonReads + BitVec.ofNat 32 (poisonCount s1 lo (hi - lo)) } }

/-- Bytes of HBM with a mark on those of a poisoned word. -/
def marked (s : State) (addr n : Nat) : List (Byte × Bool) :=
  (s.load addr n).zip ((List.range n).map fun i => poisoned s (addr + i) (addr + i + 1))

/-- Bytes written to HBM: stacks wake, the reads of words covered in part have their outcomes, the bytes are written, and the
writes have theirs (10 R317, R325, R333). The flag says that the write met poison. -/
def writeWords (s : State) (addr : Nat) (bs : List (Byte × Bool)) (ecc : List (Nat × Nat)) : State × Bool :=
  let hi := addr + bs.length
  let r := storeMarked (bs.length + 1) (mergeErrors (touchHbm s addr bs.length) addr hi ecc) addr bs
  (writeErrors r.1 addr hi ecc, r.2)

/-! ### Engines and channels (12 R370, R371) -/

/-- The engine of a channel: 0 BDMA0, 1 BDMA1, 2 MDMA_A, 3 to 6 MDMA_G0 to MDMA_G3. -/
def engineOf (ch : Nat) : Nat := if ch < 8 then 0 else if ch < 16 then 1 else if ch < 20 then 2 else 3 + (ch - 20) / 4

/-- The channels of an engine in ascending order. -/
def engineChannels (e : Nat) : List Nat := (List.range 36).filter fun ch => engineOf ch == e

/-- The world of a channel. -/
def chanWorld (s : State) (ch : Nat) : World := vget s.world.dma ch .secure

/-- A record of an error whose resource is a DMA channel. -/
def raiseChan (s : State) (cause : U16) (cls : Cls) (ch : Nat) : State :=
  if engineOf ch = 2 then raiseDev s cause cls ch 0 else raise s cause cls (chanWorld s ch) ch 0

/-- The core that a transfer of a cluster engine names. -/
def dmaCore (ch : Nat) (x : DmaSet) : Nat := 8 * (engineOf ch - 3) + x.core.toNat

/-! ### What a transfer touches (12 R385) -/

/-- An HBM range has a byte in a stack of a mask (10 R308). -/
def rangeInStacks (s : State) (mask : BitVec 6) (addr n : Nat) : Bool :=
  let l := s.hbm.serving
  (List.range (ceilDiv (addr % granule + n) granule)).any fun i =>
    mask.getLsbD (l.getD ((addr / granule + i) % l.length) 0)

/-- A transfer reads or writes a power domain; its cluster engine is part of its cluster. -/
def touchesDomain (ch d : Nat) : Bool := 3 ≤ engineOf ch && engineOf ch - 3 == d

/-- A transfer reads or writes stacks that are powering down. -/
def touchesGoing (s : State) (x : DmaSet) : Bool :=
  match s.power.stacksGoing with
  | none => false
  | some (mask, _) =>
    (x.srcSpace == 1 && rangeInStacks s mask x.src.toNat x.len.toNat) ||
      (x.dstSpace == 1 && rangeInStacks s mask x.dst.toNat x.len.toNat)

/-- A domain or stack that a transfer touches is powering down: POWER_HOLD. -/
def powerHold (s : State) (ch : Nat) (x : DmaSet) : Bool :=
  (s.power.changing.any fun c => c.off && touchesDomain ch c.domain) || touchesGoing s x

/-! ### The checks of a transfer (12 R374) -/

/-- A range of HBM lies below usable capacity and within regions of a world. -/
def hbmReachable (s : State) (w : World) (addr n : Nat) : Bool :=
  decide (addr + n ≤ s.hbm.capacity * granule) && inWorld s w addr n

/-- An area listed in 05 R141: every allocation but those whose area host software gave for its own use. -/
def ownArea (a : Alloc) : Bool :=
  match a.kind with
  | .namedGain _ | .snapshot _ => false
  | _ => true

/-- A range of HBM has a byte in such an area. -/
def inOwnArea (s : State) (addr n : Nat) : Bool := s.hbm.allocs.any fun a => ownArea a && overlaps addr n a.base a.size

/-- Check 1: the space codes are valid for the engine; no code names the Armature's memory (log 84). -/
def spacesOk (ch : Nat) (x : DmaSet) : Bool :=
  let a := x.srcSpace.toNat
  let b := x.dstSpace.toNat
  let local_ := 3 ≤ engineOf ch
  (a < 2 || local_) && (b < 2 || local_) && !(a == 0 && b == 0) && !(2 ≤ a && 2 ≤ b)

/-- Check 2: a length, and for an MDMA engine multiples of 64. -/
def alignOk (ch : Nat) (x : DmaSet) : Bool :=
  x.len != 0 && (engineOf ch < 2 || (x.src.toNat % 64 == 0 && x.dst.toNat % 64 == 0 && x.len.toNat % 64 == 0))

/-- Check 3 for one range. -/
def rangeOk (space : BitVec 2) (addr : U64) (len : U32) : Bool :=
  addr.toNat + len.toNat ≤ (if 2 ≤ space.toNat then 0x20000 else 2 ^ 64)

/-- Check 3: neither range wraps or leaves its memory, and two HBM ranges do not overlap. -/
def rangesOk (x : DmaSet) : Bool :=
  rangeOk x.srcSpace x.src x.len && rangeOk x.dstSpace x.dst x.len &&
    !(x.srcSpace == 1 && x.dstSpace == 1 && overlaps x.src.toNat x.len.toNat x.dst.toNat x.len.toNat)

/-- Check 4: HBM bytes belong to the channel's world, and none that is written is in an area of the Maelpin. -/
def hbmOk (s : State) (w : World) (x : DmaSet) : Bool :=
  (x.srcSpace != 1 || hbmReachable s w x.src.toNat x.len.toNat) &&
    (x.dstSpace != 1 || (hbmReachable s w x.dst.toNat x.len.toNat && !inOwnArea s x.dst.toNat x.len.toNat))

/-- Check 5: no domain of the transfer is off or changing state, and no stack of it is powering down. -/
def powerOk (s : State) (ch : Nat) (x : DmaSet) : Bool :=
  (engineOf ch < 3 || domainUp s (engineOf ch - 3)) && !touchesGoing s x

/-- The first failing check of a transfer as its status; none when all pass. -/
def transferCheck (s : State) (ch : Nat) (x : DmaSet) : Option Nat :=
  if !(spacesOk ch x && alignOk ch x && rangesOk x) then some stBadParam
  else if !hbmOk s (chanWorld s ch) x then some stWorldDenied
  else if !powerOk s ch x then some stBusy
  else none

/-! ### Completion records (12 R378 to R381) -/

/-- Entries of a channel's completion queue not consumed. -/
def dmaUsed (c : Channel) : Nat := (c.cqTail - c.cqHead).toNat

/-- The completion queue is in use and has a free entry. -/
def dmaRoom (c : Channel) : Bool := c.cqEnable && dmaUsed c < 2 ^ c.cqLog2.toNat

/-- A transfer as the shadow set gives it, loaded. -/
def loaded (x : DmaSet) : Active :=
  { set := x, running := false, endAs := none, ended := false, power := false, silent := false, done := 0, visible := none,
    crc := 0xFFFFFFFF, poisoned := false }

/-- An armed shadow set moves into an empty active set (12 R378). -/
def moveShadow (c : Channel) : Channel :=
  if c.armed && c.act.isNone then { c with armed := false, act := some (loaded c.shadow) } else c

/-- The 32 bytes of a DMA completion record (12 R380). -/
def dmaRecord (s : State) (ch : Nat) (c : Channel) (a : Active) : List Byte :=
  let status := a.endAs.getD stDone
  leBytes 4 a.set.tag.toNat ++ leBytes 2 status ++ leBytes 1 (b2n c.phase + 2 * b2n a.poisoned + 4 * b2n a.power) ++
    leBytes 1 ch ++ leBytes 4 a.done ++ leBytes 4 (a.set.len.toNat - a.done) ++
    leBytes 4 (a.crc ^^^ 0xFFFFFFFF#32).toNat ++ zeros 4 ++
    leBytes 8 ((timeField (a.visible.getD s.now)).toNat % 2 ^ 64)

/-- The address of the next record. -/
def recordAddr (c : Channel) : Nat := c.cqBase.toNat + 32 * (c.cqTail.toNat % 2 ^ c.cqLog2.toNat)

/-- The next record can be written: to host memory that is within reach, or to HBM within the channel's world, outside every
area of the Maelpin, while requests are served (log 50). -/
def recordReach (s : State) (ch : Nat) (c : Channel) : Bool :=
  let w := chanWorld s ch
  if !c.cqHbm then s.reach (fnOf w)
  else hbmReachable s w (recordAddr c) 32 && !inOwnArea s (recordAddr c) 32 && !s.hbm.rateRunning

/-- The record written to its queue. -/
def putRecord (s : State) (ch : Nat) (c : Channel) (bytes : List Byte) : State :=
  if !c.cqHbm then s.emit (.hostWrite (fnOf (chanWorld s ch)) (recordAddr c) bytes)
  else (touchHbm s (recordAddr c) 32).store (recordAddr c) bytes

/-- The channel after its record: counts, phase and the last transfer's bytes and tag; then the shadow set moves. -/
def afterRecord (c : Channel) (a : Active) : Channel :=
  let wrap : Bool := decide (c.cqTail.toNat % 2 ^ c.cqLog2.toNat + 1 = 2 ^ c.cqLog2.toNat)
  moveShadow { c with act := none, cqTail := c.cqTail + 1, phase := if wrap then !c.phase else c.phase,
                      transfers := c.transfers + 1,
                      aborts := if a.endAs = some stAborted then c.aborts + 1 else c.aborts,
                      lastDone := BitVec.ofNat 32 a.done, lastTag := a.set.tag }

/-- A transfer has nothing more to move: it ended early, or every byte is done. -/
def owesRecord (a : Active) : Bool := a.ended || (a.running && a.done == a.set.len.toNat)

/-- A transfer ends with a status before it has moved a byte: nothing of it has to become visible. -/
def endUnmoved (s : State) (a : Active) (status : Nat) : Active :=
  { a with endAs := some status, ended := true, visible := some s.now }

/-- A transfer that ended writes its record and sends its vector, once its bytes are visible and its queue has a free entry
and can be reached; one that ends silently only leaves (12 R379, R381, R384). -/
def writeRecord (s : State) (ch : Nat) : State :=
  let c := s.channel ch
  match c.act with
  | none => s
  | some a =>
    if !owesRecord a then s
    else if a.silent then
      s.setChannel ch (moveShadow { c with act := none, lastDone := BitVec.ofNat 32 a.done, lastTag := a.set.tag })
    else if a.visible.isSome && dmaRoom c && recordReach s ch c then
      let s1 := (putRecord s ch c (dmaRecord s ch c a)).setChannel ch (afterRecord c a)
      if a.set.irq then sendVector s1 (fnOf (chanWorld s ch)) 3 else s1
    else s

/-! ### Power-down of a domain (12 R385, 20 R552) -/

/-- A core of a cluster that lost its power: EMPTY with its memories lost; its counters stay. -/
def lostCore (c : Core) : Core :=
  { Reset.core with cycles := c.cycles, stalls := c.stalls, feedFrames := c.feedFrames, feedDeclined := c.feedDeclined,
                    derivedRecords := c.derivedRecords, eccCorr := c.eccCorr, portCollide := c.portCollide,
                    lastTrap := c.lastTrap }

/-- The Relief after its power was off: the bypass map, the fences and the drop list are lost. -/
def lostRelief (r : Relief) : Relief :=
  { r with ready := [], cur := none, acc := none, drain := [], spill := [], slots := Vector.replicate 2 none, stage := [],
           stageStall := none, drainStall := none, incidents := [], drops := [], injects := [], starter := none,
           bypass := Vector.replicate 32 none, fences := [] }

/-- The Frieze after its power was off: the delay store and the swap buffer are lost; its counters stay. -/
def lostFrieze (x : Frieze) : Frieze :=
  { x with single := false, bankB := false, switch := none, swap := none, swaps := [], entriesA := [], entriesB := [],
           tRefA := 0, tRefB := 0, expiryTold := false, expired := false, residueSeen := false }

/-- A chain after the Chisel was off: the FIR banks are lost; it is not defined. -/
def lostChain (c : Chain) : Chain := { c with bankA := Reset.chain.bankA, bankB := Reset.chain.bankB }

/-- What a power domain loses (20 R552). -/
def loseDomain (s : State) (d : Nat) : State :=
  if d < 4 then
    let cores := (List.range 8).foldl (fun t k => t.setCore (8 * d + k) (lostCore (t.core (8 * d + k)))) s
    (List.range 4).foldl (fun t k =>
      let c := t.channel (20 + 4 * d + k)
      t.setChannel (20 + 4 * d + k) { Reset.channel with transfers := c.transfers, aborts := c.aborts }) cores
  else if d = 4 then
    { s with chisel := { s.chisel with protos := Vector.replicate 8 none, chains := s.chisel.chains.map lostChain } }
  else if d = 5 then { s with frieze := lostFrieze s.frieze }
  else if d = 6 then { s with relief := lostRelief s.relief, trims := { s.trims with gridTest := none } }
  else { s with net := { s.net with ports := Vector.replicate 2 Reset.tport } }

/-- A transfer touches what a change powers down. -/
def hitBy (s : State) (ch : Nat) (a : Active) (d : Nat) : Bool :=
  if d = 8 then touchesGoing s a.set else touchesDomain ch d

/-- The channels with a transfer that a power-down waits for. -/
def hitChannels (s : State) (d : Nat) : List Nat :=
  (List.range 36).filter fun ch =>
    match (s.channel ch).act with
    | some a => hitBy s ch a d
    | none => false

/-- A loaded transfer that touches a domain powering down ends BUSY (step 4). -/
def endLoaded (s : State) (ch : Nat) : State :=
  let c := s.channel ch
  match c.act with
  | some a =>
    if a.running || a.ended then s
    else writeRecord (s.setChannel ch { c with act := some (endUnmoved s a stBusy) }) ch
  | none => s

/-- Stacks powered down: their contents are lost, the others keep theirs (10 R308, R333). -/
def stacksOff (s : State) (mask : BitVec 6) : State :=
  let off (i : Nat) : Bool := mask.getLsbD i
  let s1 := remap (settleHbm s) (s.hbm.serving.filter fun i => !off i)
  { s1 with power := { s1.power with stacksGoing := none },
            hbm := { s1.hbm with stackTab := (Vector.ofFn fun (i : Fin 6) =>
              let x := s1.stack i.val
              if off i.val then { x with state := .off } else x) } }

/-- The domain or the stacks power down (step 5). -/
def goOff (s : State) (d : Nat) : State :=
  if d = 8 then
    match s.power.stacksGoing with
    | some (mask, _) => stacksOff s mask
    | none => s
  else
    let p := s.power
    loseDomain { s with power := { p with changing := p.changing.filter fun c => c.domain != d,
                                          domainOn := p.domainOn &&& ~~~(BitVec.ofNat 8 (2 ^ d)) } } d

/-- Steps 4 and 5: with no running transfer on the domain the loaded ones end, shadow sets that move in behind them too,
and once none is left it powers down. -/
def powerDown (s : State) (d : Nat) : State :=
  let running (t : State) : Bool := (hitChannels t d).any fun ch =>
    match (t.channel ch).act with
    | some a => a.running
    | none => false
  if running s then s
  else
    let s1 := (hitChannels s d).foldl endLoaded s
    let s2 := (hitChannels s1 d).foldl endLoaded s1
    if (hitChannels s2 d).isEmpty then goOff s2 d else s2

/-- Every power-down that waits goes on. -/
def powerDowns (s : State) : State :=
  let ds := (s.power.changing.filter DomainChange.off).map DomainChange.domain ++
    (if s.power.stacksGoing.isSome then [8] else [])
  ds.foldl powerDown s

/-- A record that can be written is; then the power-downs go on. -/
def finishChannel (s : State) (ch : Nat) : State := powerDowns (writeRecord s ch)

/-- The last byte of a transfer that moves no more is visible now (12 R381). -/
def nowVisible (s : State) (a : Active) : Active :=
  if owesRecord a && a.visible.isNone then { a with visible := some s.now } else a

/-- DMA_TRANSFER_DONE: the data of a transfer that ended is visible: the controller has acknowledged the last write, the
flush read has returned, or the external port has applied it (12 R381). -/
def transferDone (s : State) (ch : Nat) : State :=
  let c := s.channel ch
  finishChannel (s.setChannel ch { c with act := c.act.map (nowVisible s) }) ch

def execDmaTransferDone (ch : Fin 36) (s : State) : Host.Outcome State Fault Refusal := .next (transferDone s ch.val)

/-- DMA_POWER_DEFERRAL_TIMEOUT: transfers running on the domain abort at their next burst boundary (step 3). Domain 8
stands for the stacks going off. -/
def deferralTimeout (s : State) (d : Nat) : State :=
  let limit : Option Nat :=
    if d = 8 then s.power.stacksGoing.map Prod.snd
    else ((s.power.changing.find? fun c => c.domain == d && c.off).map DomainChange.limit)
  let mark (t : State) (ch : Nat) : State :=
    let c := t.channel ch
    t.setChannel ch { c with act := c.act.map fun a =>
      if a.running && !a.ended && a.endAs.isNone then { a with endAs := some stAborted, power := true } else a }
  match limit with
  | none => s
  | some t => if s.now ≥ t then powerDowns ((hitChannels s d).foldl mark s) else s

def execDmaPowerDeferralTimeout (domain : Fin 9) (s : State) : Host.Outcome State Fault Refusal :=
  .next (deferralTimeout s domain.val)

/-! ### Starting (12 R374, R379) -/

/-- A loaded transfer whose queue has a free entry. -/
def canStart (c : Channel) : Bool :=
  match c.act with
  | some a => !a.running && !a.ended && dmaRoom c
  | none => false

/-- The engine carries a transfer until its record is written. -/
def engineBusy (s : State) (e : Nat) : Bool :=
  (engineChannels e).any fun ch =>
    match (s.channel ch).act with
    | some a => a.running
    | none => false

/-- Channels in the order in which the engine looks at them: after the one it last served, then from the lowest. -/
def roundRobin (s : State) (e : Nat) : List Nat :=
  match vget s.dma.last e none with
  | some l => (engineChannels e).filter (l < ·) ++ (engineChannels e).filter (· ≤ l)
  | none => engineChannels e

/-- The chosen transfer runs, or ends at once with the check it fails; either way it has its engine until its record is
written. After a class F fault it ends with DEVICE_FAULT. -/
def startChannel (s : State) (ch : Nat) : State :=
  let c := s.channel ch
  match c.act with
  | none => s
  | some a =>
    let s1 := { s with dma := { s.dma with last := vset s.dma.last (engineOf ch) (some ch) } }
    if s.err.fault then
      finishChannel (s1.setChannel ch { c with act := some { endUnmoved s a stDeviceFault with running := true } }) ch
    else
      match transferCheck s ch a.set with
      | none => s1.setChannel ch { c with act := some { a with running := true } }
      | some st =>
        let s2 := s1.setChannel ch { c with act := some { endUnmoved s a st with running := true } }
        finishChannel (raiseChan s2 0x0A01 .c ch) ch

/-- DMA_CHANNEL_START. -/
def dmaStart (s : State) (e : Nat) : State :=
  if engineBusy s e then s
  else
    match (roundRobin s e).find? fun ch => canStart (s.channel ch) with
    | some ch => startChannel s ch
    | none => s

def execDmaChannelStart (engine : Fin 7) (s : State) : Host.Outcome State Fault Refusal := .next (dmaStart s engine.val)

/-! ### Bursts (12 R375 to R377, R382) -/

/-- Bytes of the next burst: up to the next 512-byte boundary of the destination (12 R376). -/
def burstLen (a : Active) : Nat := min (a.set.len.toNat - a.done) (512 - (a.set.dst.toNat + a.done) % 512)

/-- The bytes of a core memory from a byte address on: three bytes of a word and a zero (12 R373). -/
def coreBytes (m : List (Nat × Nat)) (addr n : Nat) : List Byte :=
  (List.range n).map fun i =>
    let a := addr + i
    BitVec.ofNat 8 (if a % 4 = 3 then 0 else wordGet (a / 4) m / 2 ^ (8 * (a % 4)))

/-- Words of a core memory from bytes, the fourth of each ignored. -/
def coreWords (bs : List Byte) : List Nat := (List.range (bs.length / 4)).map fun i => field bs (4 * i) 3

/-- The 64-byte units of the source that a burst reads: from the one that holds the transfer's first byte, or the first that
no earlier burst read, to the one that holds the burst's last byte (12 R375). -/
def burstUnits (a : Active) (n : Nat) : Nat × Nat :=
  let addr := a.set.src.toNat + a.done
  (if a.done = 0 then addr / 64 * 64 else roundUp addr 64, roundUp (addr + n) 64)

/-- The source bytes of a burst with their poison marks; none where a host read failed. -/
def burstSource (s : State) (ch : Nat) (a : Active) (n : Nat) (data : HRead) (ecc : List (Nat × Nat)) :
    Option (State × List (Byte × Bool)) :=
  let addr := a.set.src.toNat + a.done
  let c := s.core (dmaCore ch a.set)
  match a.set.srcSpace.toNat with
  | 0 => data.map fun bs => (s, (slice bs 0 n).map fun b => (b, false))
  | 1 =>
    let s1 := readWords s (burstUnits a n).1 (burstUnits a n).2 ecc
    some (s1, marked s1 addr n)
  | 2 => some (s, (coreBytes c.x addr n).map fun b => (b, false))
  | _ => some (s, (coreBytes c.y addr n).map fun b => (b, false))

/-- A burst written into a core's memory through its external port (09 R278). -/
def burstToCore (s : State) (i : Nat) (inY : Bool) (addr : Nat) (bs : List (Byte × Bool)) (collide : List Nat) : State :=
  let words := coreWords (bs.map Prod.fst)
  let c := s.core i
  let written := (List.range words.length).map fun k => addr / 4 + k
  let c1 := if inY then { c with y := wordPutAll (addr / 4) words c.y } else { c with x := wordPutAll (addr / 4) words c.x }
  collisions (s.setCore i c1) i (lostWrites c inY collide written)

/-- The destination of a burst takes it; the flag says that it met poison. -/
def burstStore (s : State) (ch : Nat) (a : Active) (bs : List (Byte × Bool)) (collide : List Nat) (ecc : List (Nat × Nat)) :
    State × Bool :=
  let addr := a.set.dst.toNat + a.done
  let bad := bs.any Prod.snd
  let f := fnOf (chanWorld s ch)
  match a.set.dstSpace.toNat with
  | 0 => (s.emit (if bad then .hostWriteEp f addr (bs.map Prod.fst) else .hostWrite f addr (bs.map Prod.fst)), bad)
  | 1 => writeWords s addr bs ecc
  | 2 => (burstToCore s (dmaCore ch a.set) false addr bs collide, bad)
  | _ => (burstToCore s (dmaCore ch a.set) true addr bs collide, bad)

/-- A burst cannot move while its host space is out of reach (11 R339) or a data-rate change holds HBM requests (10 R331). -/
def burstHeld (s : State) (ch : Nat) (x : DmaSet) : Bool :=
  ((x.srcSpace == 0 || x.dstSpace == 0) && !s.reach (fnOf (chanWorld s ch))) ||
    ((x.srcSpace == 1 || x.dstSpace == 1) && s.hbm.rateRunning)

/-- A transfer to host space that moves no more flushes its writes with a one-byte read of the last address (12 R381). -/
def flushHost (s : State) (ch : Nat) (a : Active) : State :=
  if owesRecord a && a.set.dstSpace == 0 && a.done != 0 then
    s.emit (.hostFlush (fnOf (chanWorld s ch)) (a.set.dst.toNat + a.done - 1))
  else s

/-- DMA_BURST_DONE: the next burst completes; an end that was asked for takes effect behind it, and a failed host read before
it. `ecc` are the outcomes of its HBM reads and writes. -/
def burstDone (s : State) (ch : Nat) (data : HRead) (collide : List Nat) (ecc : List (Nat × Nat)) : State :=
  match (s.channel ch).act with
  | none => s
  | some a =>
    if !a.running || owesRecord a || burstHeld s ch a.set then s
    else
      let n := burstLen a
      match burstSource s ch a n data ecc with
      | none =>
        let c := s.channel ch
        let a1 := { a with ended := true, endAs := some (a.endAs.getD stAborted),
                           visible := if a.done = 0 then some s.now else none }
        flushHost (raiseChan (s.setChannel ch { c with act := some a1 }) 0x0A05 .l ch) ch a1
      | some (s1, bs) =>
        let r := burstStore s1 ch a bs collide ecc
        let s2 := r.1
        let c := s2.channel ch
        let a1 := { a with done := a.done + n, crc := (bs.map Prod.fst).foldl crcByte a.crc, poisoned := a.poisoned || r.2,
                           ended := a.endAs.isSome }
        let s3 := flushHost (s2.setChannel ch { c with act := some a1 }) ch a1
        if r.2 && !a.poisoned then raiseChan s3 0x0A04 .l ch else s3

def execDmaBurstDone (ch : Fin 36) (data : WithEcc HRead) (collide : List (Fin 32768)) (s : State) :
    Host.Outcome State Fault Refusal :=
  .next (burstDone s ch.val data.val (collide.map Fin.val) data.ecc)

/-! ### Channel registers (12 R378, R380, R383, R386) -/

/-- A host access that a world may not make: SECURE_ACCESS (00 R8, 17 R474). -/
def denyAccess (s : State) (f : Fn) (off : Nat) : State := raise s 0x0001 .c (worldOf f) (regRes f off) 0

/-- BAR0 offset of a channel register. -/
def chanOffset (ch reg : Nat) : Nat := 0xA0000 + 0x80 * ch + reg

/-- A function sees a channel's registers: not F1 those of a secure channel; those of MDMA_A belong to no world (12 R371). -/
def chanVisible (s : State) (f : Fn) (ch : Nat) : Bool := f == .f0 || chanWorld s ch == .nonsecure || engineOf ch == 2

/-- The abort of a channel's active transfer (12 R383). -/
def abortChannel (s : State) (ch : Nat) : State :=
  let c := s.channel ch
  match c.act with
  | none => s
  | some a =>
    if a.endAs.isSome || owesRecord a then s
    else
      let a1 := if a.running then { a with endAs := some stAborted } else endUnmoved s a stAborted
      finishChannel (s.setChannel ch { c with act := some a1 }) ch

/-- A write to the shadow set: ignored, with an error, while it is armed (12 R378). -/
def shadowWrite (s : State) (ch : Nat) (f : DmaSet → DmaSet) : State :=
  let c := s.channel ch
  if c.armed then raiseChan (s.setChannel ch { c with shadowErr := true }) 0x0A02 .c ch
  else s.setChannel ch { c with shadow := f c.shadow }

/-- The fields of the shadow set in CTRL. -/
def ctrlFields (val : Nat) (x : DmaSet) : DmaSet :=
  { x with srcSpace := BitVec.ofNat 2 val, dstSpace := BitVec.ofNat 2 (val / 4), core := BitVec.ofNat 3 (val / 16),
           irq := bitOf val 7 }

/-- CTRL.GO: arms the shadow set, which moves at once into an empty active set (12 R378). Without a completion queue it is
ignored (12 R386). -/
def goWrite (s : State) (ch val : Nat) : State :=
  let armed := (s.channel ch).armed
  let s1 := shadowWrite s ch (ctrlFields val)
  if armed then s1
  else if !(s1.channel ch).cqEnable then raiseChan s1 0x0A03 .c ch
  else
    let c := s1.channel ch
    s1.setChannel ch (moveShadow { c with armed := true })

/-- A write of CTRL: DISARM, ABORT, then GO. A write with ABORT or DISARM and without GO leaves the shadow set's fields as
they are (log 50). -/
def ctrlWrite (s : State) (ch val : Nat) : State :=
  let c := s.channel ch
  let s1 := if bitOf val 10 then s.setChannel ch { c with armed := false } else s
  let s2 := if bitOf val 9 then abortChannel s1 ch else s1
  if bitOf val 8 then goWrite s2 ch val
  else if bitOf val 9 || bitOf val 10 then s2
  else shadowWrite s2 ch (ctrlFields val)

/-- A write of CQ_HEAD: entries are consumed, or the write is ignored with a record (12 R380). -/
def dmaHeadWrite (s : State) (ch val : Nat) : State :=
  let c := s.channel ch
  let head : U16 := BitVec.ofNat 16 val
  if (head - c.cqHead).toNat ≤ dmaUsed c then finishChannel (s.setChannel ch { c with cqHead := head }) ch
  else raiseChan s 0x0A03 .c ch

/-- A write of CQ_CFG: LOG2 only while ENABLE is 0; clearing ENABLE sets the counts to 0 (12 R386). -/
def cqCfgWrite (s : State) (ch val : Nat) : State :=
  let c := s.channel ch
  let c1 := { c with cqLog2 := if c.cqEnable then c.cqLog2 else BitVec.ofNat 4 val, cqHbm := bitOf val 4 }
  if bitOf val 5 then finishChannel (s.setChannel ch { c1 with cqEnable := true }) ch
  else s.setChannel ch { c1 with cqEnable := false, cqHead := 0, cqTail := 0, phase := true }

/-- The halves of a 64-bit register. -/
def setLo (x : U64) (v : Nat) : U64 := BitVec.ofNat 64 (x.toNat / 2 ^ 32 * 2 ^ 32 + v % 2 ^ 32)
def setHi (x : U64) (v : Nat) : U64 := BitVec.ofNat 64 (x.toNat % 2 ^ 32 + v * 2 ^ 32)

/-- A write of a register of a channel by its offset. -/
def chanWrite (s : State) (ch reg val : Nat) : State :=
  let c := s.channel ch
  match reg with
  | 0x00 => shadowWrite s ch fun x => { x with src := setLo x.src val }
  | 0x04 => shadowWrite s ch fun x => { x with src := setHi x.src val }
  | 0x08 => shadowWrite s ch fun x => { x with dst := setLo x.dst val }
  | 0x0C => shadowWrite s ch fun x => { x with dst := setHi x.dst val }
  | 0x10 => shadowWrite s ch fun x => { x with len := BitVec.ofNat 32 val }
  | 0x14 => ctrlWrite s ch val
  | 0x18 => shadowWrite s ch fun x => { x with tag := BitVec.ofNat 32 val }
  | 0x20 => s.setChannel ch { c with shadowErr := c.shadowErr && !bitOf val 3 }
  | 0x30 => if c.cqEnable then s else s.setChannel ch { c with cqBase := setLo c.cqBase val }
  | 0x34 => if c.cqEnable then s else s.setChannel ch { c with cqBase := setHi c.cqBase val }
  | 0x38 => cqCfgWrite s ch val
  | 0x3C => dmaHeadWrite s ch val
  | _ => s

/-- A write of a channel register by a function: a secure channel's is refused from F1, and MDMA_A's are ignored (12 R371). -/
def chanWriteBy (s : State) (f : Fn) (ch reg val : Nat) : State :=
  if !chanVisible s f ch then denyAccess s f (chanOffset ch reg)
  else if engineOf ch = 2 then s
  else chanWrite s ch reg val

/-- STATUS of a channel. -/
def chanStatus (s : State) (ch : Nat) : Nat :=
  let c := s.channel ch
  let st := match c.act with
    | none => 0
    | some a => if !a.running then 1 else if a.endAs.isSome then 3 else 2
  let hold := match c.act with
    | some a => powerHold s ch a.set
    | none => false
  st + 4 * b2n c.armed + 8 * b2n c.shadowErr + 16 * b2n (c.cqEnable && !dmaRoom c) + 32 * worldBit (chanWorld s ch) +
    64 * b2n hold

/-- The value of a channel register; of MDMA_A's only STATUS is seen. -/
def chanRead (s : State) (ch reg : Nat) : Nat :=
  let c := s.channel ch
  let x := c.shadow
  if reg = 0x20 then chanStatus s ch
  else if engineOf ch = 2 then 0
  else
    match reg with
    | 0x00 => x.src.toNat % 2 ^ 32
    | 0x04 => x.src.toNat / 2 ^ 32
    | 0x08 => x.dst.toNat % 2 ^ 32
    | 0x0C => x.dst.toNat / 2 ^ 32
    | 0x10 => x.len.toNat
    | 0x14 => x.srcSpace.toNat + 4 * x.dstSpace.toNat + 16 * x.core.toNat + 128 * b2n x.irq
    | 0x18 => x.tag.toNat
    | 0x24 => match c.act with
      | some a => a.done
      | none => c.lastDone.toNat
    | 0x28 => match c.act with
      | some a => a.set.tag.toNat
      | none => c.lastTag.toNat
    | 0x30 => c.cqBase.toNat % 2 ^ 32
    | 0x34 => c.cqBase.toNat / 2 ^ 32
    | 0x38 => c.cqLog2.toNat + 16 * b2n c.cqHbm + 32 * b2n c.cqEnable
    | 0x3C => c.cqHead.toNat
    | 0x40 => c.cqTail.toNat
    | 0x44 => c.transfers.toNat
    | 0x48 => c.aborts.toNat
    | _ => 0

/-- DMA_GO: a write of CTRL with GO set. -/
def execDmaGo (fn : Fn) (ch : Fin 36) (val : U32) (s : State) : Host.Outcome State Fault Refusal :=
  .next (chanWriteBy s fn ch.val 0x14 (val ||| 0x100#32).toNat)

/-- DMA_ABORT: a write of CTRL with ABORT alone. -/
def execDmaAbort (fn : Fn) (ch : Fin 36) (s : State) : Host.Outcome State Fault Refusal :=
  .next (chanWriteBy s fn ch.val 0x14 0x200)

/-- DMA_DISARM: a write of CTRL with DISARM alone. -/
def execDmaDisarm (fn : Fn) (ch : Fin 36) (s : State) : Host.Outcome State Fault Refusal :=
  .next (chanWriteBy s fn ch.val 0x14 0x400)

def execDmaCqHeadWrite (fn : Fn) (ch : Fin 36) (val : U32) (s : State) : Host.Outcome State Fault Refusal :=
  .next (chanWriteBy s fn ch.val 0x3C val.toNat)

/-! ### BAR2 (11 R341) -/

/-- The record of a refused BAR2 access (17 R474, R475). -/
def bar2Denied (s : State) (f : Fn) (addr : Nat) : State :=
  raise s 0x0003 .c (worldOf f) (addr / 256) (addr % 256)

/-- A permitted BAR2 access is served: a read returns data, with EP set for a poisoned word; a write is posted. -/
def bar2Serve (s : State) (x : HeldAccess) : State :=
  match x.bytes with
  | none =>
    let s1 := readWords s x.addr (x.addr + x.len) x.ecc
    let bs := marked s1 x.addr x.len
    s1.emit (.bar2Data x.fn x.addr (bs.map Prod.fst) (bs.any Prod.snd))
  | some bytes => (writeWords s x.addr (bytes.map fun b => (b, false)) x.ecc).1

/-- A permitted BAR2 access: a data-rate change holds it (10 R331). -/
def bar2Access (s : State) (x : HeldAccess) : State :=
  if s.hbm.rateRunning then { s with hbm := { s.hbm with held := s.hbm.held ++ [x] } } else bar2Serve s x

/-- The accesses that a data-rate change held are served. -/
def serveHeld (s : State) : State := s.hbm.held.foldl bar2Serve { s with hbm := { s.hbm with held := [] } }

/-- A read through BAR2: data, or zeros with a record. -/
def bar2Read (s : State) (f : Fn) (addr len : Nat) (ecc : List (Nat × Nat)) : State :=
  if hbmReachable s (worldOf f) addr len then bar2Access s { fn := f, addr := addr, len := len, bytes := none, ecc := ecc }
  else (bar2Denied s f addr).emit (.bar2Data f addr (zeros len) false)

def execBar2Read (fn : Fn) (addr : Nat) (len : WithEcc Nat) (s : State) : Host.Outcome State Fault Refusal :=
  .next (bar2Read s fn addr len.val len.ecc)

/-- A write through BAR2. -/
def bar2Write (s : State) (f : Fn) (addr : Nat) (bytes : List Byte) (ecc : List (Nat × Nat)) : State :=
  if hbmReachable s (worldOf f) addr bytes.length && !inOwnArea s addr bytes.length then
    bar2Access s { fn := f, addr := addr, len := bytes.length, bytes := some bytes, ecc := ecc }
  else bar2Denied s f addr

def execBar2Write (fn : Fn) (addr : Nat) (bytes : WithEcc (List Byte)) (s : State) : Host.Outcome State Fault Refusal :=
  .next (bar2Write s fn addr bytes.val bytes.ecc)

/-! ### Function-level reset (11 R342, 12 R384) -/

/-- A queue pair after the reset of its function. -/
def resetQp (q : Qp) : Qp := { q with enable := false, state := .disabled, owed := [], waiting := none, retry := none }

/-- A ring after it. -/
def resetRing (r : Ring) : Ring :=
  if r.state = .undefined then r else { r with state := .suspended, since := 0, sinceTime := none }

/-- A channel of the function: its shadow set goes, a running transfer aborts at its burst boundary, a loaded one ends; only
a queue in HBM gets a record. -/
def resetChannel (now : Nat) (c : Channel) : Channel :=
  let act := c.act.map fun a =>
    if owesRecord a || a.endAs.isSome then { a with silent := !c.cqHbm }
    else { a with endAs := some stAborted, ended := !a.running, silent := !c.cqHbm,
                  visible := if a.running then a.visible else some now }
  let c1 := { c with armed := false, shadow := Reset.dmaSet, act := act }
  if c.cqHbm then c1 else { c1 with cqHead := 0, cqTail := 0, phase := true }

/-- FUNCTION_LEVEL_RESET. -/
def functionReset (s : State) (f : Fn) : State :=
  let x := s.fn f
  let s1 := s.setFn f { x with qps := x.qps.map resetQp, rings := x.rings.map resetRing,
                               msix := Vector.replicate 64 Reset.msix }
  let s1 := { s1 with pair := { s1.pair with heldCompletions := s1.pair.heldCompletions.filter fun h => h.fn != f } }
  (List.range 36).foldl (fun t ch =>
    if engineOf ch != 2 && fnOf (chanWorld t ch) == f then
      finishChannel (t.setChannel ch (resetChannel t.now (t.channel ch))) ch
    else t) s1

def execFunctionLevelReset (fn : Fn) (s : State) : Host.Outcome State Fault Refusal := .next (functionReset s fn)

end Sys2Proof.Machine
end

