-- ==== Sys2Proof/Machine/Settings.lean ====
section
/-! DEFINITION. Writing the settings and the boot record (19 R529, R532, R533, R541). -/

namespace Sys2Proof.Machine

/-- The settings: boot data rate, pair enable and partner serial (19 R532). -/
structure Settings where
  rate : Nat
  pair : Bool
  partner : Nat
  deriving DecidableEq, Repr

/-- The settings that a copy holds. -/
def readSettings (c : List Byte) : Settings :=
  { rate := field c 16 2, pair := bitOf (field c 18 1) 0, partner := field c 20 4 }

/-- The settings as last written or held; 8.0 Gb/s and no pair where there are none. -/
def settingsNow (s : State) : Settings :=
  match s.boot.heldSettings, newestSettings s with
  | some c, _ => readSettings c
  | none, some (_, c) => readSettings c
  | none, none => { rate := 8000, pair := false, partner := 0 }

/-- The format that the running image writes (19 R530, R541). -/
def writeFormat (s : State) : Nat :=
  match slotHeader s s.boot.runSlot with
  | some h => field h 18 2
  | none => s.boot.setFormat

/-- The 64 bytes of a settings copy, with the next sequence number and the format of the running image. -/
def settingsBytes (s : State) (x : Settings) : List Byte :=
  let seq := match newestSettings s with
    | some (_, c) => (field c 4 4 + 1) % 2 ^ 32
    | none => 1
  withCrc (leBytes 2 0x5E77 ++ leBytes 2 (writeFormat s) ++ leBytes 4 seq ++ leBytes 4 64 ++ zeros 4 ++
    leBytes 2 x.rate ++ leBytes 1 (b2n x.pair) ++ zeros 1 ++ leBytes 4 x.partner ++ zeros 36)

/-- A settings copy is programmed where the newest one does not lie. -/
def programSettings (s : State) (c : List Byte) : State :=
  let inZero := match newestSettings s with
    | some (inOne, _) => inOne
    | none => true
  let b := { s.boot with setFormat := field c 2 2, heldSettings := none }
  { s with boot := if inZero then { b with set0 := some c } else { b with set1 := some c } }

/-- The settings are written; while the running image is on trial the write is held (19 R533). -/
def storeSettings (s : State) (x : Settings) : State :=
  let c := settingsBytes s x
  if s.boot.trial then { s with boot := { s.boot with heldSettings := some c } } else programSettings s c

/-- The held settings write is made (19 R540). -/
def flushSettings (s : State) : State :=
  match s.boot.heldSettings with
  | some c => programSettings s c
  | none => s

/-! ### The boot record (19 R529) -/

/-- What a boot record says. -/
structure BootRec where
  confirmed : Nat
  trial : Nat
  count : Nat
  result : Nat
  confirmedVersion : Nat
  trialVersion : Nat
  deriving DecidableEq, Repr

/-- The fields of a record. -/
def readRec (b : BootEntry) : BootRec :=
  { confirmed := recConfirmed b, trial := recTrial b, count := recCount b, result := recResult b,
    confirmedVersion := field b 12 4, trialVersion := field b 16 4 }

/-- The 64 bytes of a record with a sequence number. -/
def recBytes (seq : Nat) (x : BootRec) : BootEntry :=
  withCrc (leBytes 2 0x4D42 ++ leBytes 2 1 ++ leBytes 4 seq ++ leBytes 1 x.confirmed ++ leBytes 1 x.trial ++
    leBytes 1 x.count ++ leBytes 1 x.result ++ leBytes 4 x.confirmedVersion ++ leBytes 4 x.trialVersion ++ zeros 40)

/-- A record programmed in the first erased entry of a copy; a full copy is erased first. -/
def programRec (l : List (Nat × BootEntry)) (b : BootEntry) : List (Nat × BootEntry) :=
  match (List.range 64).find? fun i => (tabGet i l).isNone with
  | some i => tabSet i b l
  | none => [(0, b)]

/-- A write of the boot record: the next sequence number, in the copy that does not hold the newest record (19 R529). -/
def writeBootRec (s : State) (x : BootRec) : State :=
  let newest := newestRecord s
  let seq := match newest with
    | some (_, b) => (field b 4 4 + 1) % 2 ^ 32
    | none => 1
  let inOne := match newest with
    | some (one, _) => !one
    | none => false
  let b := recBytes seq x
  { s with boot := if inOne then { s.boot with rec1 := programRec s.boot.rec1 b }
                   else { s.boot with rec0 := programRec s.boot.rec0 b } }

/-- The newest record's fields; with no valid record, slot A confirmed and no trial. -/
def bootRec (s : State) : BootRec :=
  match newestRecord s with
  | some (_, b) => readRec b
  | none => { confirmed := 0, trial := 0xFF, count := 0, result := 0, confirmedVersion := slotVersion s 0,
              trialVersion := 0 }

end Sys2Proof.Machine
end

