-- ==== Sys2Proof/Machine/Power.lean ====
section
/-! DEFINITION. The POWER Clauses, the HBM data-rate change and the power domains (10 R329 to R334, 12 R385, 20 R552). -/

namespace Sys2Proof.Machine

/-! ### HBM data rate (10 R330 to R332) -/

/-- The data rates in Mb/s per pin (10 R305). -/
def dataRates : List Nat := [8000, 7200, 6400, 5600, 4800]

/-- The assembly buffer holds what arrives while a rate change stalls the memory: the admitted ingest rate times W + 12 us
is at most 12 MiB (10 R330). -/
def stallFits (s : State) : Bool :=
  decide (ingestOf s (productsIn s none) (fun _ => true) / 8 * ((s.intake.skew + 12000 : Nat) : Rat) / 1000000000 ≤
    (12582912 : Nat))

/-- POWER_HBM_RATE. -/
def hbmRate (s : State) (src : Src) (rate : Nat) : Result := do
  refuseIf (!dataRates.contains rate) stBadParam 8
  termCheck 6 (total (productsIn s none) Demand.hbm) (hbmPeak (stacksInService s) rate * 4 / 5)
  refuseIf (s.hbm.ratePending.isSome || !stallFits s) stBusy 8
  if rate = s.hbm.rate then done s
  else
    let s1 := { s with hbm := { s.hbm with ratePending := some rate } }
    if s.hbm.step = .readEye || s.hbm.step = .writeEye then
      let t := (timeField (s.hbm.stepTime + 200 * micros)).toNat
      .ok ({ s1 with hbm := { s1.hbm with rateSrc := some src } },
           { Reply.mk' stDeferred 2 (t % 2 ^ 64) 0 (t / 2 ^ 64) with followDue := true })
    else waits (startRateChange s1) []

def execPowerHbmRate (src : Src) (rate : U16) (s : State) : Out :=
  runClause (.powerHbmRate src rate) s fun s => hbmRate s src rate.toNat

/-- HBM_RATE_CHANGE_DONE: the new rate is in effect, the stacks leave self-refresh, what was held is served, retraining starts
again, the rate is stored for the next boot, and a
deferred Clause gets its follow entry (10 R331, R332, 19 R532). -/
def rateChangeDone (s : State) : State :=
  match s.hbm.ratePending with
  | none => s
  | some r =>
    if !s.hbm.rateRunning then s
    else
      let s1 := serveHeld (wakeStacks { s with hbm := { s.hbm with
        rate := r, ratePending := none, rateRunning := false, rateSrc := none, rateChanges := s.hbm.rateChanges + 1,
        step := .readEye, stepTime := s.now } })
      let s2 := storeSettings s1 { settingsNow s1 with rate := r }
      match s.hbm.rateSrc with
      | some src => followEntry s2 src 0x0D00 0 0 0
      | none => s2

def execHbmRateChangeDone (s : State) : Out := .next (rateChangeDone s)

/-- POWER_HBM_RETRAIN. -/
def execPowerHbmRetrain (src : Src) (s : State) : Out := runClause (.powerHbmRetrain src) s fun s => done (startRetrain s)

/-! ### Stack power states (10 R333, R334) -/

/-- A product, a chain or a Gloss attachment is defined and not suspended (10 R334). -/
def memoryInUse (s : State) : Bool :=
  (s.products.any fun p => !p.2.suspended) ||
    (s.chisel.chains.any fun c => c.state == .run) ||
    (s.gloss.cores.any fun c => match c.attach with
      | some a => ((s.product a.derived).map fun p => !p.suspended).getD false
      | none => false)

/-- The stacks that serve once those of a mask are off, or on. -/
def servingAfter (s : State) (mask : Nat) (on : Bool) : List Nat :=
  (List.range 6).filter fun i => (s.hbm.serving.contains i && (on || !bitOf mask i)) || (on && bitOf mask i)

/-- A change of the serving stacks passes the envelope, and finds no allocation (10 R334). -/
def servingCheck (s : State) (l : List Nat) : Except Reply Unit := do
  envelopeCheck s { s with hbm := { s.hbm with serving := l, capacity := capacityOf s l } }
  refuseIf (s.hbm.allocs != []) stBusy 8

/-- Stacks that are OFF start boot training (10 R333). -/
def trainStacks (s : State) (mask : Nat) : State :=
  let up := Vector.ofFn fun (i : Fin 6) =>
    let x := s.stack i.val
    if bitOf mask i.val && x.state == .off then { x with state := .training } else x
  { s with hbm := { s.hbm with stackTab := up, filled := false, step := .boot } }

/-- The named stacks that are OFF. -/
def offStacks (s : State) (mask : Nat) : List Nat :=
  (List.range 6).filter fun i => bitOf mask i && (s.stack i).state == .off

/-- Stacks are training, going off, or changing their rate. -/
def stacksChanging (s : State) : Bool :=
  s.hbm.ratePending.isSome || s.power.stacksGoing.isSome || s.hbm.stackTab.any fun x => x.state == .training

/-- POWER_HBM_STATE. -/
def hbmState (s : State) (state mask : Nat) : Result := do
  refuseIf (state != 0 && state != 2 && state != 3) stBadParam 8
  refuseIf (state != 2 && mask ≥ 64) stBadParam 9
  refuseIf (stacksChanging s) stBusy 8
  match state with
  | 2 =>
    refuseIf (memoryInUse s || (s.pair.role == .active && s.pair.guarded)) stBusy 8
    done (sleepStacks s)
  | 0 =>
    let awake := wakeStacks { s with hbm := { s.hbm with sleeping := false } }
    if offStacks s mask = [] then done awake
    else
      servingCheck s (servingAfter s mask true)
      done (trainStacks awake mask)
  | _ =>
    let l := servingAfter s mask false
    if l = s.hbm.serving then done s
    else
      servingCheck s l
      let s1 := powerDown { s with power := { s.power with stacksGoing := some (BitVec.ofNat 6 mask, s.now + 100 * micros) } } 8
      if s1.power.stacksGoing.isSome then waits s1 [8] else done s1

def execPowerHbmState (src : Src) (state mask : U8) (s : State) : Out :=
  runClause (.powerHbmState src state mask) s fun s => hbmState s state.toNat mask.toNat

/-! ### Power domains (20 R552) -/

/-- The use that keeps a domain on. -/
def domainBusy (s : State) (d : Nat) : Bool :=
  if d < 4 then (List.range 8).any fun k =>
    let c := s.core (8 * d + k)
    c.state == .running || c.attach.isSome
  else if d = 4 then s.chisel.chains.any fun c => c.state != .undefined
  else if d = 5 then !s.frieze.prods.isEmpty
  else if d = 6 then !s.corrs.isEmpty
  else s.net.ptpOn || s.net.ports.any TPort.forward

/-- POWER_DOMAIN. -/
def powerDomain (s : State) (d off limit : Nat) : Result := do
  refuseIf (d ≥ 8) stBadParam 8
  refuseIf (off ≥ 2) stBadParam 9
  refuseIf (limit > 1000000) stBadParam 12
  refuseIf (s.power.changing.any fun c => c.domain == d) stBusy 8
  if s.power.domainOn.getLsbD d = (off == 0) then done s
  else
    refuseIf (off == 1 && domainBusy s d) stBusy 8
    let us := if limit = 0 then 100 else limit
    let c : DomainChange := { domain := d, off := off == 1, limit := s.now + us * micros }
    let s1 := { s with power := { s.power with changing := s.power.changing ++ [c] } }
    let s2 := if off = 1 then powerDown s1 d else s1
    if s2.power.changing.any fun c => c.domain == d then waits s2 [d] else done s2

def execPowerDomain (src : Src) (domain off : U8) (limit : U32) (s : State) : Out :=
  runClause (.powerDomain src domain off limit) s fun s => powerDomain s domain.toNat off.toNat limit.toNat

/-- DOMAIN_POWER_UP_DONE: the domain is on, in its reset state. -/
def powerUpDone (s : State) (d : Nat) : State :=
  let p := s.power
  if p.changing.any fun c => c.domain == d && !c.off then
    { s with power := { p with changing := p.changing.filter fun c => c.domain != d,
                               domainOn := p.domainOn ||| BitVec.ofNat 8 (2 ^ d) } }
  else s

def execDomainPowerUpDone (domain : Fin 8) (s : State) : Out := .next (powerUpDone s domain.val)

end Sys2Proof.Machine
end

