-- ==== Sys2Proof/Machine/Clock.lean ====
section
/-! DEFINITION. The clock root: reference monitors, selection, the DPLL and the CLOCK Clauses (14). -/

namespace Sys2Proof.Machine

/-! ### What the Plinth takes from the DPLL (13 R389, R398) -/

/-- The increment for a frequency correction in 2^-10 ppb (13 R389). -/
def incFor (y : Int) : BitVec 48 :=
  BitVec.ofNat 48 (2748779069440 + roundHE (2748779069440 * y) 1024000000000).toNat

/-- The DPLL has REF_PTP selected (13 R398). -/
def refPtpSelected (s : State) : Bool := s.clock.selected == some 4

/-- The Plinth's increment follows y, or stays nominal while the DPLL takes y; with discipline off it is held (13 R397,
R398). -/
def setInc (s : State) : State :=
  if s.net.servo = .free then s
  else { s with plinth := { s.plinth with inc := if refPtpSelected s then incFor 0 else incFor s.net.freqAdj } }

/-- Values with how long each held, newest first, cut to the newest `room` of time. -/
def lastMinute : Nat → List (Int × Nat) → List (Int × Nat)
  | _, [] => []
  | room, (y, d) :: t => if room = 0 then [] else (y, min d room) :: lastMinute (room - d) t

/-- The mean of such values over time. -/
def meanOf (l : List (Int × Nat)) : Int :=
  let total := sumNat (l.map Prod.snd)
  if total = 0 then 0 else roundHE (sumInt (l.map fun p => p.1 * p.2)) total

/-! ### References (14 R418 to R422) -/

def State.ref (s : State) (r : Nat) : Ref := vget s.clock.refs r (Reset.ref 0)

def State.setRef (s : State) (r : Nat) (x : Ref) : State := { s with clock := { s.clock with refs := vset s.clock.refs r x } }

/-- The monitor gate in ms (14 R418). -/
def gateMs (r : Nat) : Nat := if r = 3 then 1000 else 100

/-- A reading lies within a limit in ppb; readings are in 2^-10 ppb. -/
def within (reading : Int) (ppb : Nat) : Bool := reading.natAbs ≤ ppb * 1024

/-- The divider of the comparison rate f_cmp = f_nom / d (14 R418). -/
def cmpDiv (x : Ref) : Nat := ceilDiv x.nominal 200000

/-- The comparison period P in 2^-16 ns (14 R418, R431, R432). -/
def cmpPeriod (s : State) (r : Nat) : Nat :=
  if r = 4 then second / 10 else if r = 3 then second else cmpDiv (s.ref r) * second / max 1 (s.ref r).nominal

/-- Bandwidths of the codes in half millihertz (14 R427). -/
def bandwidths : List Nat := [2, 8, 32, 125, 500, 2000, 8000, 32000, 125000, 500000, 2000000, 8000000]

/-- A code's bandwidth is at most f_cmp / 16 of a reference (14 R427). -/
def codeFits (s : State) (r code : Nat) : Bool :=
  let bw := bandwidths.getD code 0
  let x := s.ref r
  if r = 4 then bw ≤ 1250 && code ≤ 2 else if r = 3 then bw ≤ 125 else bw * cmpDiv x ≤ 125 * x.nominal

/-- The bandwidth code in use, 0 while no reference is followed (14 R427, R434). -/
def codeUsed (s : State) : Nat :=
  match s.clock.selected with
  | none => 0
  | some r => (List.range (s.clock.code + 1)).foldl (fun m c => if codeFits s r c then c else m) 0

/-! ### Selection (14 R423 to R432) -/

/-- The present epsilon has held until now; it counts while the DPLL is LOCKED (14 R426). -/
def noteFollowed (s : State) : State :=
  match s.clock.lockedAt with
  | none => s
  | some t =>
    let d := s.now - t
    let l := lastMinute (60 * second) ((s.clock.freq, d) :: s.clock.hist)
    { s with clock := { s.clock with hist := l, lockedTime := s.clock.lockedTime + d, lockedAt := some s.now } }

/-- The holdover average, 0 while the history is not valid (14 R426, R434). -/
def holdoverAvg (s : State) : Int := if s.clock.histValid then meanOf (noteFollowed s).clock.hist else 0

/-- The qualified references of the best rank. -/
def bestRank (s : State) : List Nat :=
  let q := [0, 1, 2, 3, 4].filter fun r => (s.ref r).qualified
  let best := q.foldl (fun m r => min m (s.ref r).rank) 16
  q.filter fun r => (s.ref r).rank == best

/-- The reference that AUTOMATIC chooses (14 R423). -/
def automatic (s : State) : Option Nat :=
  let l := bestRank s
  match s.clock.selected with
  | some c => if l.contains c then some c else pick l
  | none => pick l
where
  pick (l : List Nat) : Option Nat :=
    if s.clock.histValid then minBy (fun r => ((s.ref r).reading - holdoverAvg s).natAbs) l else l.head?

/-- The reference the DPLL chooses (14 R423). -/
def chooseRef (s : State) : Option Nat :=
  if s.clock.manual && (s.ref s.clock.manualRef).qualified then some s.clock.manualRef else automatic s

/-- What epsilon may be while a reference is followed, in 2^-10 ppb: its reject limit and 100 ppm (14 R415, R429). -/
def freqLimit (s : State) (r : Nat) : Nat := min (s.ref r).reject 100000 * 1024

/-- The loop's output while it follows a reference: the spec gives the loop's bandwidth and not its values, so epsilon and the
phase error are free within their limits (14 R427, R429, log 53). -/
def follow (s : State) (r : Nat) : State :=
  let lim := freqLimit s r
  let a := (noteFollowed s).free (2 * lim + 1)
  let e := a.2.free (2 ^ 32)
  let f : Int := (a.1 : Int) - lim
  { e.2 with clock := { e.2.clock with freq := f, clamped := f.natAbs == lim, phaseErr := (e.1 : Int) - 2147483648 } }

/-- One nanosecond of phase in the unit of a pull. -/
def pullUnit : Nat := 1000000000 * nanos

/-- The phase still to pull: the slope has taken its ns/s off it since it was last settled (14 R431). -/
def pullLeft (s : State) (p : Pull) : Int :=
  let left := p.left.natAbs - s.clock.slope * (s.now - p.at_)
  if p.left < 0 then -(left : Int) else left

/-- The phase still to pull in ns, as PULL_LEFT reads it (14 R434). -/
def pullNs (s : State) : Int :=
  match s.clock.pull with
  | none => 0
  | some p => (pullLeft s p).tdiv pullUnit

/-- The pull in progress counted up to the present time, before the slope or the time it is counted in changes. -/
def settlePull (s : State) : State :=
  { s with clock := { s.clock with pull := s.clock.pull.map fun p => { left := pullLeft s p, at_ := s.now } } }

/-- A reference is selected: the phase offset to it, free in (-P/2, P/2], begins to be pulled, and the state is ACQUIRE (14
R431). -/
def selectRef (s : State) (r : Nat) : State :=
  let s1 := noteFollowed s
  let p := max 1 (cmpPeriod s1 r)
  let a := s1.free p
  let c := a.2.clock
  let c1 := { c with selected := some r, state := .acquire, lockedAt := none,
                     pull := some { left := ((a.1 : Int) - ((p - 1) / 2 : Nat)) * 1000000000, at_ := s.now },
                     switches := if s.clock.selected.isSome then c.switches + 1 else c.switches }
  setInc (follow { a.2 with clock := c1 } r)

/-- No reference is qualified: HOLDOVER, with epsilon at the holdover average where there is one (14 R428). -/
def enterHoldover (s : State) : State :=
  let s1 := noteFollowed s
  let e := if s1.clock.histValid then holdoverAvg s1 else s1.clock.freq
  let s2 := { s1 with clock := { s1.clock with selected := none, state := .holdover, pull := none, clamped := false,
                                               freq := e, lockedAt := none } }
  raiseAttn (raiseDev (setInc s2) 0x0C05 .l 0 0) 5

/-- The DPLL chooses again (14 R423, R424). -/
def reselect (s : State) : State :=
  match chooseRef s with
  | some r => if s.clock.selected = some r then s else selectRef s r
  | none => if s.clock.selected.isSome then enterHoldover s else s

/-! ### Monitors (14 R419 to R422, R425) -/

/-- A reference is no longer qualified; a qualified one is reported (14 R422). -/
def disqualify (s : State) (r : Nat) : State :=
  let x := s.ref r
  let s1 := s.setRef r { x with qualified := false, requalFor := none, beyondFor := none,
                                disquals := if x.qualified then x.disquals + 1 else x.disquals }
  if x.qualified then raiseDev s1 0x0C03 .c r 0 else s1

/-- The activity monitor of a reference fails: it is disqualified at once (14 R419). -/
def refFails (s : State) (r : Nat) : State :=
  let x := s.ref r
  if x.rank = 0 then s
  else
    let s1 := s.setRef r { x with active := false, requalFor := none, beyondFor := none,
                                  actFails := if x.active then x.actFails + 1 else x.actFails }
    reselect (disqualify s1 r)

def execRefActivityFail (ref : Fin 5) (s : State) : Out := .next (refFails s ref.val)

/-- A reading beyond the warn limit (14 R422). -/
def judgeWarn (s : State) (r : Nat) : State :=
  let x := s.ref r
  if within x.reading x.accept then s.setRef r { x with warn := false }
  else if x.qualified && !within x.reading x.warnLimit && !x.warn then
    raiseAttn (raiseDev (s.setRef r { x with warn := true, warns := x.warns + 1 }) 0x0C02 .c r 0) 3
  else s

/-- A reading against the reject limit of a qualified reference, counted from the end of the first beyond it (14 R421). -/
def judgeReject (s : State) (r : Nat) : State :=
  let x := s.ref r
  if within x.reading x.reject then s.setRef r { x with beyondFor := none }
  else
    let n := match x.beyondFor with
      | some k => k + gateMs r
      | none => 0
    if n ≥ x.disqMs then disqualify s r else s.setRef r { x with beyondFor := some n }

/-- A reading against the accept limit of a reference that is not qualified (14 R421). -/
def judgeAccept (s : State) (r : Nat) : State :=
  let x := s.ref r
  if within x.reading x.accept then
    let n := x.requalFor.getD 0 + gateMs r
    if n ≥ x.requalMs then s.setRef r { x with qualified := true, requalFor := none, beyondFor := none }
    else s.setRef r { x with requalFor := some n }
  else s.setRef r { x with requalFor := none }

/-- A pair of equal-rank qualified references that disagree; the record names the lower-lettered one (14 R425). -/
def pairDisagrees (s : State) (a b : Nat) : State :=
  let x := s.ref a
  let y := s.ref b
  if x.qualified && y.qualified && x.rank == y.rank && x.read && y.read &&
      !within (x.reading - y.reading) s.clock.disagreeLimit then
    let known := s.clock.disagree.any fun p => p.1 == a && p.2.1 == b
    let rest := s.clock.disagree.filter fun p => !(p.1 == a && p.2.1 == b)
    let s1 := { s with clock := { s.clock with disagree := rest ++ [(a, b, s.now)] } }
    if known then s1 else raiseAttn (raiseDev s1 0x0C04 .c a 0) 4
  else s

/-- The pairs that still count: both qualified, and differing within the last 10 s. -/
def liveDisagree (s : State) : List (Nat × Nat × Nat) :=
  s.clock.disagree.filter fun p =>
    (s.ref p.1).qualified && (s.ref p.2.1).qualified && decide (s.now < p.2.2 + 10 * second)

/-- The pairs of a reference are judged with its new reading. -/
def judgePairs (s : State) (r : Nat) : State :=
  let s1 := { s with clock := { s.clock with disagree := liveDisagree s } }
  [0, 1, 2, 3, 4].foldl (fun t q => if q = r then t else pairDisagrees t (min q r) (max q r)) s1

/-- REF_MONITOR_GATE_END: a reading at the end of a gate. REF_PTP has one only while the servo is LOCKED. -/
def gateEnd (s : State) (r : Nat) (reading : Int) : State :=
  let x := s.ref r
  if x.rank = 0 || (r == 4 && s.net.servo != .locked) then s
  else
    let s1 := s.setRef r { x with reading := reading, read := true, active := true, beyond := !within reading x.reject }
    let s2 := if !within reading 1000000 then disqualify (judgeWarn s1 r) r
      else if x.qualified then judgeReject (judgeWarn s1 r) r
      else judgeAccept (judgeWarn s1 r) r
    let s3 := reselect (judgePairs s2 r)
    if s3.clock.selected = some r then follow s3 r else s3

def execRefMonitorGateEnd (ref : Fin 5) (reading : Int) (s : State) : Out := .next (gateEnd s ref.val reading)

/-- PHASE_PULL_END: the pull ends once the slope has taken the whole phase off, |phi0| / slope after it began (14 R431). -/
def phasePullEnd (s : State) : State :=
  match s.clock.pull with
  | some p => if pullLeft s p = 0 then { s with clock := { s.clock with pull := none } } else s
  | none => s

def execPhasePullEnd (s : State) : Out := .next (phasePullEnd s)

/-- DPLL_SETTLED: the pull has ended and the phase error has stayed within 20 ns for 1 s (14 R428). -/
def dpllSettled (s : State) : State :=
  if s.clock.state = .acquire && s.clock.pull.isNone then
    let e := s.free 641
    { e.2 with clock := { e.2.clock with state := .locked, phaseErr := (e.1 : Int) - 320, lockedAt := some s.now } }
  else s

def execDpllSettled (s : State) : Out := .next (dpllSettled s)

/-- HOLDOVER_HISTORY_VALID: 60 s of LOCKED have accumulated (14 R426). -/
def historyValid (s : State) : State :=
  let s1 := noteFollowed s
  if s1.clock.lockedTime ≥ 60 * second then { s1 with clock := { s1.clock with histValid := true } } else s1

def execHoldoverHistoryValid (s : State) : Out := .next (historyValid s)

/-- XO_LOST: a class F fault (14 R416). -/
def execXoLost (s : State) : Out :=
  .next (classF { s with clock := { s.clock with xoOk := false } } 0x0C01 .secure true 0 0)

/-! ### CLOCK Clauses (14 R435) -/

/-- The nominal frequency a reference may have (14 R418). -/
def nominalOk (r f : Nat) : Bool := if r = 4 then f == 0 else if r = 3 then f == 1 else 1000 ≤ f && f ≤ 800000000

/-- A limit in range. -/
def limitOk (n : Nat) : Bool := 1 ≤ n && n ≤ 100000

/-- CLOCK_REF_SET. -/
def clockRefSet (s : State) (r rank nominal accept warn reject disq requal : Nat) : Result := do
  refuseIf (r ≥ 5) stBadParam 8
  refuseIf (rank > 15) stBadParam 9
  refuseIf (!nominalOk r nominal) stBadParam 12
  refuseIf (!limitOk accept || accept > warn) stBadParam 16
  refuseIf (!limitOk warn || warn > reject) stBadParam 20
  refuseIf (!limitOk reject) stBadParam 24
  refuseIf (disq > 600000) stBadParam 28
  refuseIf (requal > 3600000) stBadParam 32
  let x := s.ref r
  let y := { x with rank := rank, nominal := nominal, accept := accept, warnLimit := warn, reject := reject, disqMs := disq,
                    requalMs := requal }
  let z := if rank = 0 ∨ x.rank = 0 then
      { y with qualified := false, warn := false, beyond := false, requalFor := none, beyondFor := none, read := false,
               reading := 0, active := rank != 0 && r == 4 && s.net.servo == .locked }
    else y
  done (reselect (s.setRef r z))

def execClockRefSet (src : Src) (ref rank : U8) (nominal accept warn reject disqMs requalMs : U32) (s : State) : Out :=
  runClause (.clockRefSet src ref rank nominal accept warn reject disqMs requalMs) s fun s =>
    clockRefSet s ref.toNat rank.toNat nominal.toNat accept.toNat warn.toNat reject.toNat disqMs.toNat requalMs.toNat

/-- CLOCK_SELECT. -/
def clockSelect (s : State) (manual r : Nat) : Result := do
  refuseIf (manual > 1) stBadParam 8
  refuseIf (manual == 1 && (r ≥ 5 || (s.ref r).rank == 0)) stBadParam 9
  done (reselect { s with clock := { s.clock with manual := manual == 1,
                                                  manualRef := if manual = 1 then r else s.clock.manualRef } })

def execClockSelect (src : Src) (manual ref : U8) (s : State) : Out :=
  runClause (.clockSelect src manual ref) s fun s => clockSelect s manual.toNat ref.toNat

/-- CLOCK_DPLL_SET. -/
def clockDpllSet (s : State) (code slope disagree : Nat) : Result := do
  refuseIf (code ≥ 12) stBadParam 8
  refuseIf (slope < 1 || slope > 100000) stBadParam 12
  refuseIf (disagree < 1 || disagree > 200000) stBadParam 16
  let s1 := settlePull s
  done { s1 with clock := { s1.clock with code := code, slope := slope, disagreeLimit := disagree } }

def execClockDpllSet (src : Src) (code : U8) (slope disagree : U32) (s : State) : Out :=
  runClause (.clockDpllSet src code slope disagree) s fun s => clockDpllSet s code.toNat slope.toNat disagree.toNat

/-- What CLOCK_QUERY reports (14 R435). -/
def clockReport (s : State) : Report :=
  .clock { refs := s.clock.refs.toList, state := s.clock.state, selected := s.clock.selected, freq := s.clock.freq,
           average := holdoverAvg s, valid := s.clock.histValid }

def execClockQuery (src : Src) (buf : HBuf) (s : State) : Out :=
  runClause (.clockQuery src buf) s fun s => answerReport s src buf (clockReport s)

end Sys2Proof.Machine
end

