-- ==== Sys2Proof/Machine/Time.lean ====
section
/-! DEFINITION. The Plinth and network time: the servo, the best master, transparent forwarding, TIME_OUT and TIME_IN, and the
TIME Clauses (13). -/

namespace Sys2Proof.Machine

/-! ### PTP messages (13 R391, IEEE 1588-2019, log 15) -/

/-- The number of a big-endian field. -/
def beField (bs : List Byte) (off n : Nat) : Nat := (slice bs off n).foldl (fun v b => 256 * v + b.toNat) 0

/-- The `n` bytes of a number, most significant first. -/
def beBytes (n v : Nat) : List Byte := (leBytes n v).reverse

/-- The message is of a version that is supported. -/
def ptpVersionOk (m : List Byte) : Bool := bits (beField m 1 1) 0 4 == 2 && bits (beField m 1 1) 4 4 < 2

/-- Fields of the message header. -/
def ptpDomain (m : List Byte) : Nat := beField m 4 1
def ptpTwoStep (m : List Byte) : Bool := bitOf (beField m 6 1) 1
def ptpCorrection (m : List Byte) : Int := toSigned 64 (beField m 8 8)
def ptpIdentity (m : List Byte) : Nat := beField m 20 8
def ptpSourcePort (m : List Byte) : Nat := beField m 28 2
def ptpSeq (m : List Byte) : Nat := beField m 30 2
def ptpLog (m : List Byte) : Int := toSigned 8 (beField m 33 1)

/-- A timestamp of a message body in Plinth units. -/
def ptpTime (m : List Byte) (off : Nat) : Nat := (beField m off 6 * 1000000000 + beField m (off + 6) 4) * nanos

def State.tport (s : State) (p : Nat) : TPort := vget s.net.ports p Reset.tport

def State.setTport (s : State) (p : Nat) (x : TPort) : State := { s with net := { s.net with ports := vset s.net.ports p x } }

/-- A timestamp taken at the bumps of a port: its granularity is 0.8 ns (13 R392, log 15). -/
def portStamp (t : Nat) : Nat := t * 10 / 524288 * 524288 / 10

/-- An interval of 2^l seconds. -/
def logInterval (l : Int) : Nat := if 0 ≤ l then second * 2 ^ l.toNat else second / 2 ^ l.natAbs

/-! ### Frames (13 R391, R404, R405) -/

/-- One bit of the reflected CRC-32 of IEEE 802.3; `n` bits of it. -/
def fcsShift : Nat → BitVec 32 → BitVec 32
  | 0, c => c
  | n + 1, c => fcsShift n (if c.getLsbD 0 then (c >>> 1) ^^^ 0xEDB88320#32 else c >>> 1)

/-- The frame check sequence of a frame's bytes (PRESUMED IEEE 802.3, log 15). -/
def ethFcs (bs : List Byte) : Nat :=
  ((bs.foldl (fun c b => fcsShift 8 (c ^^^ b.setWidth 32)) 0xFFFFFFFF#32) ^^^ 0xFFFFFFFF#32).toNat

/-- A frame with a good FCS. -/
def fcsOk (frame : List Byte) : Bool :=
  let n := frame.length - 4
  4 ≤ frame.length && ethFcs (frame.take n) == field frame n 4

/-- Where a frame's Ethertype stands, behind at most one VLAN tag. -/
def etherOff (f : List Byte) : Nat := if beField f 12 2 = 0x8100 then 16 else 12

/-- Where the UDP header of an IPv4 frame stands. -/
def udpOff (f : List Byte) : Nat := etherOff f + 2 + 4 * bits (beField f (etherOff f + 2) 1) 0 4

/-- A UDP/IPv4 frame to a port. -/
def udpTo (f : List Byte) (port : Nat) : Bool :=
  beField f (etherOff f) 2 == 0x0800 && beField f (etherOff f + 11) 1 == 17 && beField f (udpOff f + 2) 2 == port

/-- The least length of a message of a type (IEEE 1588-2019, log 15). -/
def ptpLength (type : Nat) : Nat := if type = 9 then 54 else if type = 0xB then 64 else 44

/-- Where the message of a type begins in a frame of the port's transport, with the addresses and ports of the profile (13
R391). -/
def messageOff (udp : Bool) (type : Nat) (f : List Byte) : Option Nat :=
  let port := if type < 8 then 319 else 320
  if udp then
    if udpTo f port && beField f (etherOff f + 18) 4 == 0xE0000181 then some (udpOff f + 8) else none
  else if beField f (etherOff f) 2 == 0x88F7 && beField f 0 6 == 0x011B19000000 then some (etherOff f + 2)
  else none

/-- The PTP message of a type that a frame with a good FCS carries for a port's slave. -/
def ptpMessage (udp : Bool) (type : Nat) (f : List Byte) : Option (List Byte) :=
  match messageOff udp type f with
  | none => none
  | some o =>
    let m := slice f o (f.length - 4 - o)
    if bits (beField m 0 1) 0 4 = type ∧ ptpLength type ≤ m.length then some m else none

/-- Both ports forward (13 R404). -/
def forwarding (s : State) : Bool := (s.tport 0).forward && (s.tport 1).forward

/-- A frame reaches the slave on a port that is enabled and up. One with a bad FCS is discarded and counted, here where it is
not counted as a frame to forward; so is a message of an unsupported version (13 R391, R405, log 15). -/
def ptpReceive (s : State) (p type : Nat) (f : List Byte) (body : List Byte → State) : State :=
  let x := s.tport p
  let discard := s.setTport p { x with rxDiscard := x.rxDiscard + 1 }
  if !x.enabled || !x.link then s
  else if !fcsOk f then (if forwarding s then s else discard)
  else
    match ptpMessage x.udp type f with
    | none => s
    | some m => if !ptpVersionOk m then discard else if ptpDomain m ≠ x.domain then s else body m

/-! ### The best master (13 R393, log 15) -/

/-- Lexicographic order. -/
def lexLt : List Nat → List Nat → Bool
  | a :: l, b :: m => a < b || (a == b && lexLt l m)
  | _, _ => false

/-- What the best master clock algorithm compares. -/
def announceKey (a : Announce) : List Nat :=
  [a.priority1, a.clockClass, a.accuracy, a.variance, a.priority2, a.grandmaster.toNat, a.stepsRemoved, a.identity.toNat,
   a.sourcePort, a.port]

/-- A foreign master was heard twice within its last four Announce intervals (IEEE 1588-2019, log 15). -/
def heardTwice (s : State) (f : Foreign) : Bool :=
  match f.heard with
  | _ :: t :: _ => decide (s.now ≤ t + 4 * logInterval f.data.log)
  | _ => false

/-- Two datasets come from the same master on the same port. -/
def sameMaster (a b : Announce) : Bool := a.identity == b.identity && a.sourcePort == b.sourcePort && a.port == b.port

/-- A foreign master is qualified: heard twice within the window, or selected already, on a port in use, less than 255 steps
away. -/
def qualifiedMaster (s : State) (f : Foreign) : Bool :=
  let x := s.tport f.data.port
  (heardTwice s f || s.net.master.any (sameMaster f.data)) && x.enabled && x.link && f.data.stepsRemoved < 255

/-- The best of the qualified foreign masters. -/
def bestMaster (s : State) : Option Announce :=
  (s.net.foreign.filter (qualifiedMaster s)).foldl (fun best f =>
    match best with
    | none => some f.data
    | some b => if lexLt (announceKey f.data) (announceKey b) then some f.data else some b) none

/-! ### The servo (13 R394 to R402) -/

/-- The present y has held until now; it counts while the servo is LOCKED. -/
def noteLocked (s : State) : State :=
  match s.net.lockedAt with
  | none => s
  | some t =>
    let l := lastMinute (60 * second) ((s.net.freqAdj, s.now - t) :: s.net.lockedY)
    { s with net := { s.net with lockedY := l, lockedAt := some s.now } }

/-- The least Sync rates of the bandwidth codes, per second (13 R395). -/
def leastSyncRates : List Nat := [1, 1, 2, 8, 32, 128]

/-- The selected master's Sync rate is at least a code's least rate. -/
def syncRateAllows (l : Int) (code : Nat) : Bool :=
  let rate := leastSyncRates.getD code 0
  if 0 ≤ l then rate * 2 ^ l.toNat ≤ 1 else rate ≤ 2 ^ l.natAbs

/-- The bandwidth code in use: the highest up to the set code that the master's rate allows, 0 where it allows none (13 R395,
log 15). -/
def servoCodeUsed (s : State) : Nat :=
  match s.net.syncLog with
  | none => s.net.code
  | some l => (List.range (s.net.code + 1)).foldl (fun m c => if syncRateAllows l c then c else m) 0

/-- The servo changes state. REF_PTP is active while it is LOCKED, and fails when it leaves LOCKED (14 R419). -/
def setServo (s : State) (v : Servo) : State :=
  let s1 := noteLocked s
  let s2 := { s1 with net := { s1.net with servo := v, lockedAt := if v = .locked then some s.now else none, in100 := 0,
                                           inThreshold := 0 } }
  if v = .locked then s2.setRef 4 { s2.ref 4 with active := true }
  else if s.net.servo = .locked then refFails s2 4
  else s2

/-- y at its mean over the last 60 s spent in LOCKED, or as it is after less than 60 s (13 R397). -/
def heldY (s : State) : Int :=
  let total := sumNat (s.net.lockedY.map Prod.snd)
  if total < 60 * second then s.net.freqAdj else meanOf s.net.lockedY

/-- The servo enters HOLDOVER or REFUSED and holds y. -/
def holdServo (s : State) (v : Servo) : State :=
  let s1 := setServo s v
  setInc { s1 with net := { s1.net with freqAdj := heldY s1 } }

/-- A pulse leaves on a pin: its leading edge on the grid of 0.15625 ns (13 R407, R408). A standby holds its pins low (18
R505). -/
def drivePulse (s : State) (pin time : Nat) : State :=
  let o := vget s.net.outs pin Reset.timeOut
  let edge := (roundHE time 10240).toNat * 10240
  if s.pair.role = .standby then s
  else
    let o1 := { o with pulses := o.pulses + 1, highUntil := some (edge + o.width * nanos) }
    let s1 := { s with net := { s.net with outs := vset s.net.outs pin o1 } }
    s1.emit (.pulse pin edge o.width)

/-- The pulse index of a periodic grid at or after a time (13 R402). -/
def gridIndex (o : TimeOut) (u : Nat) : Nat := if o.period = 0 then 0 else ceilDiv (u - o.start) o.period

/-- A step's effect on one pin: a pulse whose time a forward step passed goes at once, counted late; the periodic grid keeps
its anchor (13 R402). -/
def pinStepped (s : State) (pin : Nat) : State :=
  let o := vget s.net.outs pin Reset.timeOut
  let put (t : State) (o : TimeOut) : State := { t with net := { t.net with outs := vset t.net.outs pin o } }
  let now := s.now
  match o.mode with
  | 0 =>
    let due := (o.queue.filter fun r => r.time < now).length
    (List.range due).foldl (fun t _ => drivePulse t pin now)
      (put s { o with queue := o.queue.drop due, late := o.late + BitVec.ofNat 32 due })
  | 1 => if o.sent = 0 ∧ o.start < now then drivePulse (put s { o with sent := 1, late := o.late + 1 }) pin now else s
  | _ => put s { o with sent := gridIndex o now }

/-- A step: the Plinth is loaded, and what hangs on its time follows (13 R389, R399 to R403). -/
def stepPlinth (s : State) (u : Nat) : State :=
  let v := u % (2 ^ 48 * second)
  let p := { s.plinth with sec := BitVec.ofNat 48 (v / second), ns := BitVec.ofNat 32 (v % second / nanos),
                           sub := BitVec.ofNat 40 (v % nanos * 2 ^ 24) }
  let s1 := settlePull (noteFollowed (noteLocked s))
  let s2 := { s1 with plinth := p,
                      net := { s1.net with valid := true, stepGen := s1.net.stepGen + 1, steps := s1.net.steps + 1,
                                           sync := none, delay := none, delayAt := none } }
  let s3 := { s2 with net := { s2.net with lockedAt := s2.net.lockedAt.map fun _ => s2.now },
                      clock := { s2.clock with lockedAt := s2.clock.lockedAt.map fun _ => s2.now,
                                               pull := s2.clock.pull.map fun x => { x with at_ := s2.now } } }
  [0, 1, 2, 3].foldl pinStepped s3

/-- An offset applied as a step: the Plinth moves back by it. -/
def stepBy (s : State) (o : Int) : State := stepPlinth s (((s.now : Int) - o) % ((2 ^ 48 * second : Nat) : Int)).toNat

/-- The largest y: 200 ppm in 2^-10 ppb (13 R396). -/
def yLimit : Nat := 204800000

/-- The loop takes an offset: y becomes what the loop gives, a free value within its clamp (13 R395, R396, log 51). -/
def slewBy (s : State) : State :=
  let r := (noteLocked s).free (2 * yLimit + 1)
  setInc { r.2 with net := { r.2.net with freqAdj := (r.1 : Int) - yLimit } }

/-- Refuse an offset beyond the threshold (13 R400). -/
def refuseStep (s : State) (o : Int) : State :=
  let s1 := holdServo s .refused
  let id := s.net.refusedId + 1
  let ns := o / (nanos : Int)
  let s2 := { s1 with net := { s1.net with refusedId := id, refusedOfs := ns, refusalOpen := true,
                                           history := (id.toNat, ns) :: s1.net.history } }
  raiseAttn (raiseDev s2 0x0B01 .l 0 0) 10

/-- An offset within the threshold (13 R396, R397, R400). -/
def takeOffset (s : State) (o : Int) : State :=
  let n := s.net
  match n.servo with
  | .refused =>
    if n.inThreshold + 1 ≥ 4 then
      let s1 := setServo s .acquire
      { s1 with net := { s1.net with refusalOpen := false } }
    else { s with net := { n with inThreshold := n.inThreshold + 1 } }
  | .acquire =>
    let s1 := slewBy s
    if o.natAbs ≤ 100 * nanos then
      if n.in100 + 1 ≥ 16 then setServo s1 .locked else { s1 with net := { s1.net with in100 := n.in100 + 1 } }
    else { s1 with net := { s1.net with in100 := 0 } }
  | .locked =>
    let s1 := slewBy s
    if o.natAbs > 1000 * nanos then setServo s1 .acquire else s1
  | _ => s

/-- A measured offset: the first is a step, so is one after TIME_ACCEPT_STEP; one beyond the threshold is refused; others
are slewed (13 R396, R399 to R401). -/
def judgeOffset (s0 : State) (o : Int) : State :=
  let s := { s0 with net := { s0.net with offset := min (max (o / (nanos : Int)) (-2147483648)) 2147483647 } }
  let n := s.net
  if !n.valid then stepBy s o
  else if n.acceptArmed then
    let s1 := setServo (stepBy s o) .acquire
    { s1 with net := { s1.net with acceptArmed := false, refusalOpen := false } }
  else if o.natAbs > n.threshold * nanos then
    if n.servo = .refused then { s with net := { n with inThreshold := 0 } } else refuseStep s o
  else takeOffset s o

/-- The servo disciplines the Plinth. -/
def disciplining (s : State) : Bool := s.net.ptpOn && s.net.servo != .free

/-- A message comes from the selected master. -/
def fromMaster (s : State) (p : Nat) (m : List Byte) : Bool :=
  match s.net.master with
  | some a => a.port == p && a.identity.toNat == ptpIdentity m && a.sourcePort == ptpSourcePort m
  | none => false

/-- PTP_SYNC_RX: a Sync with its ingress time. -/
def syncRx (s : State) (p : Nat) (m : List Byte) (ingress : Nat) : State :=
  let x := s.tport p
  let s1 := s.setTport p { x with rxSync := x.rxSync + 1 }
  if !fromMaster s p m then s1
  else
    let two := ptpTwoStep m
    let q : SyncIn := { port := p, identity := BitVec.ofNat 64 (ptpIdentity m), seq := ptpSeq m, ingress := portStamp ingress,
                        origin := if two then none else some (ptpTime m 34), correction := ptpCorrection m }
    let s2 := { s1 with net := { s1.net with twoStep := two, sync := some q, syncLog := some (ptpLog m) } }
    if s.net.servo = .holdover then setServo s2 .acquire else s2

def execPtpSyncRx (port : Fin 2) (frame : List Byte) (ingress : Nat) (s : State) : Out :=
  .next (ptpReceive s port.val 0 frame fun m => syncRx s port.val m ingress)

/-- PTP_FOLLOW_UP_RX: the origin time of a two-step Sync. -/
def followUpRx (s : State) (p : Nat) (m : List Byte) : State :=
  match s.net.sync with
  | some q =>
    if fromMaster s p m && q.origin.isNone && q.port == p && q.seq == ptpSeq m then
      { s with net := { s.net with sync := some { q with origin := some (ptpTime m 34),
                                                         correction := q.correction + ptpCorrection m } } }
    else s
  | none => s

def execPtpFollowUpRx (port : Fin 2) (frame : List Byte) (s : State) : Out :=
  .next (ptpReceive s port.val 8 frame fun m => followUpRx s port.val m)

/-- An exchange is complete: the mean path delay is filtered over 16 exchanges, or the exchange is discarded; then its
offset is judged (13 R394). -/
def exchange (s : State) (p : Nat) (q : SyncIn) (origin : Nat) (d : DelayOut) (t4 : Nat) (corr : Int) : State :=
  let there : Int := (q.ingress : Int) - origin - q.correction
  let back : Int := (t4 : Int) - d.egress - corr
  let path := (there + back) / 2
  let x := s.tport p
  let s1 := { s with net := { s.net with sync := none, delay := none } }
  match s.net.meanPath with
  | none =>
    let s2 := { s1 with net := { s1.net with meanPath := some path.toNat } }
    if disciplining s2 then judgeOffset s2 (there - path.toNat) else s2
  | some f =>
    if path > f + 1000 * nanos then s1.setTport p { x with rxDiscard := x.rxDiscard + 1 }
    else
      let g := ((f : Int) + (path - f) / 16).toNat
      let s2 := { s1 with net := { s1.net with meanPath := some g } }
      if disciplining s2 then judgeOffset s2 (there - g) else s2

/-- PTP_DELAY_RESP_RX. The message of the selected master gives its logMinDelayReqInterval. -/
def delayRespRx (s : State) (p : Nat) (m : List Byte) : State :=
  let x := s.tport p
  let s0 := s.setTport p { x with rxDelayResp := x.rxDelayResp + 1 }
  let s1 := if fromMaster s p m then { s0 with net := { s0.net with delayLog := some (ptpLog m) } } else s0
  match s.net.sync, s.net.delay with
  | some q, some d =>
    match q.origin with
    | some origin =>
      if fromMaster s p m && d.port == p && d.seq == ptpSeq m then exchange s1 p q origin d (ptpTime m 34) (ptpCorrection m)
      else s1
    | none => s1
  | _, _ => s1

def execPtpDelayRespRx (port : Fin 2) (frame : List Byte) (s : State) : Out :=
  .next (ptpReceive s port.val 9 frame fun m => delayRespRx s port.val m)

/-- The master that the algorithm selects takes over: the frequency is kept, the servo returns to ACQUIRE, and its first
offset is judged as any other (13 R393). A master selected in HOLDOVER where there was none ends it with its first Sync (13
R397). -/
def selectMaster (s : State) : State :=
  let best := bestMaster s
  let same := match s.net.master, best with
    | some a, some b => sameMaster a b
    | none, none => true
    | _, _ => false
  let s1 := { s with net := { s.net with master := best } }
  if same then s1
  else
    let s2 := { s1 with net := { s1.net with sync := none, delay := none, delayAt := none, syncLog := none,
                                             delayLog := none, meanPath := none } }
    if !disciplining s2 then s2
    else if best.isSome && (s.net.master.isSome || s.net.servo != .holdover) then
      let s3 := setServo s2 .acquire
      { s3 with net := { s3.net with refusalOpen := false } }
    else if s2.net.servo = .acquire ∨ s2.net.servo = .locked then holdServo s2 .holdover else s2

/-- The dataset of an Announce message. -/
def readAnnounce (p : Nat) (m : List Byte) : Announce :=
  { port := p, identity := BitVec.ofNat 64 (ptpIdentity m), sourcePort := ptpSourcePort m,
    grandmaster := BitVec.ofNat 64 (beField m 53 8), priority1 := beField m 47 1, clockClass := beField m 48 1,
    accuracy := beField m 49 1, variance := beField m 50 2, priority2 := beField m 52 1, stepsRemoved := beField m 61 2,
    utcOffset := toSigned 16 (beField m 44 2), domain := ptpDomain m, log := ptpLog m }

/-- PTP_ANNOUNCE_RX. -/
def announceRx (s : State) (p : Nat) (m : List Byte) : State :=
  let x := s.tport p
  let a := readAnnounce p m
  let old := s.net.foreign.find? fun f => sameMaster f.data a
  let heard := (s.now :: (old.map Foreign.heard).getD []).take 2
  let rest := s.net.foreign.filter fun f => !sameMaster f.data a
  let s1 := s.setTport p { x with rxAnnounce := x.rxAnnounce + 1 }
  selectMaster { s1 with net := { s1.net with foreign := rest ++ [{ data := a, heard := heard }] } }

def execPtpAnnounceRx (port : Fin 2) (frame : List Byte) (s : State) : Out :=
  .next (ptpReceive s port.val 0xB frame fun m => announceRx s port.val m)

/-- The next Delay_Req is due: the master's logMinDelayReqInterval after the last one, one second while no Delay_Resp has told
it (13 R393, log 15). -/
def delayReqDue (s : State) : Bool :=
  match s.net.delayAt with
  | none => true
  | some t => decide (t + logInterval (s.net.delayLog.getD 0) ≤ s.now)

/-- DELAY_REQ_SEND: on the master's port, at the master's interval (13 R393). -/
def delayReqSend (s : State) (egress : Nat) : State :=
  match s.net.master with
  | some a =>
    let x := s.tport a.port
    if !disciplining s || !x.enabled || !x.link || !delayReqDue s then s
    else
      let s1 := s.setTport a.port { x with txDelayReq := x.txDelayReq + 1 }
      let d : DelayOut := { port := a.port, seq := s.net.delaySeq, egress := portStamp egress }
      ({ s1 with net := { s1.net with delay := some d, delayAt := some s.now,
                                      delaySeq := (s.net.delaySeq + 1) % 65536 } }).emit
        (.delayReq a.port { udp := x.udp, ip := x.ip, mac := x.mac, domain := x.domain, seq := s.net.delaySeq })
  | none => s

def execDelayReqSend (egress : Nat) (s : State) : Out := .next (delayReqSend s egress)

/-- PTP_MASTER_TIMEOUT: the selected master's Announce messages stop, or no Sync for 4 expected intervals (13 R397). -/
def masterTimeout (s : State) (announce : Bool) : State :=
  match s.net.master with
  | none => s
  | some a =>
    if announce then
      selectMaster { s with net := { s.net with foreign := s.net.foreign.filter fun f => !sameMaster f.data a } }
    else if disciplining s ∧ (s.net.servo = .acquire ∨ s.net.servo = .locked) then holdServo s .holdover
    else s

def execPtpMasterTimeout (announce : Bool) (s : State) : Out := .next (masterTimeout s announce)

/-! ### Transparent forwarding (13 R404 to R406) -/

/-- Where a frame's PTP event message begins, and where its UDP checksum stands if it has one: Layer 2 or UDP port 319, with
at most one VLAN tag. -/
def eventMessage (f : List Byte) : Option (Nat × Option Nat) :=
  let at_ : Option (Nat × Option Nat) :=
    if beField f (etherOff f) 2 = 0x88F7 then some (etherOff f + 2, none)
    else if udpTo f 319 then some (udpOff f + 8, some (udpOff f + 6))
    else none
  match at_ with
  | some (m, c) => if bits (beField f m 1) 0 4 < 2 then some (m, c) else none
  | none => none

/-- Bytes put into a frame at an offset. -/
def patch (f : List Byte) (off : Nat) (bs : List Byte) : List Byte := f.take off ++ bs ++ f.drop (off + bs.length)

/-- A ones'-complement sum folded to 16 bits. -/
def onesFold (n : Nat) : Nat := let a := n % 65536 + n / 65536; a % 65536 + a / 65536

/-- The UDP checksum after 8 bytes changed. -/
def newChecksum (old : Nat) (before after : List Byte) : Nat :=
  let word (bs : List Byte) (i : Nat) : Nat := beField bs (2 * i) 2
  let sum := (65535 - old) + sumNat ((List.range 4).map fun i => (65535 - word before i) + word after i)
  let c := 65535 - onesFold sum
  if c = 0 then 65535 else c

/-- A frame as it leaves: an event message with its residence time added, its UDP checksum and FCS made to match. -/
def forwarded (f : List Byte) (residence : Nat) : List Byte :=
  match eventMessage f with
  | none => f
  | some (m, c) =>
    let before := slice f (m + 8) 8
    let after := beBytes 8 ((beField f (m + 8) 8 + residence) % 2 ^ 64)
    let f1 := patch f (m + 8) after
    let f2 := match c with
      | some k => if beField f k 2 = 0 then f1 else patch f1 k (beBytes 2 (newChecksum (beField f k 2) before after))
      | none => f1
    let n := f2.length - 4
    f2.take n ++ leBytes 4 (ethFcs (f2.take n))

/-- ETH_FRAME_FORWARD: a frame received on one port leaves on the other (13 R404 to R406). The counters are those of the
port it came in by (log 52). -/
def ethForward (s : State) (p : Nat) (frame : List Byte) (residence : Nat) (full : Bool) : State :=
  let x := s.tport p
  let y := s.tport (1 - p)
  if !x.link then s
  else if !fcsOk frame then s.setTport p { x with rxDiscard := x.rxDiscard + 1 }
  else if !forwarding s then s
  else if full || !y.link then s.setTport p { x with tcDrop := x.tcDrop + 1 }
  else
    let peak := min 65535 (max x.resPeak (residence / nanos))
    (s.setTport p { x with tcFwd := x.tcFwd + 1, resPeak := peak }).emit (.eth (1 - p) (forwarded frame residence))

def execEthFrameForward (port : Fin 2) (frame : List Byte) (residence : Nat) (full : Bool) (s : State) : Out :=
  .next (ethForward s port.val frame residence full)

/-- TPORT_LINK_CHANGE (13 R406, R413). -/
def tportLink (s : State) (p : Nat) (up : Bool) : State :=
  if domainUp s 7 then s.setTport p { s.tport p with link := up } else s

def execTportLinkChange (port : Fin 2) (up : Bool) (s : State) : Out := .next (tportLink s port.val up)

/-! ### TIME_OUT (13 R407, R408) -/

/-- TIME_OUT_PULSE: the next pulse of a pin whose time has come. -/
def timeOutPulse (s : State) (pin : Nat) : State :=
  let o := vget s.net.outs pin Reset.timeOut
  let put (o : TimeOut) : State := { s with net := { s.net with outs := vset s.net.outs pin o } }
  match o.mode with
  | 0 =>
    match o.queue with
    | r :: rest => if r.time ≤ s.now then drivePulse (put { o with queue := rest }) pin r.time else s
    | [] => s
  | 1 => if o.sent = 0 ∧ o.start ≤ s.now then drivePulse (put { o with sent := 1 }) pin o.start else s
  | _ =>
    let t := o.start + o.sent * o.period
    if t ≤ s.now then drivePulse (put { o with sent := o.sent + 1 }) pin t else s

def execTimeOutPulse (pin : Fin 4) (s : State) : Out := .next (timeOutPulse s pin.val)

/-- A chain names a pin. -/
def pinNamed (s : State) (pin : Nat) : Bool := s.chisel.chains.any fun c => c.state != .undefined && c.detect.pin == some pin

/-- TIME_OUT_SET. -/
def timeOutSet (s : State) (f : Fn) (pin mode width : Nat) (start : U96) (period : Nat) : Result := do
  refuseIf (pin ≥ 4) stBadParam 8
  refuseIf (mode > 2) stBadParam 9
  refuseIf (width < 10 || width > 1000000000) stBadParam 12
  refuseIf (mode != 0 && (!timeOk start || timeOf start < s.now + 10 * micros)) stBadParam 16
  refuseIf (mode == 2 && period < (width + 10) * nanos) stBadParam 32
  refuseIf (vget s.world.pins pin .secure != worldOf f) stWorldDenied 8
  refuseIf (mode != 0 && pinNamed s pin) stBusy 8
  let o := vget s.net.outs pin Reset.timeOut
  let o1 := { o with mode := mode, width := width, start := if mode = 0 then o.start else timeOf start,
                     period := if mode = 2 then period else o.period, sent := 0, queue := if mode = 0 then o.queue else [] }
  done { s with net := { s.net with outs := vset s.net.outs pin o1 } }

def execTimeOutSet (src : Src) (pin mode : U8) (width : U32) (start : U96) (period : U64) (s : State) : Out :=
  runClause (.timeOutSet src pin mode width start period) s fun s => timeOutSet s src.fn pin.toNat mode.toNat width.toNat start period.toNat

/-! ### TIME_IN (13 R409, R410) -/

def State.tin (s : State) (f : Fn) (pin : Nat) : TimeIn :=
  match f with
  | .f0 => vget s.net.in0 pin Reset.timeIn
  | .f1 => vget s.net.in1 pin Reset.timeIn

def State.setTin (s : State) (f : Fn) (pin : Nat) (x : TimeIn) : State :=
  match f with
  | .f0 => { s with net := { s.net with in0 := vset s.net.in0 pin x } }
  | .f1 => { s with net := { s.net with in1 := vset s.net.in1 pin x } }

/-- An edge reaches one function's FIFO. -/
def fifoEdge (s : State) (pin : Nat) (falling glitch : Bool) (time : U96) (f : Fn) : State :=
  let x := s.tin f pin
  let t := timeOf time
  let near : Bool := match x.last with
    | some l => decide (l ≤ t) && decide (t < l + 20 * nanos)
    | none => false
  if !x.enabled then s
  else if glitch then s.setTin f pin { x with glitch := x.glitch + 1 }
  else if !bitOf x.edges (b2n falling) then s
  else if near then s.setTin f pin { x with rateDrop := x.rateDrop + 1 }
  else if x.fifo.length ≥ 64 then s.setTin f pin { x with overflow := x.overflow + 1 }
  else
    let e : TinEntry := { falling := falling, gen := s.net.stepGen, time := time }
    s.setTin f pin { x with fifo := x.fifo ++ [e], last := some t }

/-- An edge's timestamp: its granularity is 0.15625 ns (13 R409, log 15). -/
def edgeStamp (time : U96) : U96 := timeField (timeOf time / 10240 * 10240)

/-- TIME_IN_EDGE: a level that held less than 5 ns is a glitch. -/
def timeInEdge (s : State) (pin : Nat) (falling glitch : Bool) (time : U96) : State :=
  fifoEdge (fifoEdge s pin falling glitch (edgeStamp time) .f0) pin falling glitch (edgeStamp time) .f1

def execTimeInEdge (pin : Fin 4) (falling glitch : Bool) (time : U96) (s : State) : Out :=
  .next (timeInEdge s pin.val falling glitch time)

/-- TIME_IN_SET. -/
def timeInSet (s : State) (f : Fn) (pin edges enable : Nat) : Result := do
  refuseIf (pin ≥ 4) stBadParam 8
  refuseIf (edges == 0 || edges > 3) stBadParam 9
  refuseIf (enable > 1) stBadParam 10
  done (s.setTin f pin { s.tin f pin with edges := edges, enabled := enable == 1 })

def execTimeInSet (src : Src) (pin edges enable : U8) (s : State) : Out :=
  runClause (.timeInSet src pin edges enable) s fun s => timeInSet s src.fn pin.toNat edges.toNat enable.toNat

/-- A read of TIN_POP removes the head entry and latches its time. -/
def tinPop (s : State) (f : Fn) (pin : Nat) : State × Nat :=
  let x := s.tin f pin
  match x.fifo with
  | [] => (s, 0)
  | e :: rest =>
    (s.setTin f pin { x with fifo := rest, latched := e.time },
     1 + 2 * b2n e.falling + 4 * e.gen.toNat + 65536 * (e.time.toNat % 65536))

/-- A read of NOW_FRAC latches the whole Plinth time (13 R390). -/
def nowFrac (s : State) (f : Fn) : State × Nat :=
  let t := timeField s.now
  let p := match f with
    | .f0 => { s.plinth with latch0 := some t }
    | .f1 => { s.plinth with latch1 := some t }
  ({ s with plinth := p }, t.toNat % 65536)

/-! ### TIME Clauses (13 R414) -/

/-- TIME_PORT_SET. The slave has one domain, so both ports take it. -/
def timePortSet (s : State) (port flags domain : Nat) (ip : U32) (mac : BitVec 48) : Result := do
  refuseIf (port ≥ 2) stBadParam 8
  refuseIf (domain > 127) stBadParam 10
  refuseIf (!domainUp s 7) stBusy 8
  let x := { s.tport port with enabled := bitOf flags 0, udp := bitOf flags 1, forward := bitOf flags 2, ip := ip,
                               mac := mac }
  let s1 := s.setTport port x
  let both := s1.net.ports.map fun y => { y with domain := domain }
  let s2 := { s1 with net := { s1.net with ports := both } }
  let keep := s2.net.foreign.filter fun f => f.data.domain == domain && (s2.tport f.data.port).enabled
  done (selectMaster { s2 with net := { s2.net with foreign := keep } })

def execTimePortSet (src : Src) (port flags domain : U8) (ip : U32) (mac : BitVec 48) (s : State) : Out :=
  runClause (.timePortSet src port flags domain ip mac) s fun s => timePortSet s port.toNat flags.toNat domain.toNat ip mac

/-- TIME_SERVO_SET. -/
def timeServoSet (s : State) (threshold code flags : Nat) : Result := do
  refuseIf (threshold < 100 || threshold > 1000000000) stBadParam 8
  refuseIf (code ≥ 6) stBadParam 12
  refuseIf (bitOf flags 0 && !domainUp s 7) stBusy 13
  let on := bitOf flags 0
  let s1 := { s with net := { s.net with threshold := threshold, code := code, ptpOn := on } }
  if on && s.net.servo = .free then
    done (setServo s1 .acquire)
  else if !on then
    let s2 := setServo s1 .free
    done { s2 with net := { s2.net with refusalOpen := false } }
  else done s1

def execTimeServoSet (src : Src) (threshold : U32) (code flags : U8) (s : State) : Out :=
  runClause (.timeServoSet src threshold code flags) s fun s => timeServoSet s threshold.toNat code.toNat flags.toNat

/-- TIME_ACCEPT_STEP completes once the next offset has been applied as a step. -/
def acceptStep (s : State) (id : U32) : Result := do
  refuseIf (id != s.net.refusedId || !s.net.refusalOpen) stBadParam 8
  waits { s with net := { s.net with acceptArmed := true } } []

def execTimeAcceptStep (src : Src) (id : U32) (s : State) : Out := runClause (.timeAcceptStep src id) s fun s => acceptStep s id

/-- TIME_SET. -/
def timeSet (s : State) (time : U96) : Result := do
  refuseIf (!timeOk time) stBadParam 8
  refuseIf s.net.ptpOn stBusy 8
  done (stepPlinth s (timeOf time))

def execTimeSet (src : Src) (time : U96) (s : State) : Out := runClause (.timeSet src time) s fun s => timeSet s time

/-- The counters of a port, in the order of its registers (13 R413). -/
def portCounters (x : TPort) : List U32 :=
  [x.rxSync, x.rxAnnounce, x.txDelayReq, x.rxDelayResp, x.tcFwd, x.tcDrop, x.rxDiscard, BitVec.ofNat 32 x.resPeak]

/-- What TIME_QUERY reports: the refusals for the secure world only (13 R414). -/
def timeReport (s : State) (f : Fn) : Report :=
  .time { servo := s.net.servo, code := servoCodeUsed s, master := s.net.master, offset := s.net.offset,
          meanPath := s.net.meanPath, counters := s.net.ports.toList.map portCounters,
          refusals := if f = .f0 then s.net.history else [] }

def execTimeQuery (src : Src) (buf : HBuf) (s : State) : Out :=
  runClause (.timeQuery src buf) s fun s => answerReport s src buf (timeReport s src.fn)

end Sys2Proof.Machine
end

