-- ==== Sys2Proof/Machine/Trim.lean ====
section
/-! DEFINITION. Self-calibration: lane trims, level trims, grid tests, triggers and the trim image (15). -/

namespace Sys2Proof.Machine

/-! ### Lane trims (15 R437 to R440) -/

/-- The range of a value of a lane (15 R437). -/
def trimRange (index : Nat) : Int × Int :=
  if index = 0 then (0, 15) else if index ≤ 3 then (-32, 31) else if index ≤ 7 then (-64, 63) else (-128, 127)

/-- A code of a lane. -/
def laneCode (t : LaneTrim) (index : Nat) : Int := t.codes.getD index 0

/-- A step from the kept code stays within the value's range. -/
def stepFits (t : LaneTrim) (r : TrimRun) : Bool :=
  let v := laneCode t r.index + r.dir
  decide ((trimRange r.index).1 ≤ v) && decide (v ≤ (trimRange r.index).2)

/-- A run that has searched every value is over: the lane's reference is the die temperature (15 R449, R453). -/
def endTrim (s : State) (l : Nat) (t : LaneTrim) : State :=
  let s1 := s.setLaneTrim l { t with run := none, index := 10, refTemp := s.trims.dieTemp, valid := true }
  { s1 with trims := { s1.trims with laneRuns := s1.trims.laneRuns + 1 } }.setLane l { s1.lane l with stale := false }

/-- The search of a value is over: the next one begins with a count of its own (15 R438). -/
def nextValue (s : State) (l : Nat) (t : LaneTrim) (r : TrimRun) : State :=
  if r.index ≥ 10 then endTrim s l t
  else
    s.setLaneTrim l { t with index := r.index + 1,
                             run := some { r with index := r.index + 1, dir := 1, steps := 0, best := none, trial := false } }

/-- The next trial step, where one fits; a direction that gave nothing is followed by the other, and a value with a step
kept is done (15 R438). -/
def trialStep (s : State) (l : Nat) (t : LaneTrim) (r : TrimRun) : State :=
  if r.steps < 4 && stepFits t r then s.setLaneTrim l { t with run := some { r with trial := true } }
  else if r.steps > 0 || r.dir != 1 then nextValue s l t r
  else
    let r1 := { r with dir := -1 }
    if stepFits t r1 then s.setLaneTrim l { t with run := some { r1 with trial := true } } else nextValue s l t r1

/-- A trial step is not better: it is undone, and its direction ends (15 R438, R439). -/
def trialWorse (s : State) (l : Nat) (t : LaneTrim) (r : TrimRun) : State :=
  if r.steps > 0 || r.dir != 1 then nextValue s l t r
  else trialStep s l t { r with dir := -1, trial := false }

/-- A window of 1,024 frames has given its inner-eye count (15 R438). -/
def trimWindow (s : State) (l count : Nat) : State :=
  let t := s.laneTrim l
  match t.run with
  | none => s
  | some r =>
    if !r.trial then trialStep s l t { r with best := some count }
    else if r.best.any fun m => decide (count < m) then
      let t1 := { t with codes := t.codes.set r.index (laneCode t r.index + r.dir) }
      trialStep s l t1 { r with best := some count, steps := r.steps + 1, trial := false }
    else trialWorse s l t r

def execLaneTrimWindowEnd (lane : Fin 52) (count : Nat) (s : State) : Host.Outcome State Fault Refusal :=
  .next (trimWindow s lane.val count)

/-- A frame with an uncorrectable codeword fell in the window of a trial step: the step is undone and counted (15 R439). -/
def trialThreat (s : State) (l : Nat) : State :=
  let t := s.laneTrim l
  match t.run with
  | some r =>
    if r.trial then
      let s1 := trialWorse s l t r
      { s1 with trims := { s1.trims with laneReverts := s1.trims.laneReverts + 1 } }
    else s
  | none => s

/-- The lane can start a run: it searches or is UP and has none (15 R440). -/
def trimmable (s : State) (l : Nat) : Bool :=
  ((s.lane l).rx == .up || (s.lane l).rx == .search) && (s.laneTrim l).run.isNone

/-! ### Level trims (15 R441 to R445) -/

/-- The integer square root of a number below 2^34, bit by bit from bit `k - 1` down. -/
def isqrtFrom : Nat → Nat → Nat → Nat
  | 0, _, r => r
  | k + 1, x, r => isqrtFrom k x (if (r + 2 ^ k) * (r + 2 ^ k) ≤ x then r + 2 ^ k else r)

/-- The gain that gives a part an RMS of 3.0 after requantization, from n samples with power sum S2 (15 R442). -/
def levelGain (n s2 : Nat) : Nat :=
  let x := 2 * 12288 * 12288 * n
  let q := isqrtFrom 17 (x / s2) 0
  let twice := (2 * q + 1) * (2 * q + 1) * s2
  let g := if 4 * x > twice then q + 1 else if 4 * x < twice then q else q + q % 2
  min 65535 (max 1 g)

/-- What the measurement of one pair says: none where it is skipped, else the gain to load, if the change is large enough
(15 R442). -/
def pairGain (s : State) (l : LevelTrim) (m : (Nat × Nat) × (Nat × Nat)) : Option (Option ((Nat × Nat) × U16)) :=
  if m.2.1 < 65536 || m.2.2 = 0 then none
  else
    let new := levelGain m.2.1 m.2.2
    let old := gainAt s m.1.1 m.1.2 s.intake.front
    some (if 16 * ((new : Int) - old).natAbs > old && !l.replaced.contains m.1 then
      some (m.1, BitVec.ofNat 16 new) else none)

/-- The Armature has computed the gains of a run whose interval has ended: the changed ones load as one set at the next
dwell boundary, where the held span ends (15 R442, R444). -/
def levelComputed (s : State) (n : Nat) : State :=
  match s.trims.levels.find? fun l => l.stream == n && l.ended && l.boundary.isNone with
  | none => s
  | some l =>
    let out := l.sums.map (pairGain s l)
    let b := gainBoundary s (l.sums.map Prod.fst)
    let gains := out.filterMap fun x => x.bind id
    let s1 := if gains.isEmpty then s else loadGains s n b gains true
    let t := s1.trims
    let s2 := countCommit s1
    (mirrorCommit { s2 with trims := { t with
      levels := t.levels.map (fun x => if x.stream = n then { x with boundary := some b } else x),
      levelSkipped := t.levelSkipped + BitVec.ofNat 32 (out.filter Option.isNone).length,
      levelRuns := t.levelRuns + 1, levelRef := t.dieTemp } }).1

def execLevelTrimComputeDone (stream : Fin 1024) (s : State) : Host.Outcome State Fault Refusal :=
  .next (if s.err.service && !gated s then levelComputed s stream.val else s)

/-- A level trim of a stream starts; its interval begins at the next multiple of 2^20 (15 R441). -/
def startLevel (s : State) (n : Nat) : State :=
  { s with trims := { s.trims with levels := s.trims.levels ++
      [{ stream := n, start := none, sums := [], ended := false, boundary := none, replaced := [] }] } }

/-- A level trim of a chain starts; a chain without an EVENT product is skipped (15 R443, R444). -/
def startChainLevel (s : State) (i : Nat) : State :=
  let c := s.chain i
  if c.event.isNone then s
  else
    let t : ChainTrim := { chain := i, blocks := [], sum := 0, count := 0 }
    let s1 := { s with trims := { s.trims with chainLevels := s.trims.chainLevels ++ [t] } }
    s1.setChain i { c with det := { c.det with held := true } }

/-- A level trim of a stream is measuring or computing. -/
def levelBusy (s : State) (n : Nat) : Bool := s.trims.levels.any fun l => l.stream == n && l.boundary.isNone

def chainLevelBusy (s : State) (i : Nat) : Bool := s.trims.chainLevels.any fun t => t.chain == i

/-- Streams and chains that are defined. -/
def streamNumbers (s : State) : List Nat := (s.intake.streams.filter fun x => x.2.entry.isSome).map Prod.fst
def chainNumbers (s : State) : List Nat := (List.range 64).filter fun i => (s.chain i).state != .undefined

/-- A level trim of every stream and chain that has none. -/
def startLevels (s : State) : State :=
  let s1 := ((streamNumbers s).filter fun n => !levelBusy s n).foldl startLevel s
  ((chainNumbers s1).filter fun i => !chainLevelBusy s1 i).foldl startChainLevel s1

/-- A restart of the Armature abandons every level trim: nothing changes, and the held span ends at the next boundary of the
longest dwell among the products that use the stream (15 R445). -/
def abandonLevels (s : State) : State :=
  let pairs (n : Nat) : List (Nat × Nat) := ((s.stream n).entry.map streamPairs).getD []
  let stop (l : LevelTrim) : Option LevelTrim :=
    if l.start.isNone then none
    else if l.boundary.isSome then some l
    else some { l with ended := true, boundary := some (gainBoundary s (pairs l.stream)) }
  let s1 := { s with trims := { s.trims with chainLevels := [], levels := s.trims.levels.filterMap stop } }
  s.trims.chainLevels.foldl (fun t x =>
    let c := t.chain x.chain
    t.setChain x.chain { c with det := { c.det with held := false } }) s1

/-! ### Grid tests (15 R446 to R448) -/

/-- The bypass of a row in test instance p: a row with a repair keeps its own, any other bypasses p, and p = 32 none. -/
def testBypass (s : State) (p row : Nat) : Option Nat :=
  match rowBypass s row with
  | some b => some b
  | none => if p = 32 then none else some p

/-- The logical cells that disagree in a test run, of the physical cells that compute wrongly: those in use and not fenced. -/
def testErrs (s : State) (p : Nat) (bad : List (Fin 32 × Fin 33)) : List (Nat × Nat) :=
  bad.filterMap fun x =>
    if s.relief.fences.contains (Fence.mk x.1.val x.2.val) then none
    else (logicalCol (testBypass s p x.1.val) x.2.val).map fun c => (x.1.val, c)

/-- The next instance waits its turn; after the last one the test is over (15 R446, R449). -/
def nextInstance (s : State) (p : Nat) : State :=
  if p ≥ 32 then
    { s with trims := { s.trims with gridTest := none, cellRuns := s.trims.cellRuns + 1, cellRef := s.trims.dieTemp } }
  else { s with trims := { s.trims with gridTest := some (p + 1) } }

/-- The outcome of a localisation, for LAST_LOCALISED (06 R197). -/
def noteLocalised (s : State) (id : U16) (row pos outcome : Nat) (persistent : Bool) : State :=
  showLocalised s id { row := row, pos := pos, outcome := outcome, persistent := persistent }

/-- The cells in which injected faults invert a bit; those of mode ONCE only in the first run (06 R198). -/
def injectCells (s : State) (once : Bool) : List (Fin 32 × Fin 33) :=
  (s.relief.injects.filter fun j => j.stuck || once).map fun j => (Fin.ofNat 32 j.row, Fin.ofNat 33 j.pos)

/-- Faults of mode ONCE that a test run has met are gone (06 R198). -/
def spendTest (s : State) (p : Nat) : State :=
  s.setRelief { s.relief with injects := s.relief.injects.filter fun j => j.stuck || (logicalCol (testBypass s p j.row) j.pos).isNone }

/-- A test incident closes. -/
def closeTest (s : State) (id : U16) (cause : U16) (cls : Cls) (p : Nat) : State :=
  nextInstance (closeIncident s id cause cls (BitVec.ofNat 32 (if cause = 0x0301 then 0 else localisedWord s.relief.localised))) p

/-- A test instance that could not be proven: it commits nothing, and its incident closes as TILE_DROPPED (15 R447, 06
R187). -/
def dropTest (s : State) (id : U16) (p : Nat) : State :=
  closeTest (s.setRelief { s.relief with tileDrops := s.relief.tileDrops + 1 }) id 0x0304 .l p

/-- The retry of a test instance mismatched: the fault is localised, and the row takes its spare, its spare is marked bad,
the cell is fenced, or the instance is dropped (15 R447, 06 R183 to R187). -/
def testMismatch (s : State) (p : Nat) (id : U16) (res : Nat) (retry : List (Nat × Nat)) (again : List (Fin 32 × Fin 33))
    (persistent : Bool) : State :=
  let s1 := escalate s id 0x0300 persistent
  match (retry.map Prod.fst).eraseDups, (retry.map Prod.snd).eraseDups with
  | [row], [col] =>
    let pos := physPos (testBypass s1 p row) col
    if (rowBypass s1 row).isNone && pos = 32 then
      let t := s1.trims
      closeTest { noteLocalised s1 id row pos 0 persistent with
        trims := { t with spareBad := t.spareBad ||| BitVec.ofNat 32 (2 ^ row) } } id 0x0305 .l p
    else if spareGone s1 row then
      if s1.relief.fences.length ≥ 4 then classF s1 0x0306 .secure true res p
      else
        let s2 := s1.setRelief { s1.relief with fences := s1.relief.fences ++ [{ row := row, pos := pos }] }
        if testErrs s2 p again = [] then closeTest (noteLocalised s2 id row pos 1 persistent) id 0x0303 .l p
        else dropTest (noteLocalised s2 id row pos 2 persistent) id p
    else
      let s2 := s1.setRelief { s1.relief with bypass := vset s1.relief.bypass row (some pos) }
      if testErrs s2 p again = [] then
        closeTest (noteLocalised (s2.setRelief { s2.relief with sparesTaken := s2.relief.sparesTaken + 1 }) id row pos 0 persistent)
          id 0x0302 .l p
      else dropTest (noteLocalised s2 id row pos 2 persistent) id p
  | _, _ => dropTest (noteLocalised s1 id s1.relief.localised.row s1.relief.localised.pos 3 persistent) id p

/-- A test instance may start: no channel-dwell is ready or runs, no repair work waits, and fewer than 16 incidents are open
(15 R448). -/
def testMayStart (s : State) : Bool :=
  let r := s.relief
  !gated s && domainUp s 6 && r.ready.isEmpty && r.cur.isNone && r.acc.isNone && r.drain.isEmpty && slotsUsed s = 0 &&
    r.incidents.isEmpty && (countedIncidents s).length < 16

/-- One test instance: `first`, `retry` and `again` are the physical cells that compute wrongly in its run, its retry and its
recomputation, and `persistent` says whether the retry's values equalled the first run's where the silicon is wrong. Injected
faults add their cells (06 R198). -/
def testInstance (s0 : State) (first0 retry0 again0 : List (Fin 32 × Fin 33)) (selfFirst selfRetry persistent0 : Bool) : State :=
  match s0.trims.gridTest with
  | none => s0
  | some p =>
    let stuck := injectCells s0 false
    let first := first0 ++ injectCells s0 true
    let retry := retry0 ++ stuck
    let again := again0 ++ stuck
    let lone := (s0.relief.injects.filter fun j => !j.stuck && (logicalCol (testBypass s0 p j.row) j.pos).isSome) == []
    let persistent := lone && (persistent0 || (first0 == [] && retry0 == []))
    if !testMayStart s0 then s0
    else
    let s := spendTest s0 p
    if testErrs s p first = [] && selfFirst then nextInstance s p
    else
      let r := s.relief
      let s1 := s.setRelief { r with mismatches := r.mismatches + 1,
                                     selfCheckFails := r.selfCheckFails + BitVec.ofNat 32 (b2n !selfFirst) }
      let res := s1.free (2 ^ 32)
      let o := openIncident res.2 0x0300 .t .secure true res.1 p true
      let errs := testErrs o.1 p retry
      if !selfRetry then classF o.1 0x0307 .secure true res.1 p
      else if errs = [] then
        closeTest (o.1.setRelief { o.1.relief with retriesOk := o.1.relief.retriesOk + 1 }) o.2 0x0301 .t p
      else testMismatch o.1 p o.2 res.1 errs again persistent

def execGridTestInstance (first retry again : List (Fin 32 × Fin 33)) (selfFirst selfRetry persistent : Bool) (s : State) :
    Host.Outcome State Fault Refusal := .next (testInstance s first retry again selfFirst selfRetry persistent)

/-- A grid test becomes due. -/
def startGridTest (s : State) : State := { s with trims := { s.trims with gridTest := some 0, gridDue := s.now } }

/-! ### Triggers (15 R449) -/

/-- A temperature differs from a reference by more than a step in m°C; step 0 disables the trigger. -/
def trigFires (temp ref : Int) (step : Nat) : Bool := step != 0 && (temp - ref).natAbs * 1000 > 16 * step

/-- The trigger of a lane: it starts a run, or waits for the wake of a lane in L1 (15 R440). -/
def laneTrigger (s : State) (l : Nat) : State :=
  let t := s.laneTrim l
  if !trigFires s.trims.dieTemp t.refTemp s.trims.laneStep then s
  else if trimmable s l then startTrim s l false
  else if (s.lane l).rx = .l1 then s.setLaneTrim l { t with pending := true }
  else s

/-- A reading of the die temperature, and the triggers that fire on it (15 R449). -/
def dieTemp (s : State) (temp : Int) : State :=
  let s1 := { s with trims := { s.trims with dieTemp := temp } }
  let s2 := (List.range 52).foldl laneTrigger s1
  if gated s2 then s2
  else
    let t := s2.trims
    let s3 := if s2.err.service && trigFires temp t.levelRef t.levelStep && t.chainLevels.isEmpty &&
        !(t.levels.any fun l => l.boundary.isNone) then startLevels s2 else s2
    if trigFires temp t.cellRef t.cellStep && t.gridTest.isNone && domainUp s3 6 then startGridTest s3 else s3

def execDieTempRead (temp : Int) (s : State) : Host.Outcome State Fault Refusal :=
  .next (if s.power.inReset then s else dieTemp s temp)

/-! ### TRIM Clauses (15 R449, R450) -/

/-- The lanes TRIM_RUN names: those of the groups that begin at a lane, the mirror lane itself, or all. -/
def trimLanes (s : State) (which : Nat) : List Nat :=
  if which = 0xFFFF then List.range 52
  else if which ≥ 48 then (if which < 52 && s.pair.role != .disabled then [which] else [])
  else (((findGroup s 0 which).toList ++ (findGroup s 1 which).toList).flatMap groupLaneList).eraseDups

/-- The streams and chains TRIM_RUN names. -/
def trimLevels (s : State) (which : Nat) : List Nat × List Nat :=
  if which = 0xFFFF then (streamNumbers s, chainNumbers s)
  else if which ≥ 0x8000 then ([], (chainNumbers s).filter (· == which - 0x8000))
  else ((streamNumbers s).filter (· == which), [])

/-- TRIM_RUN (15 R450). -/
def trimRun (s : State) (kinds which : Nat) : Result := do
  let lane := bitOf kinds 0
  let level := bitOf kinds 1
  let cell := bitOf kinds 2
  let lanes := if lane then trimLanes s which else []
  let levels := if level then trimLevels s which else ([], [])
  refuseIf (lane && level && which != 0xFFFF) stBadParam 10
  refuseIf (which != 0xFFFF && ((lane && lanes.isEmpty) || (level && levels.1.isEmpty && levels.2.isEmpty))) stBadParam 10
  refuseIf (s.trims.restoring.isSome || (lanes.any fun l => (s.laneTrim l).run.isSome) || levels.1.any (levelBusy s) ||
    levels.2.any (chainLevelBusy s) || (cell && (s.trims.gridTest.isSome || !domainUp s 6))) stBusy 8
  let s1 := (lanes.filter (trimmable s)).foldl (fun t l => startTrim t l false) s
  let s2 := levels.2.foldl startChainLevel (levels.1.foldl startLevel s1)
  done (if cell then startGridTest s2 else s2)

def execTrimRun (src : Src) (kinds : U8) (which : U16) (s : State) : Host.Outcome State Fault Refusal :=
  runClause (.trimRun src kinds which) s fun s => trimRun s kinds.toNat which.toNat

/-- TRIM_SET_TRIGGER (15 R449). -/
def trimSetTrigger (s : State) (kinds step : Nat) : Result := do
  refuseIf (kinds != 1 && kinds != 2 && kinds != 4) stBadParam 8
  refuseIf (step != 0 && (step < 500 || step > 50000)) stBadParam 12
  let t := s.trims
  done { s with trims := if kinds = 1 then { t with laneStep := step } else if kinds = 2 then { t with levelStep := step }
                         else { t with cellStep := step } }

def execTrimSetTrigger (src : Src) (kinds : U8) (step : U32) (s : State) : Host.Outcome State Fault Refusal :=
  runClause (.trimSetTrigger src kinds step) s fun s => trimSetTrigger s kinds.toNat step.toNat

/-! ### The trim image (15 R451, R452) -/

/-- The 16 bytes of a lane. -/
def laneEntry (t : LaneTrim) : List Byte :=
  (t.codes.flatMap fun v => leInt 1 v) ++ leBytes 1 (b2n t.valid) ++ leInt 2 t.refTemp ++ zeros 2

/-- A row word of the cell section. -/
def rowWord (s : State) (r : Nat) : Nat :=
  (match rowBypass s r with
    | some p => p + 64
    | none => 0) + 128 * b2n (s.trims.spareBad.getLsbD r)

/-- The FENCE[n] word (06 R197). -/
def fenceWord (s : State) (n : Nat) : Nat :=
  match s.relief.fences[n]? with
  | some f => f.row + 32 * f.pos + 2048
  | none => 0

/-- The requantized streams. -/
def requantStreams (s : State) : List (Nat × StreamDef) :=
  s.intake.streams.filterMap fun x => match x.2.entry with
    | some d => if requantized s d then some (x.1, d) else none
    | none => none

/-- Zero bytes up to a multiple of 8. -/
def padTo8 (bs : List Byte) : List Byte := bs ++ zeros (roundUp bs.length 8 - bs.length)

/-- The gains of one stream. -/
def gainBlock (s : State) (n : Nat) (d : StreamDef) : List Byte :=
  padTo8 (leBytes 2 n ++ leBytes 2 d.inCount ++ leBytes 2 d.chCount ++ zeros 2 ++
    (streamPairs d).flatMap fun p => leBytes 2 (gainAt s p.1 p.2 s.intake.front))

/-- The level section. -/
def levelSection (s : State) : List Byte :=
  let seeds := (List.range 64).map fun i => (s.chain i).seed
  leBytes 8 (sumNat ((enumFrom0 seeds).map fun x => if x.2.isSome then 2 ^ x.1 else 0)) ++
    (seeds.flatMap fun x => leBytes 8 (x.getD 0)) ++ (requantStreams s).flatMap fun x => gainBlock s x.1 x.2

/-- The trim image: the values in use (15 R451). -/
def trimImage (s : State) : List Byte :=
  let lanes := s.trims.lanes.toList.flatMap laneEntry
  let cells := ((List.range 32).flatMap fun r => leBytes 4 (rowWord s r)) ++
    (List.range 4).flatMap fun n => leBytes 4 (fenceWord s n)
  let level := levelSection s
  let body := lanes ++ cells ++ level
  let head := leBytes 2 0x5E7A ++ leBytes 2 1 ++ leBytes 4 (64 + body.length) ++ leBytes 8 Config.serial.toNat ++
    leInt 2 s.trims.dieTemp ++ zeros 2 ++ leBytes 4 (64 + lanes.length) ++ leBytes 4 (64 + lanes.length + cells.length) ++
    leBytes 4 level.length ++ zeros 28
  head ++ leBytes 4 (crc32c (head ++ zeros 4 ++ body)).toNat ++ body

/-- TRIM_SAVE. -/
def trimSave (s : State) (src : Src) (buf : HBuf) : Result := answerQuery s src buf (trimImage s)

def execTrimSave (src : Src) (buf : HBuf) (s : State) : Host.Outcome State Fault Refusal :=
  runClause (.trimSave src buf) s fun s => trimSave s src buf

/-- The magic, version, length and CRC of an image are right (15 R452). -/
def imageOk (bs : List Byte) : Bool :=
  field bs 0 2 == 0x5E7A && field bs 2 2 == 1 && field bs 4 4 == bs.length && bs.length ≥ 64 &&
    field bs 60 4 == (crc32c (bs.take 60 ++ zeros 4 ++ bs.drop 64)).toNat

/-- The blocks of gains of a level section. -/
def gainBlocks : Nat → List Byte → List KeptGains
  | 0, _ => []
  | k + 1, bs =>
    if bs.length < 8 then []
    else
      let n := field bs 2 2 * field bs 4 2
      { stream := field bs 0 2, inputs := field bs 2 2, channels := field bs 4 2,
        gains := (List.range n).map fun i => BitVec.ofNat 16 (field bs (8 + 2 * i) 2) } ::
        gainBlocks k (bs.drop (roundUp (8 + 2 * n) 8))

/-- The restored codes of a lane become the stored codes of its next bring-up (15 R452). -/
def restoreLane (s : State) (l : Nat) (e : List Byte) : State :=
  if bitOf (field e 11 1) 0 then
    let t := s.laneTrim l
    s.setLaneTrim l { t with stored := some ((List.range 11).map fun i =>
      if i = 0 then (field e 0 1 : Int) else toSigned 8 (field e i 1)) }
  else s

/-- The gains of one block: loaded into a stream that is defined, requantized and of matching counts, or kept for one that
is not defined. Gives the boundary of the load. -/
def restoreGains (s : State) (k : KeptGains) : State × Option Nat :=
  match (s.stream k.stream).entry with
  | none => ({ s with trims := { s.trims with keptGains := s.trims.keptGains ++ [k] } }, none)
  | some d =>
    if requantized s d && k.inputs == d.inCount && k.channels == d.chCount then
      let b := gainBoundary s (streamPairs d)
      (loadGains s k.stream b ((streamPairs d).zip k.gains) false, some b)
    else (s, none)

/-- The seed of one chain: valid for a defined chain that has none, kept for one that is not defined. -/
def restoreSeed (s : State) (i seed : Nat) : State :=
  let c := s.chain i
  if c.state = .undefined then { s with trims := { s.trims with keptSeeds := tabSet i seed s.trims.keptSeeds } }
  else if c.seed.isNone then s.setChain i { c with seed := some seed }
  else s

/-- The level section of an image applies on any die (15 R452). -/
def restoreLevels (s : State) (bs : List Byte) : State × Option Nat :=
  let s1 := { s with trims := { s.trims with keptGains := [], keptSeeds := [] } }
  let s2 := ((List.range 64).filter fun i => bitOf (field bs 0 8) i).foldl
    (fun t i => restoreSeed t i (field bs (8 + 8 * i) 8)) s1
  (gainBlocks bs.length (bs.drop 520)).foldl (fun t k =>
    let r := restoreGains t.1 k
    (r.1, match r.2, t.2 with
      | some b, some m => some (max b m)
      | some b, none => some b
      | none, m => m)) (s2, none)

/-- The cell words take effect at the next point between channel-dwells; at once where none runs. -/
def restoreCells (s : State) (bs : List Byte) : State :=
  let words (off n : Nat) : List Nat := (List.range n).map fun i => field bs (off + 4 * i) 4
  let s1 := { s with trims := { s.trims with restoring := some { rows := words 0 32, fences := words 128 4 } } }
  let r := s1.relief
  if r.cur.isNone && r.acc.isNone && slotsUsed s1 = 0 then applyCellWords s1 else s1

/-- Some trim runs. -/
def trimsRun (s : State) : Bool :=
  let t := s.trims
  (t.lanes.toList.any fun l => l.run.isSome) || (t.levels.any fun l => l.boundary.isNone) || !t.chainLevels.isEmpty ||
    t.gridTest.isSome || t.restoring.isSome

/-- TRIM_RESTORE (15 R452); a standby applies the lane and cell sections only (18 R506). -/
def trimRestore (s : State) (buf : HBuf) (data : HRead) : Result := do
  let bs ← readBuf buf data
  refuseIf (!imageOk bs) stBadParam 48
  refuseIf (trimsRun s) stBusy 8
  let own := field bs 8 8 = Config.serial.toNat
  let s1 := if own then (List.range 52).foldl (fun t l => restoreLane t l (slice bs (64 + 16 * l) 16)) s else s
  let standby := s.pair.role == .standby
  let r := if standby then (s1, none) else restoreLevels s1 (slice bs (field bs 24 4) (field bs 28 4))
  let s2 := if own then restoreCells r.1 (slice bs (field bs 20 4) 144) else r.1
  match r.2 with
  | some b => deferred s2 1 b
  | none => done s2 ((if own then 5 else 0) + (if standby then 0 else 2))

def execTrimRestore (src : Src) (buf : HBuf) (data : HRead) (s : State) : Host.Outcome State Fault Refusal :=
  runClause (.trimRestore src buf data) s fun s => trimRestore s buf data

end Sys2Proof.Machine
end

