-- ==== Sys2Proof/Machine/Worlds.lean ====
section
/-! DEFINITION. Worlds, HBM regions and quotas: the WORLD Clauses (16). -/

namespace Sys2Proof.Machine

/-! ### Regions (16 R458 to R461) -/

/-- The size of a valid descriptor is in range: at least one granule, within the usable capacity (16 R458). -/
def regionFits (s : State) (base size : Nat) : Bool := size > 0 && base + size ≤ s.hbm.capacity

/-- A valid descriptor other than `n` covers part of a range of granules. -/
def regionOverlap (s : State) (n base size : Nat) : Bool :=
  (enumFrom0 s.world.regions.toList).any fun x => x.1 != n && x.2.valid && overlaps base size x.2.base x.2.size

/-- An allocation lies in a granule that satisfies `p`. -/
def allocIn (s : State) (p : Nat → Bool) : Bool :=
  s.hbm.allocs.any fun a => (List.range (ceilDiv (a.base % granule + a.size) granule)).any fun i => p (a.base / granule + i)

/-- WORLD_REGION_SET: the descriptor is written at once, and its granules that belonged to another world or to none become
reachable when they are filled (16 R460, R461). -/
def regionSet (s : State) (n flags map base size : Nat) : Result := do
  let valid := bitOf flags 1
  refuseIf (n > 63) stBadParam 8
  refuseIf (map > 7) stBadParam 10
  let r : Region := { valid := valid, world := worldOfBit flags, map := BitVec.ofNat 3 map, base := base / granule,
                      size := size / granule }
  refuseIf (base % granule != 0 || valid && (r.base ≥ s.hbm.capacity || r.size > 0 && regionOverlap s n r.base r.size))
    stBadParam 16
  refuseIf (size % granule != 0 || valid && !regionFits s r.base r.size) stBadParam 24
  let old := vget s.world.regions n Reset.region
  let s1 := keepPlaces s { s with world := { s.world with regions := vset s.world.regions n r } }
  refuseIf s.world.fill.isSome stBusy 8
  refuseIf (allocIn s fun g => (granuleWorld s g).isSome && granuleWorld s1 g != granuleWorld s g) stBusy 8
  refuseIf (old.valid && old.map != r.map && allocIn s fun g => old.base ≤ g && g < old.base + old.size) stBusy 10
  let fresh := if valid then ((List.range r.size).map (· + r.base)).filter fun g => granuleWorld s g != some r.world else []
  if fresh = [] then done s1
  else waits { s1 with world := { s1.world with fill := some { granules := fresh } } } []

def execWorldRegionSet (src : Src) (desc flags map : U8) (base size : U64) (s : State) : Host.Outcome State Fault Refusal :=
  runClause (.worldRegionSet src desc flags map base size) s fun s => regionSet s desc.toNat flags.toNat map.toNat base.toNat size.toNat

/-- The granules hold zeros with valid check bits (16 R461). -/
def zeroGranules (s : State) (gs : List Nat) : State :=
  { s with hbm := { s.hbm with mem := s.hbm.mem.filter fun c => !gs.contains (c.1 / granule),
                               poison := s.hbm.poison.filter fun w => !gs.contains (8 * w / granule) } }

/-- The zero-fill completes, and the granules are reachable by their new world. -/
def execGranuleZeroFillDone (s : State) : Host.Outcome State Fault Refusal :=
  .next (match s.world.fill with
    | some x =>
      let s1 := zeroGranules s x.granules
      { s1 with world := { s1.world with fill := none } }
    | none => s)

/-! ### Assignment (16 R454, R455, R457) -/

/-- The indices of a kind run from `first` within one range of R454. -/
def assignRange (kind first count : Nat) : Bool :=
  let within (lo hi : Nat) : Bool := lo ≤ first && first + count ≤ hi
  match kind with
  | 1 => within 0 48 || within 0x100 0x130
  | 2 => within 0 256
  | 3 => within 0 64
  | 4 => within 0 32
  | 5 => within 0 16 || within 20 36
  | 6 => within 0 4
  | 7 => within 0 256
  | _ => false

/-- An egress stream is bound or named by a routing entry. -/
def egressInUse (s : State) (e : Nat) : Bool :=
  (vget s.osl.egress e Reset.egress).group.isSome ||
    s.products.any fun p => (routesNamed p.2).any fun r =>
      routeHasEgress r && routeEgress r == e

/-- A resource is in use, as the table of R457 defines it. -/
def resourceInUse (s : State) (kind i : Nat) : Bool :=
  match kind with
  | 1 => if i < 0x100 then (groupOfLane s 0 i).isSome else (groupOfLane s 1 (i - 0x100)).isSome
  | 2 => egressInUse s i
  | 3 => (s.chain i).state != .undefined
  | 4 => (s.core i).state != .empty
  | 5 => let c := s.channel i; c.act.isSome || c.armed || c.cqEnable
  | 6 => (vget s.net.outs i Reset.timeOut).mode != 0 || pinNamed s i
  | _ => s.frieze.prods.any fun p => p.beamBase ≤ i && i < p.beamBase + p.beams

/-- The world of a resource. -/
def resourceWorld (s : State) (kind i : Nat) : World :=
  match kind with
  | 1 => if i < 0x100 then rxWorld s i else txWorld s (i - 0x100)
  | 2 => vget s.world.egress i .secure
  | 3 => vget s.world.chains i .secure
  | 4 => vget s.world.cores i .secure
  | 5 => vget s.world.dma i .secure
  | 6 => vget s.world.pins i .secure
  | _ => vget s.world.beams i .secure

/-- The world of a resource is set. -/
def setResource (x : WorldState) (kind i : Nat) (w : World) : WorldState :=
  match kind with
  | 1 => if i < 0x100 then { x with laneRx := vset x.laneRx i w } else { x with laneTx := vset x.laneTx (i - 0x100) w }
  | 2 => { x with egress := vset x.egress i w }
  | 3 => { x with chains := vset x.chains i w }
  | 4 => { x with cores := vset x.cores i w }
  | 5 => { x with dma := vset x.dma i w }
  | 6 => { x with pins := vset x.pins i w }
  | _ => { x with beams := vset x.beams i w }

/-- A resource that changes world is cleared (16 R457). -/
def clearResource (s : State) (kind i : Nat) : State :=
  match kind with
  | 4 => onCore s i fun c => { c with x := [], y := [], prog := [] }
  | 5 => let c := s.channel i
         s.setChannel i { Reset.channel with transfers := c.transfers, aborts := c.aborts }
  | 6 => let o := vget s.net.outs i Reset.timeOut
         { s with net := { s.net with outs := vset s.net.outs i { o with mode := 0, width := Reset.timeOut.width, queue := [] } } }
  | _ => s

/-- One resource moves to a world. -/
def moveResource (s : State) (kind i : Nat) (w : World) : State :=
  if resourceWorld s kind i = w then s
  else let s1 := clearResource s kind i
       { s1 with world := setResource s1.world kind i w }

/-- WORLD_ASSIGN. -/
def worldAssign (s : State) (kind first count world : Nat) : Result := do
  refuseIf (kind == 0 || kind > 7) stBadParam 8
  refuseIf (!assignRange kind first count) stBadParam 10
  refuseIf (count == 0) stBadParam 12
  refuseIf (world > 1) stBadParam 14
  let run := (List.range count).map (· + first)
  refuseIf (run.any (resourceInUse s kind)) stBusy 10
  done (run.foldl (fun t i => moveResource t kind i (worldOfBit world)) s)

def execWorldAssign (src : Src) (kind : U8) (first count : U16) (world : U8) (s : State) :
    Host.Outcome State Fault Refusal :=
  runClause (.worldAssign src kind first count world) s fun s => worldAssign s kind.toNat first.toNat count.toNat world.toNat

/-! ### Quotas (16 R462 to R467) -/

/-- The items whose quota is set by WORLD_QUOTA_SET. -/
def settable (item : Nat) : Bool := item == 1 || item == 2 || (6 ≤ item && item ≤ 18)

/-- The items that are rates. -/
def rateItem (item : Nat) : Bool := [1, 2, 6, 7, 11, 12].contains item

/-- The state as it would be with some products suspended. -/
def asSuspended (s : State) (pids : List Nat) : State := pids.foldl suspendProduct s

/-- What one product uses of an item. -/
def usageOf (s : State) (p : Product) (item : Nat) : Rat := usage { s with products := [(p.pid, p)] } item

/-- The products a cut selects, in descending order of their IDs, until the usage of the others is within the quota (16
R466). -/
def selectCut (s : State) (item quota : Nat) : List Nat → List Nat
  | [] => []
  | pid :: rest =>
    if usage s item ≤ (quota : Nat) then []
    else
      match s.product pid with
      | some p =>
        if p.world = .nonsecure ∧ usageOf s p item ≠ 0 then pid :: selectCut (suspendProduct s pid) item quota rest
        else selectCut s item quota rest
      | none => selectCut s item quota rest

/-- A selected product is to stop at its own next boundary, unless it already does (16 R466). A DERIVED product stops at its
core's next CLOSE. -/
def stopSelected (s : State) (pid : Nat) : State :=
  match s.product pid with
  | none => s
  | some p =>
    match p.kind with
    | .corr => match s.corr pid with
      | some c => if stopping c then s else (stopCorr s c false).1
      | none => s
    | .beam => match s.fzProd pid with
      | some x => if x.stop.isSome then s else (stopBeam s x false).1
      | none => s
    | .stats => { s with intake := { s.intake with stats := s.intake.stats.map fun x =>
        if x.pid = pid then { x with stopping := true } else x } }
    | .derived => s
    | .zoom | .evt | .capture =>
      match (List.range 64).find? fun i => let c := s.chain i
        c.state == .run && (c.zoom == pid || c.event == some pid || c.capture == some pid) with
      | some i => let c := s.chain i
        if c.stop.isSome then s else chainStops (s.setChain i { c with stop := some (zoomBoundary c, false) }) i
      | none => s

/-- A product is still to stop. -/
def stillRuns (s : State) (pid : Nat) : Bool := (s.product pid).any fun p => !p.suspended

/-- The cut of a rate item: products stop at their boundaries, and a follow entry is owed once the last has stopped (16 R466). -/
def quotaCut (s : State) (src : Src) (item value : Nat) : Result :=
  let used := usage s item
  let ahead := asSuspended s (s.world.cuts.flatMap Cut.selected)
  let sel := selectCut ahead item value (s.products.map Prod.fst).reverse
  let s1 := sel.foldl stopSelected { s with world := { s.world with quotas := vset s.world.quotas item value } }
  let cut : Cut := { item := item, selected := sel.filter (stillRuns s1), count := sel.length, src := src }
  .ok ({ s1 with world := { s1.world with cuts := s1.world.cuts ++ [cut] } },
    { Reply.mk' stQuotaCut item value used.ceil.toNat 0 with followDue := true })

/-- WORLD_QUOTA_SET. -/
def quotaSet (s : State) (src : Src) (item value : Nat) : Result := do
  refuseIf (!settable item) stBadParam 8
  refuseIf (s.world.cuts.any fun c => c.item == item) stBusy 8
  let used := usage s item
  let s1 := { s with world := { s.world with quotas := vset s.world.quotas item value } }
  if used ≤ (value : Nat) then done s1
  else if rateItem item then quotaCut s src item value
  else done s1 used.ceil.toNat

def execWorldQuotaSet (src : Src) (item : U8) (value : U64) (s : State) : Host.Outcome State Fault Refusal :=
  runClause (.worldQuotaSet src item value) s fun s => quotaSet s src item.toNat value.toNat

/-- The resources of R454 by kind and index. -/
def allResources : List (Nat × Nat) :=
  [(1, 0, 48), (1, 0x100, 48), (2, 0, 256), (3, 0, 64), (4, 0, 32), (5, 0, 16), (5, 20, 16), (6, 0, 4), (7, 0, 256)].flatMap
    fun (k, first, n) => (List.range n).map fun i => (k, first + i)

/-- What WORLD_QUERY reports: the valid descriptors of the world, every resource, and each quota (16 R471). -/
def worldReport (s : State) (f : Fn) : Report :=
  .worlds { regions := (enumFrom0 s.world.regions.toList).filter fun x => x.2.valid && seenBy f x.2.world,
            resources := allResources.map fun (k, i) => (k, i, resourceWorld s k i),
            quotas := (List.range 18).map fun i => (i + 1, quotaOf s (i + 1), usage s (i + 1)) }

def execWorldQuery (src : Src) (buf : HBuf) (s : State) : Host.Outcome State Fault Refusal :=
  runClause (.worldQuery src buf) s fun s => answerReport s src buf (worldReport s src.fn)

end Sys2Proof.Machine
end

