-- ==== Sys2Proof/Machine/Maquette.lean ====
section
/-! DEFINITION. The Maquette of a unit, its installation on a standby, the gating of the data path and the takeover (18). -/

namespace Sys2Proof.Machine

/-! ### The Maquette of the unit (01 R30, 18 R507) -/

/-- The image of the configuration that is mirrored. -/
def maquetteOf (s : State) : Maquette :=
  { world := s.world, products := s.products, intake := s.intake, rxGroups := s.osl.rxGroups, txGroups := s.osl.txGroups,
    egress := (enumFrom0 s.osl.egress.toList).filterMap fun x => x.2.group.map fun g => (x.1, g),
    thresholds := (enumFrom0 s.osl.lanes.toList).map fun x => (x.1, x.2.nextThreshold.getD x.2.threshold),
    maps := s.maps, corrs := s.corrs, frieze := s.frieze, chisel := s.chisel, gloss := s.gloss, allocs := s.hbm.allocs,
    net := s.net, clock := s.clock, domainOn := s.power.domainOn, rate := s.hbm.rate, capacity := s.hbm.capacity,
    format := s.boot.maqFormat }

/-! ### Installation on a standby (18 R507, R510) -/

/-- The state after a Clause's effect, or before it where it is refused: what a standby carries out of a commit. -/
def carried (s : State) (r : Result) : State :=
  match r with
  | .ok x => x.1
  | .error _ => s

/-- A stream as the Maquette defines it; its registers and its state stay where its entry stays. -/
def installStream (own theirs : Stream) : Stream :=
  if own.entry = theirs.entry then own
  else { own with entry := theirs.entry, state := if theirs.entry.isSome then .waiting else .undefined,
                  sourceFault := false, anchor := none, agree := none, last := none }

/-- A corner-turn set without contents. -/
def emptySet (x : CtSet) : CtSet := { x with halves := Vector.replicate 2 { dwell := none, full := false }, hist := [] }

/-- The Intake's settings; its rows, its front and its counters are the die's own. -/
def installIntake (own theirs : Intake) : Intake :=
  let keys := ((own.streams ++ theirs.streams).map Prod.fst).eraseDups
  let streams := keys.foldl (fun l k =>
    tabSet k (installStream ((tabGet k own.streams).getD Reset.stream) ((tabGet k theirs.streams).getD Reset.stream)) l) []
  { own with streams := streams, skew := theirs.skew, epochSet := theirs.epochSet, t0 := theirs.t0, num := theirs.num,
             den := theirs.den, tolerance := theirs.tolerance, gains := theirs.gains, gainLoads := theirs.gainLoads,
             sets := theirs.sets.map emptySet, stats := theirs.stats.map clearStats }

/-- A correlation product without sums. -/
def emptyCorr (c : Corr) : Corr :=
  { c with groups := c.groups.map (fun g => { g with ints := [] }), slots := Vector.replicate 2 none, snap := none }

/-- A Frieze product without rows. -/
def emptyFz (p : FzProd) : FzProd :=
  { p with asm := List.replicate p.beams [], gains := [], badDelays := [],
           imp := p.imp.map fun x => { x with waiting := [], arrived := [] } }

/-- The Frieze's settings and store; its counters and flags are the die's own. -/
def installFrieze (own theirs : Frieze) : Frieze :=
  { theirs with expired := own.expired, residueSeen := own.residueSeen, residueTime := own.residueTime,
                weightSat := own.weightSat, requantSat := own.requantSat, residueFail := own.residueFail,
                importLate := own.importLate, importMismatch := own.importMismatch, delayEcc := own.delayEcc,
                beamRecords := own.beamRecords, sliceResidue := own.sliceResidue, prods := theirs.prods.map emptyFz }

/-- A chain's settings with its filters, captures and detection interval empty; its counters are the die's own. -/
def installChain (own theirs : Chain) : Chain :=
  { restartChain theirs theirs.row theirs.nOut with
    det := { theirs.det with held := false }, opened := none, copying := [], capSlots := Vector.replicate 2 none,
    residueTime := own.residueTime,
    satSamples := own.satSamples, taintSamples := own.taintSamples, events := own.events, eventsDropped := own.eventsDropped,
    captures := own.captures, captureMissed := own.captureMissed, residueFail := own.residueFail, toLate := own.toLate,
    flickerCrossings := own.flickerCrossings }

/-- An attachment with an empty feed buffer. -/
def emptyAttach (a : Attach) : Attach :=
  { a with head := 0, tail := 0, recs := [], declines := [], declining := false }

/-- A core's image, attachment and commanded state; its counters are the die's own. -/
def installCore (own theirs : Core) : Core :=
  { own with state := theirs.commanded, commanded := theirs.commanded, image := theirs.image,
             attach := theirs.attach.map emptyAttach, waiting := none, frame := none, frames := [], opened := none,
             closed := [], slots := Vector.replicate 2 .free }

/-- The lanes and groups of one direction as the Maquette has them: new groups are brought up, others turned off. -/
def installGroups (s : State) (dir : Nat) (groups : List LaneGroup) : State :=
  let own := if dir = 0 then s.osl.rxGroups else s.osl.txGroups
  let lanes (l : List LaneGroup) : List Nat := l.flatMap groupLaneList
  let kept := groups.map fun g => (own.find? fun x => x.first == g.first && x.code == g.code).getD
    { g with bondReported := false, up := false }
  let s1 := if dir = 0 then { s with osl := { s.osl with rxGroups := kept } } else { s with osl := { s.osl with txGroups := kept } }
  let s2 := ((lanes own).filter fun l => !(lanes groups).contains l).foldl (fun t l => laneOff t dir l) s1
  ((lanes groups).filter fun l => !(lanes own).contains l).foldl (fun t l => if dir = 0 then rxDefine t l else txStart t l) s2

/-- The egress bindings and the thresholds of lanes. -/
def installLinks (s : State) (m : Maquette) : State :=
  let bind (i : Nat) (e : Egress) : Egress := { e with group := tabGet i m.egress }
  let eg := Vector.ofFn fun i : Fin 256 => bind i.val (vget s.osl.egress i.val Reset.egress)
  let s1 := { s with osl := { s.osl with egress := eg } }
  m.thresholds.foldl (fun t x => t.setLane x.1 { t.lane x.1 with nextThreshold := some x.2 }) s1

/-- Port and servo settings and TIME_OUT pins (13 R412). -/
def installNet (s : State) (m : Maquette) : State :=
  let port (t : State) (i : Nat) : State :=
    let p := vget m.net.ports i Reset.tport
    carried t (timePortSet t i (b2n p.enabled + 2 * b2n p.udp + 4 * b2n p.forward) p.domain p.ip p.mac)
  let s1 := port (port s 0) 1
  let s2 := carried s1 (timeServoSet s1 m.net.threshold m.net.code (b2n m.net.ptpOn))
  let out (i : Nat) (o : TimeOut) : TimeOut :=
    let n := vget m.net.outs i Reset.timeOut
    if o.mode = n.mode && o.start = n.start && o.period = n.period then { o with width := n.width }
    else { o with mode := n.mode, width := n.width, start := n.start, period := n.period, sent := 0 }
  { s2 with net := { s2.net with outs := Vector.ofFn fun i : Fin 4 => out i.val (vget s2.net.outs i.val Reset.timeOut) } }

/-- The CLOCK settings (14 R433). -/
def installClock (s : State) (m : Maquette) : State :=
  let ref (t : State) (i : Nat) : State :=
    let r := vget m.clock.refs i (Reset.ref 0)
    let o := t.ref i
    if o.rank = r.rank && o.nominal = r.nominal && o.accept = r.accept && o.warnLimit = r.warnLimit && o.reject = r.reject &&
        o.disqMs = r.disqMs && o.requalMs = r.requalMs then t
    else carried t (clockRefSet t i r.rank r.nominal r.accept r.warnLimit r.reject r.disqMs r.requalMs)
  let s1 := (List.range 5).foldl ref s
  let s2 := carried s1 (clockSelect s1 (b2n m.clock.manual) m.clock.manualRef)
  carried s2 (clockDpllSet s2 m.clock.code m.clock.slope m.clock.disagreeLimit)

/-- The power domains follow the active unit's (20 R552). -/
def installDomains (s : State) (m : Maquette) : State :=
  (List.range 8).foldl (fun t d =>
    if t.power.domainOn.getLsbD d = m.domainOn.getLsbD d then t
    else carried t (powerDomain t d (if m.domainOn.getLsbD d then 0 else 1) 1000)) s

/-- A data-rate change of the active unit is carried out here too (18 R507). -/
def installRate (s : State) (m : Maquette) : State :=
  if !s.hbm.ready || s.hbm.rate = m.rate || s.hbm.ratePending.isSome || !dataRates.contains m.rate then s
  else
    let s1 := { s with hbm := { s.hbm with ratePending := some m.rate } }
    if s1.hbm.step = .readEye || s1.hbm.step = .writeEye then s1 else startRateChange s1

/-- What CHAIN messages said of a chain no longer holds: it is gone, or it has resumed (08 R268, R269). -/
def chainStale (own theirs : Chain) : Bool :=
  theirs.state == .undefined || (own.state == .suspended && theirs.state == .run)

/-- The standby holds a Maquette and carries it out on its own hardware (18 R507). -/
def installMaquette (s : State) (m : Maquette) : State :=
  let kept (x : ChainMirror) : Bool := !(chainStale (s.chain x.chain) (vget m.chisel.chains x.chain Reset.chain))
  let s1 := { s with
    world := { m.world with cuts := [], fill := none }, products := m.products, intake := installIntake s.intake m.intake,
    maps := m.maps, corrs := m.corrs.map emptyCorr, frieze := installFrieze s.frieze m.frieze,
    chisel := { chains := Vector.ofFn fun i : Fin 64 => installChain (s.chain i.val) (vget m.chisel.chains i.val Reset.chain),
                protos := m.chisel.protos, rateLimited := s.chisel.rateLimited, residueSeen := s.chisel.residueSeen },
    gloss := { cores := Vector.ofFn fun i : Fin 32 => installCore (s.core i.val) (vget m.gloss.cores i.val Reset.core) },
    pair := { s.pair with chains := s.pair.chains.filter kept },
    hbm := { s.hbm with allocs := m.allocs.filter fun a => !snapshotArea a }, boot := { s.boot with maqFormat := m.format } }
  let s2 := installLinks (installGroups (installGroups s1 0 m.rxGroups) 1 m.txGroups) m
  installRate (installDomains (installClock (installNet s2 m) m) m) m

/-- The Maquette of a unit with nothing configured, in the worlds and settings right after reset. -/
def emptyMaquette (s : State) : Maquette :=
  { world := { Reset.world with regions := vset Reset.world.regions 0 (vget s.world.regions 0 Reset.region) },
    products := [], intake := Reset.intake, rxGroups := [], txGroups := [], egress := [],
    thresholds := (List.range 48).map fun l => (l, Reset.lane.threshold), maps := [], corrs := [], frieze := Reset.frieze,
    chisel := Reset.chisel, gloss := Reset.gloss, allocs := [], net := Reset.net, clock := Reset.clock, domainOn := 0xFF,
    rate := s.hbm.rate, capacity := s.hbm.capacity, format := s.boot.maqFormat }

/-! ### The gated data path (18 R505, R520, R521) -/

/-- The unit's data path is gated: what ran is gone, and level trims and grid tests end (18 R505). -/
def gatePath (s : State) : State :=
  let r := { s.relief with ready := [], cur := none, acc := none, drain := [], spill := [],
                           slots := Vector.replicate 2 none, stage := [], stageStall := none, drainStall := none, incidents := [],
                           drops := [], starter := none }
  let s1 := s.relief.incidents.foldl (fun t i => closeRepair t i 0x0304 .l 0) s
  let frieze := { s1.frieze with prods := s1.frieze.prods.map emptyFz }
  { s1 with
    relief := { r with incidents := s1.relief.incidents }, corrs := s1.corrs.map emptyCorr, frieze := frieze,
    intake := { s1.intake with sets := s1.intake.sets.map emptySet, stats := s1.intake.stats.map clearStats, settled := [] },
    istore := { s1.istore with emitStall := none, snapBoundary := none, snapLeft := 0 },
    chisel := { s1.chisel with chains := s1.chisel.chains.map fun c => installChain c c },
    gloss := { cores := s1.gloss.cores.map fun c => installCore c c }, osl := { s1.osl with frames := [] },
    trims := { s1.trims with levels := [], chainLevels := [], gridTest := none } }

/-! ### Takeover (18 R515 to R519) -/

/-- The type of a product's other records. -/
def recordTypeOf : PKind → Nat
  | .corr => 0x01
  | .beam => 0x03
  | .zoom => 0x04
  | .evt => 0x05
  | .stats => 0x06
  | .derived => 0x07
  | .capture => 0x08

/-- The chain that a chain product belongs to. -/
def chainOfProduct (s : State) (pid : Nat) : Option Chain :=
  s.chisel.chains.toList.find? fun c => c.state != .undefined && (c.zoom == pid || c.event == some pid || c.capture == some pid)

/-- The first counter whose samples this unit's records include (18 R517). -/
def firstCovered (s : State) (p : Product) (row : Nat) : Nat :=
  match p.kind with
  | .corr => match s.corr p.pid with
    | some c => ceilDiv row c.td * c.td
    | none => row
  | .beam => max row (((s.fzProd p.pid).map FzProd.start).getD 0)
  | .zoom | .evt | .capture => ((chainOfProduct s p.pid).map Chain.first).getD row
  | .stats | .derived => row

/-- The header time of E_p (03 R93, 08 R248). -/
def timeOfEp (s : State) (p : Product) : Nat :=
  match p.kind with
  | .zoom | .evt | .capture => match chainOfProduct s p.pid with
    | some c => (refTime s c p.ep).toNat
    | none => s.timeAt p.ep
  | _ => s.timeAt p.ep

/-- A product's TAKEOVER record, with the next number: `last` is the last number the old unit may have emitted. The mirror
link carries 32 bits of the old unit's serial number; the others are free values (18 R517). -/
def emitTakeover (s : State) (p : Product) (row reason time last : Nat) : State :=
  let first := firstCovered s p row
  let hi := s.free (2 ^ 32)
  let payload := leBytes 8 last ++ leBytes 8 p.ep ++ leBytes 8 first ++ leBytes 12 (timeField time).toNat ++ zeros 4 ++
    leBytes 4 s.pair.partner.toNat ++ leBytes 4 hi.1
  emitRecord hi.2 p.pid { rtype := 0x0F, flags := flagTakeover, start := p.ep, span := first - p.ep, time := timeOfEp s p,
                          aux := recordTypeOf p.kind + 256 * reason, payload := payload }

/-- The products of the shadow configuration begin: each takes the number after S_p, and emits its TAKEOVER record or, while
suspended, owes it (18 R516, R517). -/
def startProduct (s : State) (row reason time pid : Nat) : State :=
  match s.product pid with
  | none => s
  | some p =>
    let p1 := { p with seq := p.spNext, spSent := none }
    let s1 := s.setProduct pid p1
    if p.suspended then
      { s1 with pair := { s1.pair with owedTakeovers := s1.pair.owedTakeovers ++ [{ pid := pid, reason := reason, time := time }] } }
    else emitTakeover s1 p1 row reason time (p.spNext - 1)

/-- A product that resumes after a takeover emits the TAKEOVER record it owes (18 R517). -/
def payTakeover (s : State) (row pid : Nat) : State :=
  match s.pair.owedTakeovers.find? fun x => x.pid == pid, s.product pid with
  | some x, some p =>
    emitTakeover { s with pair := { s.pair with owedTakeovers := s.pair.owedTakeovers.filter fun y => y.pid != pid } } p
      row x.reason x.time (p.seq - 1)
  | _, _ => s

/-- A resuming Clause, with the TAKEOVER records that its products owe; `row` is the boundary it names. -/
def resumed (r : Result) (row : Nat → Nat) (pids : State → List Nat) : Result := do
  let x ← r
  return ((pids x.1).foldl (fun t p => payTakeover t (row x.2.a) p) x.1, x.2)

def execCorrResume (src : Src) (pid : U16) (s : State) : Host.Outcome State Fault Refusal :=
  runClause (.corrResume src pid) s fun s => resumed (corrResume s src.fn pid.toNat) id fun _ => [pid.toNat]

def execBeamResume (src : Src) (pid : U16) (s : State) : Host.Outcome State Fault Refusal :=
  runClause (.beamResume src pid) s fun s => resumed (beamResume s src.fn pid.toNat) id fun _ => [pid.toNat]

def execZoomResume (src : Src) (chain : U8) (s : State) : Host.Outcome State Fault Refusal :=
  runClause (.zoomResume src chain) s fun s => resumed (zoomResume s src.fn chain.toNat) id fun t =>
    (chainProducts (t.chain chain.toNat)).map Prod.fst

def execGlossStart (src : Src) (core : U8) (s : State) : Host.Outcome State Fault Refusal :=
  runClause (.glossStart src core) s fun s => resumed (glossStartC s src.fn core.toNat) (fun _ => s.intake.front) fun t =>
    ((t.core core.toNat).attach.map Attach.derived).toList

/-- A group of a correlation product starts with the first dwell written here. -/
def groupFrom (d : Nat) (g : Group) : Group := { g with start := max g.start d, ints := [] }

/-- The detector of a chain as its CHAIN messages left it (08 R269). -/
def mirroredDetector (d : Detector) (m : ChainMirror) : Detector :=
  { d with held := false, det := (if m.det = 0 then .off else if m.det = 1 then .learn else .on), floor := m.floor, onset := m.onset,
           stuck := m.stuck, frozenOn := m.frozen && !m.stuck, crossings := m.flicker, run := none }

/-- A chain restarts at the takeover row, with its filters empty and its detector as mirrored (08 R269). -/
def chainFrom (s : State) (row i : Nat) : State :=
  let c := s.chain i
  if c.state != .run then s
  else
    let r := max c.row row
    let c1 := { restartChain c r (firstOut c r) with opened := none, copying := [], capSlots := Vector.replicate 2 none }
    match s.pair.chains.find? fun m => m.chain == i with
    | some m => s.setChain i { c1 with det := mirroredDetector c1.det m, nextCapture := m.nextCapture }
    | none => s.setChain i c1

/-- The blocks start from the first row of this unit (18 R516, R518). -/
def startBlocks (s : State) (row : Nat) : State :=
  let corr (c : Corr) : Corr :=
    { emptyCorr c with groups := c.groups.map (groupFrom (ceilDiv row c.td)), begun := max c.begun (ceilDiv row c.td) }
  let set (x : CtSet) : CtSet := { emptySet x with firstDwell := max x.firstDwell (ceilDiv row x.td) }
  let fz (p : FzProd) : FzProd :=
    { emptyFz p with start := max p.start row, nextRec := max p.start row / p.tr, nextBeam := 0 }
  let s1 := { s with
    pair := { s.pair with lastRow := some row }, corrs := s.corrs.map corr,
    intake := { s.intake with sets := s.intake.sets.map set, stats := s.intake.stats.map clearStats },
    frieze := { s.frieze with prods := s.frieze.prods.map fz },
    gloss := { cores := s.gloss.cores.map coreTakeover } }
  (List.range 64).foldl (fun t i => chainFrom t row i) s1

/-- The unit takes over from row t_r: role ACTIVE, the blocks start, and each product emits its TAKEOVER record (18 R516). The
level and cell trims take the die temperature as their reference (15 R449), every DMA channel starts IDLE (12 R384), and each egress
stream starts its byte position at 0 (18 R519). -/
def takeOver (s : State) (row reason : Nat) (incident : Option U16) : State :=
  let p := { s.pair with role := .active, synced := false, guarded := false, swap := none, resync := none, unguarded := some s.now,
                         takeover := some { incident := incident }, owedTakeovers := [] }
  let t := { s.trims with levelRef := s.trims.dieTemp, cellRef := s.trims.dieTemp }
  let idle (c : Channel) : Channel := { c with act := none, armed := false }
  let d := { s.dma with channels := s.dma.channels.map idle }
  let eg := s.osl.egress.map fun e => { e with pos := 0 }
  let s1 := startBlocks { s with pair := p, trims := t, dma := d, osl := { s.osl with egress := eg } } row
  (s1.products.map Prod.fst).foldl (fun t pid => startProduct t row reason s.now pid) s1

end Sys2Proof.Machine
end

