-- ==== Sys2Proof/Machine/Arm.lean ====
section
/-! DEFINITION. The log unit, the Armature's failures and the recovery sequencer, and DIAG_ERROR_LOG (17 R481 to R492). -/

namespace Sys2Proof.Machine

/-! ### Logs (17 R481 to R483) -/

/-- The log unit takes an error record that has reached it. -/
def execLogRecordWrite (rec : ErrRec) (s : State) : Host.Outcome State Fault Refusal :=
  .next (if s.power.inReset then s else logRecord s rec)

/-- The entries of a log from its head to its tail (17 R483). -/
def unconsumed (l : ErrLog) : List LogEntry :=
  (List.range (l.tail - l.head).toNat).filterMap fun i => tabGet ((l.head.toNat + i) % 1024) l.entries

/-- DIAG_ERROR_LOG: the unconsumed entries, oldest first; the head does not move. -/
def execDiagErrorLog (src : Src) (buf : HBuf) (s : State) : Host.Outcome State Fault Refusal :=
  runClause (.diagErrorLog src buf) s fun s => answerQuery s src buf ((unconsumed (s.log src.fn)).flatMap errBytes)

/-! ### Armature restart (17 R488 to R491) -/

/-- A restart of the Armature is in progress. -/
def restarting (s : State) : Bool := s.err.arm.isSome || s.err.activating

/-- MDMA_A transfers end without records (17 R488). -/
def endFirmwareDma (s : State) : State :=
  [16, 17, 18, 19].foldl (fun t ch => t.setChannel ch { t.channel ch with act := none, armed := false }) s

/-- The sequencer is in control: Clause service stops, level trims are abandoned, MDMA_A transfers and a download end (17 R488,
R490, 19 R536). -/
def stopService (s : State) (q : SeqState) : State :=
  endFirmwareDma (abandonLevels { s with err := { s.err with service := false, seqState := q },
                                         boot := { s.boot with download := none } })

/-- A failure while an incident is open: the second one escalates it and restarts once more, the third is class F (17 R491). -/
def failAgain (s : State) (a : ArmIncident) (cause : U16) : State :=
  if a.failures ≥ 2 then
    let s1 := classF s 0x0E03 .secure true 0 0
    { s1 with err := { s1.err with seqState := .failed, service := false, arm := none } }
  else
    let s1 := escalate s a.id cause false
    stopService { s1 with err := { s1.err with arm := some { a with failures := a.failures + 1, cls := .l } } } .secondRestart

/-- The Armature fails: a lockstep mismatch or a watchdog expiry (17 R488). -/
def armFails (s : State) (cause : U16) : State :=
  if s.power.inReset || s.err.seqState == .failed then s
  else
    match s.err.arm with
    | some a => failAgain s a cause
    | none =>
      let o := openIncident s cause .t .secure true 0 0 false
      stopService { o.1 with err := { o.1.err with arm := some { id := o.2, cause := cause, cls := .t, failures := 1 } } } .restart

def execArmLockstep (s : State) : Host.Outcome State Fault Refusal := .next (armFails s 0x0E01)

def execArmHang (s : State) : Host.Outcome State Fault Refusal := .next (armFails s 0x0E02)

/-- A step of the restart takes longer than its limit: as a further failure of the incident (17 R491). A restart into new
firmware that exceeds a step opens the incident as a hang (log 62). -/
def stepTimeout (s : State) : State :=
  match s.err.arm with
  | some a => failAgain s a a.cause
  | none => if s.err.activating then armFails s 0x0E02 else s

def execArmRestartStepTimeout (s : State) : Host.Outcome State Fault Refusal := .next (stepTimeout s)

/-- Every follow entry and completion that waits is written (17 R490). -/
def resumeService (s : State) : State :=
  let s1 := { s with err := { s.err with service := true, seqState := .normal, arm := none, activating := false } }
  flushQueues (flushQueues s1 .f0) .f1

/-! ### Recovery sequencer (17 R492) -/

/-- One copy of the sequencer disagrees with the other two, or no two agree. -/
def seqOutvoted (s : State) (majority : Bool) : State :=
  if s.power.inReset then s
  else if majority then
    raiseDev { s with err := { s.err with seqOutvotes := s.err.seqOutvotes + 1 } } 0x0E04 .c 0 0
  else classF s 0x0E05 .secure true 0 0

def execSeqOutvoted (majority : Bool) (s : State) : Host.Outcome State Fault Refusal := .next (seqOutvoted s majority)

end Sys2Proof.Machine
end

