-- ==== Sys2Proof/Machine/Pair.lean ====
section
/-! DEFINITION. Redundant pair operation: heartbeats, the mirror link's messages, roles, resynchronisation, takeover and
planned swap, and the PAIR Clauses (18). -/

namespace Sys2Proof.Machine

/-- An EVENT record of the pair. -/
def raisePair (s : State) (cause : U16) (det : Nat) : State := raiseDev s cause .l 0 det

/-! ### Protection (18 R502, R512) -/

/-- A unit that is no longer protected needs no reservation and no acknowledgement: what waited for one goes on (18 R512). -/
def unguard (s : State) : State :=
  let s1 := { s with pair := { s.pair with guarded := false, unguarded := some s.now } }
  let s2 := (s1.products.map Prod.fst).foldl releaseHeld s1
  s2.pair.heldCompletions.foldl (fun t h =>
    let x := if h.comp.status = BitVec.ofNat 16 stDone && !h.comp.follow then
        { h.comp with status := BitVec.ofNat 16 stDoneUnprotected } else h.comp
    releaseCompletion t h x) s2

/-- The active unit is not protected any more; a unit that was not stays as it is. -/
def loseGuard (s : State) : State := if s.pair.guarded then unguard s else s

/-! ### Sending (18 R501, R511) -/

/-- The bytes of a message as they are sent. -/
def msgBytes (m : OutMsg) : List Byte :=
  leBytes 2 m.type ++ leBytes 2 ((m.payload.length + 8) / 8) ++ leBytes 4 m.number ++ m.payload

/-- A gain area goes to the standby in HBM_COPY messages of 4,096 bytes (07 R214). -/
def copyToPeer (s : State) (a : Alloc) : State :=
  (List.range (ceilDiv a.size 4096)).foldl (fun t k =>
    let n := min 4096 (a.size - 4096 * k)
    (sendMsg t 4 (leBytes 8 (a.base + 4096 * k) ++ leBytes 8 n ++ t.load (a.base + 4096 * k) n)).1) s

/-- The gain areas and own gain tables in use (18 R511). -/
def gainAllocs (s : State) : List Alloc :=
  s.hbm.allocs.filter fun a => match a.kind with
    | .gain _ | .namedGain _ => true
    | _ => false

/-- A resynchronisation starts: the active unit is not protected and sends its image and the gain areas (18 R511). -/
def startResync (s : State) : State :=
  let s1 := loseGuard s
  let s2 := { s1 with pair := { s1.pair with resync := some { phase := 0 } } }
  (gainAllocs s2).foldl copyToPeer (sendMsg s2 5 (leBytes 8 s2.pair.commitCount.toNat)).1

/-- Step 4 of a resynchronisation: a RESERVE for every product and a CHAIN for every chain (18 R511). -/
def sendStates (s : State) : State :=
  let s1 := (s.products.map Prod.snd).foldl (fun t p => sendReserve t p (p.seq + blockSize p)) s
  ((List.range 64).filter fun i => (s1.chain i).state != .undefined).foldl (fun t i =>
    (sendMsg t 3 (chainPayload (chainImage i (t.chain i)))).1) s1

/-- The next step of a resynchronisation, once everything sent is acknowledged. The standby has refused SYNC_DONE where it
acknowledges it and does not report SYNCED (18 R511). -/
def resyncStep (s : State) : State :=
  match s.pair.resync with
  | none => s
  | some r =>
    if s.pair.out != [] then s
    else
      match r.phase with
      | 0 => sendStates { s with pair := { s.pair with resync := some { phase := 1 } } }
      | 1 =>
        let crc := s.free (2 ^ 32)
        (sendMsg { crc.2 with pair := { crc.2.pair with resync := some { phase := 2 } } } 6
          (leBytes 4 s.pair.commitCount.toNat ++ leBytes 4 crc.1)).1
      | 2 =>
        if s.pair.peer.any fun x => x.2.2 then
          { s with pair := { s.pair with resync := none, guarded := true, unguarded := some s.now, resyncs := s.pair.resyncs + 1 } }
        else { s with pair := { s.pair with resync := none } }
      | _ => s

/-- A message number lies at or before an acknowledgement, in serial order modulo 2^32. -/
def ackedBy (ack number : Nat) : Bool := (ack + 2 ^ 32 - number) % 2 ^ 32 < 2 ^ 31

/-- A reservation that the standby has acknowledged is in effect, and records that waited for it leave (18 R508). -/
def ackReserve (s : State) (ack pid : Nat) : State :=
  match s.product pid with
  | none => s
  | some p =>
    match p.spSent with
    | some (n, msg) => if ackedBy ack msg then releaseHeld (s.setProduct pid { p with spNext := n, spSent := none }) pid else s
    | none => s

/-- An acknowledgement: what it covers takes effect (18 R501, R507, R508, R520). -/
def takeAck (s : State) (ack : Nat) : State :=
  let keep := s.pair.out.filter fun m => !ackedBy ack m.number
  let swap := s.pair.swap.map fun w => { w with acked := w.acked || ackedBy ack w.msg }
  let s1 := { s with pair := { s.pair with out := keep, swap := swap } }
  let s2 := (s1.products.map Prod.fst).foldl (fun t p => ackReserve t ack p) s1
  let done_ := s2.pair.heldCompletions.filter fun h => ackedBy ack h.msg
  resyncStep (resyncStep (done_.foldl (fun t h => releaseCompletion t h h.comp) s2))

/-! ### Roles (18 R503, R504, R521) -/

/-- The unit becomes a standby, with its data path gated and not SYNCED. -/
def becomeStandby (s : State) : State :=
  let s1 := gatePath (loseGuard s)
  { s1 with pair := { s1.pair with role := .standby, stillGated := false, synced := false, guarded := false, swap := none,
                                   resync := none, takeover := none, held := [] } }

/-- The unit becomes active without a partner that holds its Maquette. A data path that was still gated starts at the front,
each product after the numbers that the old active unit may have used. -/
def becomeActive (s : State) : State :=
  let s1 := { s with pair := { s.pair with role := .active, stillGated := false, guarded := false, unguarded := some s.now } }
  if s.pair.stillGated then
    startBlocks { s1 with products := s1.products.map fun x => (x.1, { x.2 with seq := x.2.spNext, spSent := none }) } s1.intake.front
  else s1

/-- Role resolution of a FORMING unit that has heard its partner (18 R503). -/
def resolveRole (s : State) : State :=
  match s.pair.role, s.pair.peer with
  | .forming, some (.active, _, _) => becomeStandby s
  | .forming, some (.standby, _, _) | .forming, some (.forming, _, _) =>
    if s.pair.rank then becomeStandby s else startResync (becomeActive s)
  | _, _ => s

/-- Equal ranks: one record, MISMATCH 4, and the lower serial number acts as rank 0 (18 R504). -/
def equalRanks (s : State) : State :=
  let s1 := if s.pair.mismatch = 4 then s else raisePair s 0x0F04 0
  { s1 with pair := { s1.pair with mismatch := 4, rank := decide (s.pair.partner.toNat ≤ Config.serial.toNat % 2 ^ 32) } }

/-- The unit of rank 1 yields to another active unit (18 R521). Which products the other does not define the unit cannot know:
a free value decides for each. -/
def yieldRole (s : State) : State :=
  let s1 := loseGuard s
  let s2 := (s1.products.map Prod.snd).foldl (fun t p =>
    let bit := t.free 2
    if bit.1 = 1 then gapSuspended bit.2 p.pid (recordTypeOf p.kind) bit.2.intake.front (bit.2.timeAt bit.2.intake.front)
    else bit.2) s1
  let entries := (s2.products.map Prod.snd).flatMap fun p => leBytes 8 p.pid ++ leBytes 8 (p.seq - 1) ++ leBytes 8 p.ep
  becomeStandby (sendMsg s2 8 entries).1

/-- A planned swap is running on one of the units. -/
def swapping (s : State) : Bool := s.pair.swap.isSome || s.pair.takeover.any fun t => t.incident.isNone

/-- Two active units: ROLE_CONFLICT once, and rank 1 yields (18 R521). -/
def roleConflict (s : State) (before : Option Role) : State :=
  if s.pair.role = .active && (s.pair.peer.any fun p => p.1 == .active) && !swapping s then
    let s1 := if before = some .active then s else raisePair s 0x0F04 0
    if s1.pair.rank then yieldRole s1 else s1
  else s

/-- The active unit resynchronises a partner that has become a standby, or that has lost its synchronisation (18 R511). -/
def partnerFollows (s : State) (before : Option (Role × Bool × Bool)) : State :=
  match s.pair.role, s.pair.peer with
  | .active, some (.standby, _, synced) =>
    let fresh := before.all fun b => b.1 != .standby
    let lost := s.pair.guarded && !synced
    if (fresh || lost) && s.pair.resync.all fun r => r.phase = 3 then startResync s else s
  | .active, some _ => loseGuard s
  | _, _ => s

/-! ### MIRROR frames (18 R499, R500, R503) -/

/-- The role a frame's sender reports. -/
def senderRole (v : Nat) : Role :=
  match v % 4 with
  | 0 => .forming
  | 1 => .active
  | 2 => .standby
  | _ => .faulted

/-- The mirror path is up again: SPLIT clears, and the active unit resynchronises its partner (18 R499, R511, R514). -/
def mirrorRestored (s : State) : State :=
  let s1 := { s with pair := { s.pair with mirrorOk := true, mirrorSince := none, split := false } }
  if s1.pair.role = .active && (s1.pair.peer.any fun p => p.1 == .standby) && !s1.pair.guarded &&
      s1.pair.resync.all (fun r => r.phase = 3) then startResync s1
  else s1

/-- Valid frames with an advancing acknowledgement for 1 ms restore the mirror path (18 R499). -/
def judgeMirror (s : State) (advancing : Bool) : State :=
  if s.pair.mirrorOk then s
  else
    match s.pair.mirrorSince with
    | none => { s with pair := { s.pair with mirrorSince := some s.now } }
    | some t => if advancing && s.now ≥ t + 1000 * micros then mirrorRestored s else s

/-- A MIRROR frame's header, from its byte 8 on: acknowledgement, role, rank and SYNCED of the sender (18 R500). -/
def mirrorHeader (s : State) (h : List Byte) : State :=
  let w := field h 0 2
  let serial := BitVec.ofNat 32 (field h 28 4)
  if s.pair.role = .disabled || s.pair.role = .faulted || field h 2 1 != 3 then s
  else
    let s0 := { s with pair := { s.pair with peerSerial := serial } }
    if serial != s.pair.partner then { s0 with pair := { s0.pair with mismatch := 5 } }
    else
      let before := s0.pair.peer
      let rank := bitOf w 2
      let s1 := { s0 with pair := { s0.pair with peer := some (senderRole w, rank, bitOf w 3), peerVersion := field h 16 4 } }
      let s2 := if rank = s1.pair.rank then equalRanks s1 else s1
      let advancing := s2.pair.out == [] || s2.pair.out.any fun m => ackedBy (field h 8 4) m.number
      let s3 := takeAck s2 (field h 8 4)
      let s4 := roleConflict (partnerFollows (resolveRole s3) before) (before.map Prod.fst)
      judgeMirror s4 advancing

/-- A frame of the mirror link that passed its checks; its messages are commands of their own. -/
def execMirrorFrameRx (lane : Fin 52) (frame : List Byte) (s : State) : Host.Outcome State Fault Refusal :=
  .next (if lane.val < 48 || s.power.inReset then s else mirrorHeader s (frame.drop 8))

/-- The swap that waits is cancelled (18 R520). -/
def cancelSwap (s : State) : State :=
  match s.pair.swap with
  | some _ =>
    let s1 := { s with pair := { s.pair with swap := none } }
    if s.pair.role = .active then raisePair s1 0x0F03 3 else s1
  | none => s

/-- Both heartbeat paths are lost (18 R514). -/
def splitNow (s : State) : State :=
  if s.pair.mirrorOk || s.pair.aliveOk then s
  else raiseAttn { s with pair := { s.pair with split := true } } 1

/-- The unit judges heartbeats: it is an active unit or a standby that sees no peer fault (18 R514, R516). -/
def judges (s : State) : Bool := (s.pair.role == .active || s.pair.role == .standby) && !s.pair.peerFault

/-- The mirror path is lost: an active unit goes on unprotected, a standby is no longer SYNCED (18 R499, R511, R512, R514). -/
def mirrorLost (s : State) : State :=
  let s1 := loseGuard (cancelSwap s)
  let s2 := { s1 with pair := { s1.pair with
    mirrorOk := false, mirrorSince := none, mirrorLosses := s1.pair.mirrorLosses + 1, synced := false,
    resync := s1.pair.resync.map fun _ => { phase := 3 } } }
  if !judges s2 then s2
  else
    let s3 := if s2.pair.role = .active || s2.pair.aliveOk then raisePair s2 0x0F02 1 else s2
    splitNow (if s3.pair.aliveOk then s3 else raisePair s3 0x0F01 3)

/-- 100 us without a valid frame, or without progress of the acknowledgement. -/
def execMirrorPathTimeout (s : State) : Host.Outcome State Fault Refusal :=
  .next (if s.pair.mirrorOk then mirrorLost s else { s with pair := { s.pair with mirrorSince := none } })

/-- 20 us without an acknowledgement of the first message sent: everything not acknowledged is sent again (18 R501). -/
def execMirrorRetransmit (s : State) : Host.Outcome State Fault Refusal :=
  .next (if s.pair.out = [] then s
    else { s with pair := { s.pair with retx := s.pair.retx + 1, txBytes := s.pair.out.flatMap msgBytes } })

/-! ### ALIVE (18 R498) -/

/-- The ALIVE path is lost after five invalid windows, and restored after five valid ones. -/
def aliveWindow (s : State) (edges : Nat) : State :=
  if s.pair.role = .disabled || s.pair.peerFault then s
  else
    let valid := 5 ≤ edges && edges ≤ 20
    if valid = s.pair.aliveOk then { s with pair := { s.pair with aliveRun := 0 } }
    else if s.pair.aliveRun < 4 then { s with pair := { s.pair with aliveRun := s.pair.aliveRun + 1 } }
    else if valid then { s with pair := { s.pair with aliveRun := 0, aliveOk := true, split := false } }
    else
      let s1 := { s with pair := { s.pair with aliveRun := 0, aliveOk := false, aliveLosses := s.pair.aliveLosses + 1 } }
      if judges s1 then splitNow (raisePair s1 0x0F01 (2 + b2n (!s1.pair.mirrorOk))) else s1

def execAliveWindowEnd (edges : Nat) (s : State) : Host.Outcome State Fault Refusal :=
  .next (if s.power.inReset then s else aliveWindow s edges)

/-! ### Peer fault and takeover (18 R497, R512, R515, R516) -/

/-- The TAKEOVER incident opens, ATTN_CAUSE.TAKEOVER sets, and the unit takes over from the first row that it releases after
step 4, 5.9 us after the glitch filter has passed (18 R516; log 58). -/
def faultTakeover (s : State) : State :=
  let o := tryIncident s 0x0F03 .l .secure true 0 0
  let s1 := raiseAttn o.1 2
  takeOver s1 (s1.counterIn 5900) 1 o.2

/-- PEER_FAULT_N has been low for 0.1 us. -/
def peerFaults (s : State) : State :=
  if s.pair.peerFault then s
  else
    let s1 := { s with pair := { s.pair with peerFault := true } }
    match s.pair.role with
    | .active =>
      let s2 := loseGuard (cancelSwap s1)
      raisePair { s2 with pair := { s2.pair with resync := none } } 0x0F02 2
    | .standby => if s.pair.synced then faultTakeover s1 else raisePair s1 0x0F03 1
    | _ => s1

def execPeerFault (s : State) : Host.Outcome State Fault Refusal := .next (if s.power.inReset then s else peerFaults s)

/-- PEER_FAULT_N is high again: a partner that is a standby is resynchronised (18 R511, R512; log 59). -/
def execPeerFaultNHigh (s : State) : Host.Outcome State Fault Refusal :=
  .next (let s1 := { s with pair := { s.pair with peerFault := false } }
    if s.pair.peerFault && s.pair.role = .active && s.pair.mirrorOk && (s.pair.peer.any fun p => p.1 == .standby) then
      startResync s1
    else s1)

/-- The last TAKEOVER record has been emitted: the incident closes (18 R516). -/
def execTakeoverComplete (s : State) : Host.Outcome State Fault Refusal :=
  .next (match s.pair.takeover with
    | none => s
    | some t =>
      let s1 := { s with pair := { s.pair with takeover := none, takeovers := s.pair.takeovers + 1 } }
      match t.incident with
      | some id => closeIncident s1 id 0x0F03 .l 0
      | none => s1)

/-! ### Messages (18 R501) -/

/-- A message in number order is taken; a duplicate, or one after a gap, is discarded (18 R501). -/
def takeMsg (s : State) (number : U32) (body : State → State) : Host.Outcome State Fault Refusal :=
  let next : Bool := match s.pair.lastRx with
    | none => true
    | some n => decide ((n + 1) % 2 ^ 32 = number.toNat)
  .next (if next && s.pair.role != .disabled && !s.power.inReset then
      body { s with pair := { s.pair with lastRx := some number.toNat } }
    else s)

/-- A PAD message has no number and is ignored. -/
def execPad (s : State) : Host.Outcome State Fault Refusal := .next s

/-- The standby has applied the commit of this record before (17 R489). -/
def commitKnown (s : State) (c : Commit) : Bool := s.pair.peerCommits.contains c

/-- The standby carries out a commit and keeps its commit record (17 R489, 18 R507). -/
def takeCommit (s : State) (x : Maquette × Commit) : State :=
  if s.pair.role != .standby || commitKnown s x.2 then s
  else
    let others := s.pair.peerCommits.filter fun y => !(y.fn == x.2.fn && y.qp == x.2.qp)
    installMaquette { s with pair := { s.pair with peerCommits := others ++ [x.2], commitCount := s.pair.commitCount + 1 } } x.1

/-- The 1 MiB hold buffer has room for a commit (19 R538). -/
def holdFits (s : State) (m : Maquette) : Bool :=
  sumNat ((m :: s.commitHold.map Prod.fst).map Config.commitBytes) ≤ 1048576

/-- A COMMIT: on its last chunk the standby carries the change out. While its Armature restarts the hold buffer takes it, and one
that does not fit is not acknowledged (19 R538). -/
def execCommit (number : U32) (last : Option (Maquette × Commit)) (s : State) : Host.Outcome State Fault Refusal :=
  match last with
  | none => takeMsg s number id
  | some x =>
    if restarting s then
      if holdFits s x.1 then takeMsg s number fun s => { s with commitHold := s.commitHold ++ [x] } else .next s
    else takeMsg s number fun s => takeCommit s x

/-- The restarted Armature applies what the hold buffer took, in order (19 R538). -/
def applyHold (s : State) : State := s.commitHold.foldl takeCommit { s with commitHold := [] }

/-- A RESERVE raises a product's S_p and E_p. An active unit does not acknowledge it (18 R508, R509, R521). -/
def execReserve (number : U32) (pid : Nat) (upTo emitted : U64) (s : State) : Host.Outcome State Fault Refusal :=
  if s.pair.role = .active then .next s
  else
    takeMsg s number fun s =>
      match s.product pid with
      | some p => if s.pair.role = .standby then
          s.setProduct pid { p with spNext := max p.spNext (upTo.toNat + 1), ep := emitted.toNat } else s
      | none => s

/-- A CHAIN message updates a chain's mirrored state (08 R269). -/
def execChainMsg (number : U32) (c : ChainMirror) (s : State) : Host.Outcome State Fault Refusal :=
  takeMsg s number fun s =>
    { s with pair := { s.pair with chains := (s.pair.chains.filter fun x => x.chain != c.chain) ++ [c] } }

/-- An HBM_COPY writes gain bytes to the same address of the standby's HBM (07 R214). -/
def execHbmCopy (number : U32) (addr : Nat) (bytes : List Byte) (s : State) : Host.Outcome State Fault Refusal :=
  takeMsg s number fun s =>
    if s.pair.role = .standby && addr + bytes.length ≤ s.hbm.capacity * granule then s.store addr bytes else s

/-- A BULK message: the standby is not SYNCED, and with the last chunk it holds the image (18 R511). -/
def execBulk (number : U32) (image : Option Maquette) (s : State) : Host.Outcome State Fault Refusal :=
  takeMsg s number fun s =>
    if s.pair.role != .standby then s
    else
      let s1 := { s with pair := { s.pair with synced := false } }
      match image with
      | some m => installMaquette { s1 with pair := { s1.pair with image := some (m.capacity, m.rate, m.format) } } m
      | none => s1

/-- The lowest and highest format that the running image reads (19 R530, R541). -/
def readsFormat (s : State) (format : Nat) : Bool :=
  match slotHeader s s.boot.runSlot with
  | some h => field h 16 2 ≤ format && format ≤ field h 18 2
  | none => format == s.boot.maqFormat

/-- The reason to refuse SYNC_DONE, as a MISMATCH code; 0 for none (18 R511). -/
def syncMismatch (s : State) : Nat :=
  match s.pair.image with
  | none => 0
  | some (capacity, rate, format) =>
    if capacity ≠ s.hbm.capacity then 1
    else if rate ≠ s.hbm.rate ∧ s.hbm.ratePending ≠ some rate then 2
    else if !readsFormat s format then 3
    else 0

/-- SYNC_DONE ends a resynchronisation, or is refused (18 R511). -/
def execSyncDone (number count _crc : U32) (s : State) : Host.Outcome State Fault Refusal :=
  takeMsg s number fun s =>
    if s.pair.role != .standby then s
    else
      match syncMismatch s with
      | 0 => { s with pair := { s.pair with synced := true, commitCount := count } }
      | k => raisePair { s with pair := { s.pair with synced := false, mismatch := k } } 0x0F02 3

/-- A SWAP message: the standby takes over at the swap counter (18 R520). -/
def execSwap (number : U32) (counter : U64) (s : State) : Host.Outcome State Fault Refusal :=
  takeMsg s number fun s =>
    if s.pair.role = .standby && s.pair.synced then
      { s with pair := { s.pair with swap := some { counter := counter.toNat, msg := number.toNat, acked := true } } }
    else s

/-- One entry of a YIELD: a yielded number at or above the product's own next number is named by a TAKEOVER record (18 R521). -/
def takeYield (s : State) (e : Nat × Nat × Nat) : State :=
  match s.product e.1 with
  | none => s
  | some p =>
    if e.2.1 < p.seq then s
    else
      let p1 := { p with seq := e.2.1 + 1 }
      emitTakeover (s.setProduct e.1 p1) { p1 with ep := e.2.2 } s.intake.front 3 s.now e.2.1

/-- YIELD: for each product the last number the other unit emitted and its E_p; a resynchronisation follows (18 R521). -/
def execYieldMsg (number : U32) (entries : List (Nat × Nat × Nat)) (s : State) : Host.Outcome State Fault Refusal :=
  takeMsg s number fun s => if s.pair.role = .active then startResync (entries.foldl takeYield s) else s

/-- LEAVE returns the unit to FORMING; the data path of a standby stays gated (18 R522; log 60). -/
def execLeave (number : U32) (s : State) : Host.Outcome State Fault Refusal :=
  takeMsg s number fun s =>
    match s.pair.role with
    | .active | .standby =>
      let s1 := loseGuard (cancelSwap s)
      { s1 with pair := { s1.pair with role := .forming, stillGated := s.pair.role == .standby, synced := false, peer := none,
                                       resync := none } }
    | _ => s

/-! ### Timeouts of FORMING and of a planned swap (18 R503, R520) -/

/-- Nothing was heard for 2 s. -/
def formingTimeout (s : State) : State :=
  if s.pair.role != .forming || s.pair.peer.isSome then s
  else if s.pair.peerFault then becomeActive s
  else
    let s1 := raisePair s 0x0F01 (b2n (!s.pair.mirrorOk) + 2 * b2n (!s.pair.aliveOk))
    if s.pair.rank then s1 else becomeActive s1

def execFormingTimeout (s : State) : Host.Outcome State Fault Refusal := .next (if s.power.inReset then s else formingTimeout s)

/-- Row t_s of a planned swap: the old active unit, which has fed no row of t_s or above, becomes a standby; the new one takes
over from t_s, from 10 us before (18 R520). -/
def plannedSwap (s : State) : State :=
  match s.pair.swap with
  | none => s
  | some w =>
    if !w.acked then s
    else if s.pair.role = .active then (if s.intake.front ≥ w.counter then becomeStandby s else s)
    else if s.pair.role = .standby && s.pair.synced && s.counterIn 10000 ≥ w.counter then
      takeOver s (max w.counter s.intake.front) 2 none
    else s

def execPlannedSwapRow (s : State) : Host.Outcome State Fault Refusal := .next (if gated s && s.pair.role != .standby then s else plannedSwap s)

/-- 100 us before t_s, a SWAP that is not acknowledged is cancelled (18 R520). -/
def execSwapAckDeadline (s : State) : Host.Outcome State Fault Refusal :=
  .next (match s.pair.swap with
    | some w => if !w.acked && s.pair.role = .active && s.now + 100 * micros ≥ s.timeAt w.counter then cancelSwap s else s
    | none => s)

/-! ### PAIR Clauses (18 R524) -/

/-- The unit leaves the pair: an active unit keeps its Maquette, a standby clears it (18 R522). -/
def leavePair (s : State) : State :=
  let s1 := if s.pair.role = .disabled then s else (sendMsg s 9 []).1
  let s2 := loseGuard (cancelSwap s1)
  let s3 := if s.pair.role = .standby || s.pair.stillGated then installMaquette s2 (emptyMaquette s2) else s2
  { s3 with pair := { s3.pair with role := .disabled, stillGated := false, synced := false, guarded := false, resync := none,
                                   takeover := none } }

/-- PAIR_CONFIGURE: the enable and the partner's serial number go to the settings (18 R503, R522). -/
def pairConfigure (s : State) (enable : Bool) (partner : U32) : Result := do
  refuseIf (enable && s.pair.role != .disabled) stBusy 8
  let s1 := storeSettings s { settingsNow s with pair := enable, partner := partner.toNat }
  done (if enable then formPair s1 partner else leavePair s1)

def execPairConfigure (src : Src) (enable : U8) (partner : U32) (s : State) : Host.Outcome State Fault Refusal :=
  runClause (.pairConfigure src enable partner) s fun s => pairConfigure s (bitOf enable.toNat 0) partner

/-- PAIR_SWAP: T, or 0 for the earliest time allowed, 1 ms ahead (18 R520). -/
def pairSwap (s : State) (time : U96) : Result := do
  let at_ := if time = 0 then s.now + 1000 * micros else timeOf time
  refuseIf (time != 0 && (!timeOk time || at_ < s.now + 1000 * micros)) stBadParam 8
  refuseIf (!s.pair.guarded || s.pair.role != .active || s.pair.swap.isSome) stBusy 8
  let t := s.counterAt at_
  let m := sendMsg s 7 (leBytes 8 t)
  deferred { m.1 with pair := { m.1.pair with swap := some { counter := t, msg := m.2, acked := false } } } 1 t

def execPairSwap (src : Src) (time : U96) (s : State) : Host.Outcome State Fault Refusal :=
  runClause (.pairSwap src time) s fun s => pairSwap s time

/-- PAIR_RESYNC: the Clause waits until the resynchronisation is over (18 R524). -/
def pairResync (s : State) : Result := do
  refuseIf (s.pair.role != .active || !(s.pair.peer.any fun p => p.1 == .standby) || s.pair.swap.isSome) stBusy 8
  waits (startResync s) []

def execPairResync (src : Src) (s : State) : Host.Outcome State Fault Refusal :=
  runClause (.pairResync src) s fun s => pairResync s

/-- What PAIR_QUERY reports: for F1 its own products and queues only (18 R524). -/
def pairReport (s : State) (f : Fn) : Report :=
  .pair { role := s.pair.role, rank := s.pair.rank, serial := Config.serial,
          flags := [s.pair.synced, s.pair.guarded, s.pair.mirrorOk, s.pair.aliveOk, s.pair.peerFault], peer := s.pair.peer,
          peerSerial := s.pair.peerSerial,
          products := ((s.products.map Prod.snd).filter fun p => seenBy f p.world).map fun p => (p.pid, p.spNext, p.ep),
          commits := (s.err.commit.toList ++ s.pair.peerCommits).filter fun c => seenBy f (worldOf c.fn) }

def execPairQuery (src : Src) (buf : HBuf) (s : State) : Host.Outcome State Fault Refusal :=
  runClause (.pairQuery src buf) s fun s => answerReport s src buf (pairReport s src.fn)

end Sys2Proof.Machine
end

