-- ==== Sys2Proof/Machine/LaneRx.lean ====
section
/-! DEFINITION. Received OSL frames: search, FEC and marker counts, lock, the checks of R48, and where a frame goes (02 R37 to
R64, 03 R71, 07 R219, 18 R500). -/

namespace Sys2Proof.Machine

/-! ### What a receive lane serves -/

/-- A receive group bound for import (07 R219). -/
def importGroup (s : State) (first : Nat) : Bool :=
  s.frieze.prods.any fun p => p.imp.any fun i => i.group == first

/-! ### The checks of R48 -/

/-- The header's group size code and member index agree with the group and the sequence number (02 R48). -/
def headerFits (g : LaneGroup) (h : List Byte) : Bool :=
  hdrSize h == g.code && hdrMember h < groupLanes g.code && hdrSeq h % groupLanes g.code == hdrMember h

/-- A SAMPLE header agrees with its stream's entry (02 R48, 03 R71). -/
def sampleFits (s : State) (g : LaneGroup) (h : List Byte) : Bool :=
  match (s.stream (hdrStream h)).entry with
  | none => false
  | some d =>
    d.first == g.first && hdrFormat h == (if d.c8 then 8 else 4) && field h 20 2 == d.inBase && field h 22 2 == d.inCount &&
      field h 24 2 == d.chBase && field h 26 2 == d.chCount && (d.source == 0 || field h 28 4 == d.source.toNat)

/-- The frame type may pass on this lane, and its fields agree with what the lane serves (02 R42, R48, R51, 07 R219). -/
def typeFits (s : State) (l : Nat) (g : LaneGroup) (h : List Byte) : Bool :=
  if l ≥ 48 then hdrType h == ftMirror
  else if importGroup s g.first then hdrType h == ftRecord
  else hdrType h == ftSample && sampleFits s g h

def countMismatch (s : State) (l : Nat) : State :=
  s.setLane l { s.lane l with hdrMismatch := (s.lane l).hdrMismatch + 1 }

/-- Two lanes of the group report one member: the group does not come UP, and the lane retries from marker search after 100
ms (02 R49). No record is raised while PEER_SLEEP is set (02 R63). -/
def bondOrder (s : State) (l : Nat) (g : LaneGroup) : State :=
  let s1 := s.setLane l { unlocked (s.lane l) with rx := .search, retryDue := true, bondRetry := true }
  if g.bondReported || (s.lane l).peerSleep then s1 else setBond (raise s1 0x0104 .l g.world g.first 0) g true g.up

/-- A frame that passed R48 is handed on: step 6 of bring-up, and the loss cause of DEGRADED clears (02 R57, R59). The records of
an import group's frames and the messages of the mirror link are commands of their own. -/
def passFrame (s : State) (l : Nat) (g : LaneGroup) (h payload : List Byte) (sourceFault : Bool) : State :=
  let x := s.lane l
  let s1 := s.setLane l { x with rx := .up, degLoss := false, disagree := 0, member := some (hdrMember h),
                                 rxFrames := if hdrType h = ftRecord then x.rxFrames else x.rxFrames + 1 }
  let up := (groupLaneList g).all fun n => (s1.lane n).rx == .up
  let s2 := if up then setBond s1 g false true else s1
  if l ≥ 48 then mirrorHeader s2 h
  else if hdrType h = ftSample then intakeFrame s2 h payload sourceFault
  else s2

/-- A frame that is not IDLE, on a locked lane of a group: the checks of R48 and the mapping of R46 and R49. -/
def judgeFrame (s : State) (l : Nat) (g : LaneGroup) (h payload : List Byte) (sourceFault : Bool) : State :=
  if !typeFits s l g h || !headerFits g h then countMismatch s l
  else
    match (s.lane l).member with
    | none =>
      if (groupLaneList g).any fun n => n != l && (s.lane n).member == some (hdrMember h) then bondOrder s l g
      else passFrame s l g h payload sourceFault
    | some m =>
      if m = hdrMember h then passFrame s l g h payload sourceFault
      else
        let s1 := countMismatch s l
        s1.setLane l { s1.lane l with disagree := (s1.lane l).disagree + 1 }

/-! ### A frame on a locked lane (02 R53 to R56, R63) -/

/-- Counts of a locked lane after a frame time: codewords, symbols, markers (02 R53 to R56). -/
def lockedCounts (x : Lane) (f : RxFrame) (marker : Bool) : Lane :=
  let fixed := f.corr.filterMap id
  let syms := sumNat fixed
  let unc := frameUncorr f
  { x with cwCorr := x.cwCorr + BitVec.ofNat 32 (fixed.countP fun n => n > 0),
           cwUncorr := if unc then x.cwUncorr + 1 else x.cwUncorr,
           symCorr := x.symCorr + BitVec.ofNat 32 syms,
           markerMiss := if marker then x.markerMiss else x.markerMiss + 1,
           misses := if marker then 0 else x.misses + 1,
           history := (unc :: x.history).take 64,
           winFrames := x.winFrames + 1,
           winSyms := x.winSyms + syms,
           winPeak := fixed.foldl max x.winPeak }

/-- A frame that was accepted: its link-control status, then its content. After the last announced frame the lane waits in
marker search (02 R40, R63). -/
def acceptFrame (s : State) (l : Nat) (f : RxFrame) : State :=
  let flags := linkFlags f
  let s1 := if bitOf flags 0 then s.setLane l { s.lane l with peerSleep := true } else s
  let h := frameHeader f
  let s2 := if hdrType h = ftIdle then s1
    else match rxGroupOf s1 l with
      | some g => judgeFrame s1 l g h (framePayload f) (bitOf flags 3)
      | none => s1
  if bitOf flags 0 && linkCountdown f ≤ 1 && (s2.lane l).locked then leaveLock s2 l else s2

/-- A frame time of a locked lane in which a frame was decoded. -/
def lockedFrame (s : State) (l : Nat) (f : RxFrame) : State :=
  let marker := markerExact f
  let s1 := s.setLane l (lockedCounts (s.lane l) f marker)
  if frameUncorr f then trialThreat s1 l
  else if !marker then s1
  else if !frameCrcOk f then s1.setLane l { s1.lane l with crcErr := (s1.lane l).crcErr + 1 }
  else acceptFrame s1 l f

/-- A frame time of a locked lane in which no frame can be decoded: a frame whose marker fails (02 R54). -/
def lostFrame (s : State) (l : Nat) : State :=
  s.setLane l (lockedCounts (s.lane l) { corr := [], bytes := [] } false)

/-- A frame time in marker search (02 R52, R53). -/
def searchFrame (s : State) (l : Nat) (line : List Bool) : State :=
  let x := s.lane l
  s.setLane l { x with tried := x.tried + 1, markers := if markerSeen line then x.markers + 1 else 0 }

/-- What fell due on a lane before this frame takes effect first: lock, loss of lock, the end of a window, the next
hypothesis. -/
def rxDue (s : State) (l : Nat) : State :=
  let s1 := frameLock s l
  let s2 := if (s1.lane l).tried ≥ 64 then nextHypothesis s1 l else s1
  windowEnd (lockLoss s2 l) l

/-- The levels of one frame time reach a receiver. -/
def rxFrame (s : State) (l : Nat) (levels : List (BitVec 2)) : State :=
  let s1 := rxDue s l
  let x := s1.lane l
  let line := lineBits x.hyp x.rxPrev levels
  let s2 := s1.setLane l { x with rxPrev := levels.getLastD x.rxPrev }
  if !(x.rx == .search || x.rx == .up) || x.retryDue then s2
  else if !x.locked then searchFrame s2 l line
  else if levels.length = 13600 then lockedFrame s2 l (decodeFrame line)
  else lostFrame s2 l

/-- A frame at the receive bumps of a lane. In near-end loopback the receiver takes the die's own transmitter instead; in
far-end loopback the symbols leave again on the transmit side (17 R495). -/
def execOslFrameRx (lane : Fin 52) (levels : List (BitVec 2)) (s : State) : Host.Outcome State Fault Refusal :=
  .next (
    if s.power.inReset then s
    else match (s.lane lane.val).loopback with
      | 1 => s
      | 2 => (rxFrame s lane.val levels).emit (.frame lane.val levels)
      | _ => rxFrame s lane.val levels)

end Sys2Proof.Machine
end

