-- ==== Sys2Proof/Machine/LaneTx.lean ====
section
/-! DEFINITION. Transmit frame slots: IDLE, RECORD and MIRROR frames, announced sleep and precoding switches (02 R35 to R42,
R50, R62, R70, 17 R495, 18 R500, R501, R509). -/

namespace Sys2Proof.Machine

/-! ### What a slot carries -/

/-- The content of one frame: header, payload, link-control field, and whether it counts in TX_FRAMES. -/
structure TxFrame where
  header : List Byte
  payload : List Byte
  link : List Byte
  counted : Bool
  deriving DecidableEq, Repr

/-- The link-control field: no sleep announced, or the level of the sleep and the frames still to send (02 R40, R62). -/
def linkControl (notice : Option (Nat × Nat)) : List Byte :=
  match notice with
  | none => zeros 96
  | some (level, n) => leBytes 1 (1 + 2 * level) ++ leBytes 1 n ++ zeros 94

/-- An IDLE frame (02 R42). -/
def idleFrame (notice : Option (Nat × Nat)) : TxFrame :=
  { header := zeros 32, payload := zeros 3072, link := linkControl notice, counted := false }

/-- The byte of member index and group size code (02 R41). -/
def memberByte (member code : Nat) : List Byte := leBytes 1 (member + 16 * code)

/-- A RECORD frame (02 R41, R50). -/
def recordFrame (g : LaneGroup) (member : Nat) (f : ReadyFrame) : TxFrame :=
  { header := leBytes 2 f.egress ++ leBytes 1 ftRecord ++ leBytes 1 0 ++ memberByte member g.code ++ leBytes 1 0 ++
      leBytes 2 f.seq ++ leBytes 8 f.pos ++ leBytes 4 (f.firstRec.getD 0xFFFFFFFF) ++ leBytes 2 f.bytes.length ++
      leBytes 2 (f.bytes.length / 65536) ++ leBytes 4 0 ++ leBytes 4 Config.serial.toNat,
    payload := f.bytes ++ zeros (3072 - f.bytes.length), link := linkControl none, counted := true }

/-- A RECORD frame of a group that this lane's member carries is ready (02 R46, R50). -/
def readyFor (g : LaneGroup) (member : Nat) (f : ReadyFrame) : Bool :=
  f.group == g.first && f.seq % groupLanes g.code == member

/-- Of the frames that a member carries, the one that became ready earliest; of those of one FCLK cycle, that of the lowest
egress stream (02 R50). -/
def firstReady (g : LaneGroup) (member : Nat) (fs : List ReadyFrame) : Option (ReadyFrame × List ReadyFrame) :=
  let mine := fs.filter (readyFor g member)
  match mine with
  | [] => none
  | h :: _ =>
    let e := ((minBy ReadyFrame.egress (mine.filter fun f => f.ready == h.ready)).map ReadyFrame.egress).getD h.egress
    takeFirst (fun f => readyFor g member f && f.ready == h.ready && f.egress == e) fs

/-- The earliest ready RECORD frame for a lane, and the state without it; none while the data path is gated or a class F fault
stands (02 R50, 17 R486, 18 R505). -/
def takeReady (s : State) (l : Nat) : Option (TxFrame × State) :=
  match groupOfLane s 1 l with
  | none => none
  | some g =>
    if gated s then none
    else match firstReady g (l - g.first) s.osl.frames with
      | some (f, rest) => some (recordFrame g (l - g.first) f, { s with osl := { s.osl with frames := rest } })
      | none => none

/-! ### MIRROR frames (18 R500, R501) -/

/-- The role as a MIRROR frame's header codes it. -/
def roleCode : Role → Nat
  | .disabled => 0
  | .forming => 0
  | .active => 1
  | .standby => 2
  | .faulted => 3

/-- The next number from `n` on that the member carries (02 R46). -/
def nextFor (n member : Nat) : Nat := n + (member + 4 - n % 4) % 4

/-- A PAD message fills the rest of a frame (18 R501). -/
def padTo (bs : List Byte) : List Byte :=
  let k := 3072 - bs.length
  if k = 0 then bs else bs ++ leBytes 2 0 ++ leBytes 2 (k / 8) ++ zeros (k - 4)

/-- E_p goes to the standby at least every 100 us while it changes (18 R509). -/
def tellEmitted (s : State) : State :=
  if !reserving s then s
  else s.products.foldl (fun t x =>
    let p := x.2
    if p.ep != p.epTold && p.spSent.isNone && t.now ≥ p.epTime + 100 * micros then sendReserve t p p.spNext else t) s

/-- The Maquette format that the unit holds (18 R500, 19 R530). -/
def mirrorFormat (s : State) : Nat := s.boot.maqFormat

/-- A MIRROR frame of a mirror lane. -/
def mirrorFrame (s0 : State) (l : Nat) : TxFrame × State :=
  let s := tellEmitted s0
  let p := s.pair
  let m := l - 48
  let seq := nextFor p.frameSeq.toNat m
  let w := roleCode p.role + 4 * b2n p.rank + 8 * b2n p.synced
  let header := leBytes 2 w ++ leBytes 1 ftMirror ++ leBytes 1 0 ++ memberByte m 2 ++ leBytes 1 0 ++ leBytes 2 seq ++
    leBytes 4 (p.lastRx.getD 0xFFFFFFFF) ++ leBytes 4 p.commitCount.toNat ++ leBytes 4 (slotVersion s s.boot.runSlot) ++
    leBytes 4 (mirrorFormat s) ++ leBytes 4 0 ++ leBytes 4 Config.serial.toNat
  ({ header := header, payload := padTo (p.txBytes.take 3072), link := linkControl none, counted := true },
   { s with pair := { p with frameSeq := BitVec.ofNat 16 (seq + 1), txBytes := p.txBytes.drop 3072 } })

/-! ### The slot -/

/-- An IDLE frame that is owed before data: after a wake, or before a precoding switch (02 R62, R70). -/
def idleOwed (x : Lane) : Bool := x.idleOwed > 0 || x.precodeSwitch.isSome

/-- One IDLE frame less is owed. -/
def payIdle (x : Lane) : Lane :=
  { x with idleOwed := x.idleOwed - 1, precodeSwitch := x.precodeSwitch.map fun p => (p.1, p.2 - 1) }

/-- The frame of a slot of an ACTIVE lane, and the state after its choice. An announced sleep begins once no RECORD frame is
ready. -/
def slotFrame (s : State) (l : Nat) : TxFrame × State :=
  let x := s.lane l
  if l ≥ 48 then
    if s.pair.role = .disabled then (idleFrame none, s.setLane l (payIdle x)) else mirrorFrame s l
  else if idleOwed x then (idleFrame none, s.setLane l (payIdle x))
  else
    match x.txSleep, takeReady s l with
    | some 16, some r => r
    | some n, _ => (idleFrame (some (x.txOps.headD 0, n)), s.setLane l { x with txSleep := some (n - 1) })
    | none, some r => r
    | none, none => (idleFrame none, s)

/-- What fell due before this slot takes effect first: the precoding switch, and the sleep state after the last announced
frame. -/
def txDue (s : State) (l : Nat) : State :=
  let s1 := precodeSwitch s l
  if (s1.lane l).txSleep = some 0 then txSettle s1 l else s1

/-- The frame leaves: it takes the lane's frame count, and a lane in near-end loopback receives it (02 R38, 17 R495). -/
def sendFrame (s : State) (l : Nat) (f : TxFrame) : State :=
  let x := s.lane l
  let levels := frameLevels x.txPrecode x.txPrev x.txCount.toNat f.header f.payload f.link
  let s1 := s.setLane l { x with txCount := x.txCount + 1, txPrev := levels.getLastD x.txPrev,
                                 txFrames := if f.counted then x.txFrames + 1 else x.txFrames }
  let s2 := s1.emit (.frame l levels)
  if x.loopback = 1 then rxFrame s2 l levels else s2

/-- One frame slot of a transmit lane. A lane that is not ACTIVE sends nothing; in far-end loopback it repeats what it
receives instead. -/
def txSlot (s0 : State) (l : Nat) : State :=
  let s := txDue s0 l
  let x := s.lane l
  if x.tx != .active || x.loopback = 2 then s
  else
    let r := slotFrame s l
    sendFrame r.2 l r.1

def execTxFrameSlot (lane : Fin 52) (s : State) : Host.Outcome State Fault Refusal :=
  .next (if s.power.inReset then s else txSlot s lane.val)

end Sys2Proof.Machine
end

