-- ==== Sys2Proof/Machine/Boot.lean ====
section
/-! DEFINITION. Reset, cold boot, the ROM's choice, the Armature's return to service and firmware activation (17 R490, R491,
19 R525 to R544, 20 R549, R554, R558), and the UPDATE Clauses (19 R547). -/

namespace Sys2Proof.Machine

/-! ### Reading and checking a slot (19 R528 to R531) -/

/-- The bytes of an image of a slot; erased flash reads as 0xFF. -/
def imageBytes (x : Slot) (len : Nat) : List Byte :=
  ((List.range (ceilDiv len 4096)).flatMap fun k => (tabGet (4096 * k) x.chunks).getD (List.replicate 4096 0xFF)).take len

/-- The image of a slot is verified (19 R531). SHA-384 and ECDSA are not interpreted (log 16). -/
def verify (s : State) (n : Nat) : Bool :=
  match (if n < 2 then slotHeader s n else none), s.boot.keyHash with
  | some h, some key =>
    let owner := slice h 72 96
    Config.sha384 owner == key && Config.ecdsaOk owner (Config.sha384 (slice h 0 168)) (slice h 168 96) &&
      Config.sha384 (imageBytes (s.slot n) (field h 8 4)) == slice h 24 48
  | _, _ => false

/-- The image in the running slot reads a format (19 R530, R541). -/
def reads (s : State) (format : Nat) : Bool :=
  match slotHeader s s.boot.runSlot with
  | some h => field h 16 2 ≤ format && format ≤ field h 18 2
  | none => false

/-! ### The service port's notice (19 R534) -/

/-- Drive SVC_ATTN_N. -/
def setSvcAttn (s : State) (high : Bool) : State :=
  if s.boot.svcAttnN = high then s
  else ({ s with boot := { s.boot with svcAttnN := high } }).emit (.pin "SVC_ATTN_N" high)

/-- MODE changes, and SVC_ATTN_N falls. -/
def enterMode (s : State) (m : BootMode) : State :=
  if s.boot.mode = m then s else setSvcAttn { s with boot := { s.boot with mode := m } } false

/-- LAST_RESULT changes, and SVC_ATTN_N falls. -/
def noteResult (s : State) (r : Nat) : State :=
  if s.boot.lastResult = r then s else setSvcAttn { s with boot := { s.boot with lastResult := r } } false

/-- A boot record is written, and LAST_RESULT follows it. -/
def recordBoot (s : State) (r : BootRec) : State := noteResult (writeBootRec s r) r.result

/-! ### What the ROM boots (19 R527) -/

/-- What the ROM ends in: an image, on trial or not; recovery mode; or no image that verifies. -/
inductive RomOut where
  | image (slot : Nat) (trial : Bool)
  | recovery
  | failed
  deriving DecidableEq, Repr

/-- The confirmed slot, if it verifies. -/
def romConfirmed (s : State) (slot : Nat) : State × RomOut := (s, if verify s slot then .image slot false else .failed)

/-- The trial is over: a record says so, and the confirmed slot boots. -/
def romReverts (s : State) (r : BootRec) (result : Nat) : State × RomOut :=
  romConfirmed (raiseDev (recordBoot s { r with trial := 0xFF, count := 0, result := result }) 0x1002 .l 0 0) r.confirmed

/-- The choice without a hint. -/
def romRecord (s : State) : State × RomOut :=
  match newestRecord s with
  | none =>
    match [0, 1].find? (verify s) with
    | some n =>
      (recordBoot s { confirmed := n, trial := 0xFF, count := 0, result := 0, confirmedVersion := slotVersion s n,
                      trialVersion := 0 }, .image n false)
    | none => (s, .recovery)
  | some (_, b) =>
    let r := readRec b
    if r.trial = 0xFF then romConfirmed s r.confirmed
    else if r.count ≥ 3 then romReverts s r 2
    else
      let s1 := recordBoot s { r with count := r.count + 1 }
      if verify s1 r.trial then (s1, .image r.trial true) else romReverts s1 { r with count := r.count + 1 } 3

/-- The ROM's choice. A die whose key hash is not programmed enters recovery mode (19 R531, R544). -/
def romChoose (s : State) (strap : Bool) : State × RomOut :=
  if strap || s.boot.keyHash.isNone then (s, .recovery)
  else if s.boot.hint then
    let s1 := { s with boot := { s.boot with hint := false } }
    match newestRecord s1 with
    | some (_, b) =>
      let r := readRec b
      romConfirmed (recordBoot s1 { r with trial := 0xFF, count := 0, result := 4 }) r.confirmed
    | none => romRecord s1
  else romRecord s

/-- The ROM jumps into an image: held settings are discarded where no trial goes on (19 R533, R546). -/
def bootInto (s : State) (slot : Nat) (trial : Bool) : State :=
  let s1 := { s with boot := { s.boot with
    runSlot := slot, trial := trial, trialCount := if trial then (bootRec s).count else 0, boots := s.boot.boots + 1,
    heldSettings := if trial then s.boot.heldSettings else none } }
  noteResult (enterMode s1 .firmware) (bootRec s1).result

/-- Recovery mode: no Clause is taken, and a restart that led here is over (19 R544). -/
def enterRecovery (s : State) : State :=
  enterMode { s with boot := { s.boot with trial := false, trialCount := 0, boots := s.boot.boots + 1 },
                     err := { s.err with service := false, activating := false, arm := none, seqState := .normal } } .recovery

/-! ### Incompatible formats (19 R542) -/

/-- The image cannot read a format it found: it reports that, sets the hint and has the Armature restarted. -/
def refuseFormat (s : State) (format : Nat) : State :=
  let s1 := raiseAttn (raiseDev s 0x1001 .l 0 0) 8
  let s2 := setSvcAttn s1 false
  { s2 with boot := { s2.boot with hint := true, incompatible := some (s2.boot.runSlot, slotVersion s2 s2.boot.runSlot, format) },
            err := { s2.err with service := false, activating := s2.err.activating || s2.err.arm.isNone,
                                 seqState := if s2.err.arm.isNone then .restart else s2.err.seqState } }

/-- The format of the stored settings, that of the image where there are none. -/
def storedFormat (s : State) : Nat :=
  match newestSettings s with
  | some (_, c) => field c 2 2
  | none => writeFormat s

/-! ### Cold boot (19 R526) -/

/-- Steps 4 and 5: the image runs, reads the settings, and the memory starts its training. -/
def coldJump (s : State) (slot : Nat) (trial : Bool) : State :=
  let s1 := bootInto s slot trial
  let s2 := { s1 with boot := { s1.boot with settingsDefault := (newestSettings s1).isNone, setFormat := storedFormat s1,
                                             maqFormat := writeFormat s1 } }
  let s3 := trainStacks s2 63
  if reads s3 (storedFormat s3) then s3 else refuseFormat s3 (storedFormat s3)

/-- What the ROM's choice leads to at a cold boot. -/
def coldBoot (r : State × RomOut) : State :=
  match r.2 with
  | .image n t => coldJump r.1 n t
  | .recovery | .failed => enterRecovery r.1

/-- RESET_N rises: FAULT_N is released, the straps are sampled and the ROM starts (19 R525, R526, 20 R554). -/
def resetRelease (s : State) (recoveryN flashMode rank : Bool) : State :=
  if !s.power.inReset && s.boot.mode != .rom then s
  else
    let s1 := setFaultN { s with
      power := { s.power with inReset := false, tripped := false, pwrGood := true },
      clock := { s.clock with xoOk := true },
      pair := { s.pair with strapRank := rank, rank := rank },
      boot := { s.boot with strapRecovery := !recoveryN, strapQuad := !flashMode } } true
    coldBoot (romChoose s1 (!recoveryN))

def execResetRelease (recoveryN flashMode rank : Bool) (s : State) : Out := .next (resetRelease s recoveryN flashMode rank)

/-! ### Reset (20 R554, R558) -/

/-- The die is in reset: every register at its reset value; what the flash and the one-time-programmable memory hold stays
(19 R528, R531). -/
def resetDie (s : State) : State :=
  let b := s.boot
  let r := State.reset
  let s1 : State := { r with
    out := s.out, fresh := s.fresh, pending := s.pending,
    boot := { r.boot with rec0 := b.rec0, rec1 := b.rec1, set0 := b.set0, set1 := b.set1, slotA := b.slotA, slotB := b.slotB,
                          keyHash := b.keyHash, svcAttnN := b.svcAttnN },
    err := { r.err with faultN := s.err.faultN },
    power := { r.power with inReset := true, tripped := s.power.tripped, vddIo := s.power.vddIo, pwrGood := s.power.pwrGood } }
  let s2 := setSvcAttn (attnFollow s (setFaultN s1 false)) true
  if s.power.vid = s2.power.vid then s2 else s2.emit (.vid s2.power.vid)

def execResetAssert (s : State) : Out := .next (resetDie s)

/-- PWR_GOOD falls while RESET_N is high: no record is written. -/
def execPwrGoodFall (s : State) : Out := .next (resetDie { s with power := { s.power with pwrGood := false } })

/-- 120 °C: reset, until the next RESET_N (20 R558). -/
def execThermalTrip (s : State) : Out := .next (resetDie { s with power := { s.power with tripped := true } })

/-! ### CORE_VID (20 R549) -/

/-- The code needed is set by the die's delay monitors and temperature, which the spec gives no value for: a free value of 0 to
32. The code moves at most one step toward it every 10 us. -/
def vidStep (s : State) : State :=
  let settled : Bool := match s.power.vidTime with
    | some t => decide (s.now ≥ t + 10 * micros)
    | none => true
  if s.power.inReset || s.boot.mode != .firmware || !settled then s
  else
    let need := s.free 33
    let v := s.power.vid.toNat
    let v1 := if need.1 > v then v + 1 else if need.1 < v then v - 1 else v
    if v1 = v then need.2
    else
      let s1 := { need.2 with power := { s.power with vid := BitVec.ofNat 6 v1, vidTime := some s.now } }
      s1.emit (.vid (BitVec.ofNat 6 v1))

def execVidStep (s : State) : Out := .next (vidStep s)

/-- VDD_IO reaches 1.62 V: CORE_VID drives its default code. -/
def execVddIoRise (s : State) : Out :=
  let s1 : State := { s with power := { s.power with vddIo := true, vid := 0x10, vidTime := none } }
  .next (s1.emit (.vid 0x10))

/-! ### Activation (19 R537, R538) -/

/-- The trial of a new slot begins: the record, and a restart of the Armature without an incident. -/
def startTrial (s : State) (slot : Nat) : State :=
  let s1 := recordBoot s { confirmed := s.boot.runSlot, trial := slot, count := 0, result := 0,
                           confirmedVersion := slotVersion s s.boot.runSlot, trialVersion := slotVersion s slot }
  let s2 := { s1 with boot := { s1.boot with activation := none, incompatible := none },
                      err := { s1.err with activating := true } }
  stopService s2 .restart

/-- At T, or at once after a restart that was in progress then. -/
def activationDue (s : State) : State :=
  match s.boot.activation with
  | some (slot, t) => if s.now ≥ t && !restarting s && s.err.seqState != .failed then startTrial s slot else s
  | none => s

def execUpdateActivationTime (s : State) : Out := .next (if s.power.inReset then s else activationDue s)

/-! ### The UPDATE Clauses (19 R537, R540, R547) -/

/-- UPDATE_ACTIVATE. -/
def updateActivate (s : State) (slot : Nat) (time : U96) : Result := do
  refuseIf (slot > 1 || slot == s.boot.runSlot) stBadParam 8
  refuseIf (!timeOk time || timeOf time < s.now + 100000 * micros) stBadParam 16
  refuseIf ((slotHeader s slot).isNone || s.boot.download.isSome || s.boot.activation.isSome || s.boot.trial) stBusy 8
  deferredTime { s with boot := { s.boot with activation := some (slot, timeOf time) } } time

def execUpdateActivate (src : Src) (slot : U8) (time : U96) (s : State) : Out :=
  runClause (.updateActivate src slot time) s fun s => updateActivate s slot.toNat time

/-- UPDATE_CONFIRM waits until its record is written. -/
def updateConfirm (s : State) (slot : Nat) : Result :=
  if s.boot.trial && slot == s.boot.runSlot then waits s [slot]
  else
    match s.boot.incompatible with
    | some (n, version, format) =>
      if slot = n then .error (.mk' stSettingsIncompatible 0 version format 0) else refuse stBadParam 8
    | none => refuse stBadParam 8

def execUpdateConfirm (src : Src) (slot : U8) (s : State) : Out :=
  runClause (.updateConfirm src slot) s fun s => updateConfirm s slot.toNat

/-- The confirming record is written, and then the held settings (19 R533, R540). -/
def confirmTrial (s : State) (slot : Nat) : State :=
  let r := bootRec s
  let s1 := recordBoot s { r with confirmed := slot, trial := 0xFF, count := 0, result := 1,
                                  confirmedVersion := slotVersion s slot }
  flushSettings { s1 with boot := { s1.boot with trial := false, trialCount := 0 } }

/-- The state of a slot that UPDATE_QUERY writes. -/
def slotState (s : State) (n : Nat) : Nat :=
  if s.boot.download.any fun d => d.slot == n then 2 else if (slotHeader s n).isSome then 1 else 0

/-- The header fields that UPDATE_QUERY writes of a slot. -/
def slotItem (s : State) (n : Nat) : Option SlotItem :=
  (slotHeader s n).map fun h =>
    { version := field h 4 4, length := field h 8 4, lowFormat := field h 16 2, writeFormat := field h 18 2 }

/-- The 64 bytes of a slot: its state, and what its header says (log 10). -/
def slotBlock (s : State) (n : Nat) : List Byte :=
  leBytes 1 (slotState s n) ++ (List.range 63).map (Config.slotByte (slotItem s n))

/-- UPDATE_QUERY: the newest record and a block for each slot. Where no record is valid its bytes are free values (log 10). -/
def updateQuery (s : State) (src : Src) (buf : HBuf) : Result :=
  match newestRecord s with
  | some (_, x) => answerQuery s src buf (x ++ slotBlock s 0 ++ slotBlock s 1)
  | none =>
    let x := s.freeBytes 64
    answerQuery x.2 src buf (x.1 ++ slotBlock s 0 ++ slotBlock s 1)

def execUpdateQuery (src : Src) (buf : HBuf) (s : State) : Out :=
  runClause (.updateQuery src buf) s fun s => updateQuery s src buf

end Sys2Proof.Machine
end

