-- ==== Sys2Proof/Machine/Svc.lean ====
section
/-! DEFINITION. The service port (19 R534 to R536, R544, 20 R561), and the Armature's return to service (17 R490, R491, 19 R527,
R538, R542). -/

namespace Sys2Proof.Machine

/-! ### Transactions (19 R534, R535) -/

/-- The command transaction's CRC-32C matches. -/
def svcCrcOk (opcode : Nat) (c : SvcCmd) : Bool :=
  crc32c (leBytes 1 opcode ++ leBytes 1 c.tag.toNat ++ leBytes 2 c.rsvd.toNat ++ leBytes 4 c.params.length ++ c.params) == c.crc

/-- A response. -/
def svcBytes (opcode tag status : Nat) (bytes : List Byte) : List Byte :=
  withCrc (leBytes 1 opcode ++ leBytes 1 tag ++ leBytes 2 status ++ leBytes 4 bytes.length ++ bytes)

/-- A response is ready, and SVC_ATTN_N falls. -/
def svcAnswer (s : State) (opcode : Nat) (c : SvcCmd) (status : Nat) (bytes : List Byte) : State :=
  setSvcAttn { s with boot := { s.boot with svcPending := some (svcBytes opcode c.tag.toNat status bytes) } } false

/-- READ: the response that waits, or an empty one; SVC_ATTN_N rises. -/
def svcRead (s : State) : State :=
  let bytes := s.boot.svcPending.getD (svcBytes 0 0 stDone [])
  (setSvcAttn { s with boot := { s.boot with svcPending := none } } true).emit (.svc bytes)

def execSvcRead (s : State) : Out := .next (if s.power.inReset then s else svcRead s)

/-! ### Commands -/

/-- What a command answers: the state, the status and the bytes. -/
structure SvcOut where
  state : State
  status : Nat
  bytes : List Byte
  deriving DecidableEq, Repr

/-- A command that changes nothing. -/
def svcRefuse (s : State) (status : Nat) : SvcOut := { state := s, status := status, bytes := [] }

/-- BOOT_STATUS (19 R546). -/
def bootStatus (s : State) : Nat :=
  let b := s.boot
  let mode := match b.mode with
    | .rom => 0
    | .firmware => 1
    | .recovery => 2
  mode + 4 * (b.runSlot % 2) + 8 * b2n b.trial + 16 * (b.trialCount % 4) + 64 * b2n b.activation.isSome +
    128 * b2n b.download.isSome + 256 * b2n b.settingsDefault + 512 * (b.lastResult % 8) + 4096 * b2n b.strapRecovery +
    8192 * b2n b.strapQuad + 16384 * b2n b.ready + 32768 * b2n b.hint

/-- FW_VERSION and OTHER_VERSION (19 R546): no image runs outside MODE FIRMWARE. -/
def runVersion (s : State) : Nat := if s.boot.mode = .firmware then slotVersion s s.boot.runSlot else 0
def otherVersion (s : State) : Nat := slotVersion s (1 - s.boot.runSlot)

/-- RECORD_SEQ (19 R546). -/
def recordSeq (s : State) : Nat :=
  match newestRecord s with
  | some (_, b) => field b 4 4
  | none => 0

/-- STATUS. -/
def svcStatus (s : State) : SvcOut :=
  { state := s, status := stDone,
    bytes := leBytes 4 (bootStatus s) ++ leBytes 4 (runVersion s) ++ leBytes 4 (otherVersion s) ++ leBytes 4 (recordSeq s) ++
      leBytes 4 (slotVersion s 0) ++ leBytes 4 (slotVersion s 1) ++ leBytes 8 Config.serial.toNat }

/-- IDENTIFY. -/
def svcIdentify (s : State) : SvcOut := { state := s, status := stDone, bytes := identityBlock s }

/-- The conditions under which DL_BEGIN is BUSY (19 R536). -/
def downloadBusy (s : State) (slot : Nat) : Bool :=
  (s.boot.mode == .firmware && slot == s.boot.runSlot) || (s.boot.trial && slot == (bootRec s).confirmed) ||
    (s.boot.activation.any fun a => a.1 == slot) || s.boot.download.isSome

/-- DL_BEGIN: the slot is erased, its header first. -/
def dlBegin (s : State) (p : List Byte) : SvcOut :=
  let slot := field p 0 1
  let len := field p 1 4
  if p.length ≠ 5 ∨ slot > 1 ∨ len % 4 ≠ 0 ∨ len < 4096 ∨ len > 1048576 then svcRefuse s stBadParam
  else if downloadBusy s slot then svcRefuse s stBusy
  else
    let s1 := s.setSlot slot { header := none, chunks := [] }
    { state := { s1 with boot := { s1.boot with download := some { slot := slot, length := len, next := 0 } } }, status := stDone,
      bytes := [] }

/-- DL_DATA: the next chunk of 4,096 bytes, or the rest of the image. -/
def dlData (s : State) (p : List Byte) : SvcOut :=
  match s.boot.download with
  | none => svcRefuse s stBadParam
  | some d =>
    let data := p.drop 4
    if field p 0 4 ≠ d.next ∨ d.next ≥ d.length ∨ data.length ≠ min 4096 (d.length - d.next) then svcRefuse s stBadParam
    else
      let x := s.slot d.slot
      let s1 := s.setSlot d.slot { x with chunks := tabSet d.next data x.chunks }
      { state := { s1 with boot := { s1.boot with download := some { d with next := d.next + data.length } } }, status := stDone,
        bytes := [] }

/-- DL_END: the header is checked and programmed last (19 R536). -/
def dlEnd (s : State) (h : List Byte) : SvcOut :=
  match s.boot.download with
  | none => svcRefuse s stBadParam
  | some d =>
    if h.length ≠ 512 ∨ !crcOk h ∨ field h 8 4 ≠ d.length ∨ d.next < d.length then svcRefuse s stBadParam
    else
      let x := s.slot d.slot
      let s1 := s.setSlot d.slot { x with header := some h }
      { state := { s1 with boot := { s1.boot with download := none } }, status := stDone, bytes := [] }

/-- DL_ABORT. -/
def dlAbort (s : State) : SvcOut :=
  { state := { s with boot := { s.boot with download := none } }, status := stDone, bytes := [] }

/-- RECOVERY_BOOT writes a record naming the slot as trial, and the ROM boots it under R527 past the strap. The slot confirmed
where no record named one is a free value. -/
def recoveryBoot (s : State) (p : List Byte) : SvcOut :=
  let slot := field p 0 1
  if s.boot.mode ≠ .recovery then svcRefuse s stBusy
  else if p.length ≠ 1 ∨ slot > 1 then svcRefuse s stBadParam
  else
    let c := s.free 2
    let r := match newestRecord s with
      | some (_, b) => (readRec b, s)
      | none => ({ bootRec s with confirmed := c.1, confirmedVersion := slotVersion s c.1 }, c.2)
    let s1 := recordBoot r.2 { r.1 with trial := slot, count := 0, result := 0, trialVersion := slotVersion s slot }
    { state := coldBoot (romChoose s1 false), status := stDone, bytes := [] }

/-- KEY_PROGRAM: the owner key hash, once (19 R535, 20 R561). -/
def keyProgram (s : State) (p : List Byte) : SvcOut :=
  if s.boot.mode ≠ .recovery ∨ s.boot.keyHash.isSome then svcRefuse s stBusy
  else if p.length ≠ 48 then svcRefuse s stBadParam
  else { state := { s with boot := { s.boot with keyHash := some p } }, status := stDone, bytes := [] }

/-- The effect of a command by its opcode. A command without parameters that carries some is BAD_PARAM. -/
def svcEffect (s : State) (opcode : Nat) (p : List Byte) : SvcOut :=
  match opcode with
  | 0x10 => dlBegin s p
  | 0x11 => dlData s p
  | 0x12 => dlEnd s p
  | 0x20 => recoveryBoot s p
  | 0x30 => keyProgram s p
  | _ =>
    if p ≠ [] then svcRefuse s stBadParam
    else match opcode with
      | 0x01 => svcStatus s
      | 0x02 => svcIdentify s
      | _ => dlAbort s

/-- A command is served. -/
def svcServe (s : State) (opcode : Nat) (c : SvcCmd) : State :=
  let r := svcEffect s opcode c.params
  svcAnswer r.state opcode c r.status r.bytes

/-- A command transaction (19 R535): dropped while a response is unread or another command waits; a bad CRC is BAD_PARAM; during
an Armature restart it waits. -/
def svcCommand (s : State) (opcode : Nat) (c : SvcCmd) : State :=
  if s.power.inReset then s
  else if s.boot.svcPending.isSome || s.boot.svcWaiting.isSome then
    { s with boot := { s.boot with svcDropped := s.boot.svcDropped + 1 } }
  else
    let s1 := { s with boot := { s.boot with svcCmds := s.boot.svcCmds + 1 } }
    if !svcCrcOk opcode c then
      svcAnswer { s1 with boot := { s1.boot with svcCrcErr := s1.boot.svcCrcErr + 1 } } opcode c stBadParam []
    else if restarting s1 then { s1 with boot := { s1.boot with svcWaiting := some (opcode, c) } }
    else svcServe s1 opcode c

def execSvcStatus (c : SvcCmd) (s : State) : Out := .next (svcCommand s 0x01 c)
def execSvcIdentify (c : SvcCmd) (s : State) : Out := .next (svcCommand s 0x02 c)
def execDlBegin (c : SvcCmd) (s : State) : Out := .next (svcCommand s 0x10 c)
def execDlData (c : SvcCmd) (s : State) : Out := .next (svcCommand s 0x11 c)
def execDlEnd (c : SvcCmd) (s : State) : Out := .next (svcCommand s 0x12 c)
def execDlAbort (c : SvcCmd) (s : State) : Out := .next (svcCommand s 0x13 c)
def execRecoveryBoot (c : SvcCmd) (s : State) : Out := .next (svcCommand s 0x20 c)
def execKeyProgram (c : SvcCmd) (s : State) : Out := .next (svcCommand s 0x30 c)

/-- The command that waited for the end of a restart is served. -/
def svcResume (s : State) : State :=
  match s.boot.svcWaiting with
  | some (opcode, c) => svcServe { s with boot := { s.boot with svcWaiting := none } } opcode c
  | none => s

/-! ### The Armature returns (17 R490, R491) -/

/-- The close of the incident, if the restart had one: class T after one failure, else class L. -/
def closeRestart (s : State) (a : Option ArmIncident) : State :=
  match a with
  | some x => closeIncident s x.id 0x0E03 (if x.failures ≤ 1 then .t else .l) 0
  | none => s

/-- Clause service opens if the memory has been filled meanwhile (19 R526). -/
def serviceOpens (s : State) : State := if s.hbm.filled then bootComplete s else s

/-- Step 6: due follow entries are written and service resumes; before the cold boot is over it opens with it. Then what waited
for the end of the restart goes on. -/
def restartEnds (s : State) : State :=
  let a := s.err.arm
  let s1 := if s.boot.ready then resumeService s
    else serviceOpens { s with err := { s.err with seqState := .normal, arm := none, activating := false } }
  let s2 := closeRestart { s1 with err := { s1.err with armRestarts := s1.err.armRestarts + 1 } } a
  activationDue (svcResume s2)

/-- Step 5: the Maquette is checked and adopted, unless the image cannot read its format or that of the settings (17 R490, R491,
19 R542). -/
def adopt (s : State) (maquetteOk : Bool) : State :=
  if !maquetteOk then
    let s1 := classF s 0x0E06 .secure true 0 0
    { s1 with err := { s1.err with seqState := .failed, service := false, arm := none, activating := false } }
  else if !reads s s.boot.maqFormat then refuseFormat s s.boot.maqFormat
  else if !reads s (storedFormat s) then refuseFormat s (storedFormat s)
  else restartEnds (applyHold s)

/-- The restarted Armature boots from ROM; an image that does not verify exceeds the limit of step 4 (19 R527). In recovery mode
the service port goes on, with a command that waited (19 R544). -/
def armRestarted (s : State) (maquetteOk : Bool) : State :=
  if s.power.inReset || !restarting s then s
  else
    let r := romChoose s s.boot.strapRecovery
    match r.2 with
    | .image n t => adopt (bootInto r.1 n t) maquetteOk
    | .recovery => svcResume (enterRecovery r.1)
    | .failed => stepTimeout r.1

def execArmRestarted (maquetteOk : Bool) (s : State) : Out := .next (armRestarted s maquetteOk)

end Sys2Proof.Machine
end

