-- ==== Sys2Proof/Machine/Waits.lean ====
section
/-! DEFINITION. The end of a wait phase (11 R351) and of the deferral of a change (01 R25). -/

namespace Sys2Proof.Machine

/-! ### CLAUSE_WAIT_COMPLETE (11 R351) -/

/-- A swap of this Clause waits for the copy in progress to end (07 R210). -/
def swapQueued (s : State) (src : Src) : Bool := s.frieze.swaps.any fun x => decide (x.src = src)

/-- The hardware has reached the state a Clause waits for. -/
def waitReached (s : State) (src : Src) (w : Waiting) : Bool :=
  match w.opcode.toNat, w.args with
  | 0x0100, dir :: lanes => lanes.all fun l => stepThree s dir l
  | 0x0102, dir :: ops => opsDone s dir ops
  | 0x0103, dir :: ops => opsDone s dir ops
  | 0x0406, args => args.length == 3 || !swapQueued s src
  | 0x0702, _ => !s.net.acceptArmed
  | 0x0A00, _ => s.world.fill.isNone
  | 0x0B02, _ => s.pair.resync.isNone
  | 0x0D00, _ => s.hbm.ratePending.isNone
  | 0x0D02, _ => s.power.stacksGoing.isNone
  | 0x0D03, d :: _ => !(s.power.changing.any fun c => c.domain == d)
  | _, _ => true

/-- What the Clause still does when its wait ends: UPDATE_CONFIRM writes its record (19 R540). -/
def waitEffect (s : State) (w : Waiting) : State :=
  match w.opcode.toNat, w.args with
  | 0x0C01, slot :: _ => confirmTrial s slot
  | _, _ => s

/-- Its answer: BEAM_DELAY_SWAP names the first row under the new entries (07 R210), the others are DONE. -/
def waitReply (w : Waiting) : Reply :=
  match w.opcode.toNat, w.args with
  | 0x0406, [_, _, row] => .mk' stDeferred 1 row 0 0
  | _, _ => .mk' stDone 0 0 0 0

/-- The COMMIT message whose acknowledgement the completion still waits for (18 R507). -/
def commitPending (s : State) (opcode : Nat) : Option Nat :=
  if reserving s && !readsOnly opcode then
    (s.pair.out.reverse.find? fun m => m.type == 1).map OutMsg.number
  else none

/-- The Clause in its wait phase completes. Nothing happens while Clause service is stopped (17 R488). -/
def waitComplete (s : State) (f : Fn) (qp : Fin 8) : State :=
  match (s.qp f qp.val).waiting with
  | none => s
  | some w =>
    let src : Src := { fn := f, qp := qp, seq := w.seq }
    if !s.err.service || !waitReached s src w then s
    else
      let s1 := waitEffect s w
      let s2 := s1.setQp f qp.val { s1.qp f qp.val with waiting := none }
      let opcode := w.opcode.toNat
      complete s2 src opcode (protectStatus s2 (waitReply w)) (commitPending s2 opcode) true

def execClauseWaitComplete (fn : Fn) (qp : Fin 8) (s : State) : Out := .next (waitComplete s fn qp)

/-! ### DEFERRED_CHANGE_EFFECT (01 R25) -/

/-- The boundary of a deferred change of a product: the new demand replaces the reservation where the boundary has come. -/
def deferredEffect (s : State) (pid : Nat) : State :=
  if s.power.inReset then s
  else
    match s.product pid with
    | none => s
    | some p => if p.kind = .corr then settleCorr s pid else settleProduct s pid

def execDeferredChangeEffect (pid : Nat) (s : State) : Out := .next (deferredEffect s pid)

end Sys2Proof.Machine
end

