-- ==== Sys2Proof/Machine/RegRead.lean ====
section
/-! DEFINITION. The value of every BAR0 register as a function of the state (00 R4 to R9 and the register map of each
chapter). A register is named by its offset within its block; an offset that no register occupies reads as zero (00 R6). -/

namespace Sys2Proof.Machine

/-! ### Register words -/

/-- A field of `w` bits at bit `lo` (00 R7, R9: RSVD bits are zero). -/
def fld (v lo w : Nat) : Nat := v % 2 ^ w * 2 ^ lo

/-- A flag at bit `lo`. -/
def flagAt (b : Bool) (lo : Nat) : Nat := if b then 2 ^ lo else 0

/-- A signed field of `w` bits at bit `lo`. -/
def sfld (v : Int) (lo w : Nat) : Nat := fld (v % (2 ^ w : Nat)).toNat lo w

/-- A signed 32-bit value, saturating. -/
def satS32 (v : Int) : Nat := sfld (max (-2147483648) (min 2147483647 v)) 0 32

/-- An unsigned 32-bit value, saturating. -/
def satU32 (v : Nat) : Nat := min v 4294967295

/-- The halves of a 64-bit value. -/
def lo32 (v : Nat) : Nat := v % 2 ^ 32
def hi32 (v : Nat) : Nat := v / 2 ^ 32 % 2 ^ 32

/-- The word with bit `i` set for each element `i` of a range that satisfies `p`. -/
def bitSet (n : Nat) (p : Nat → Bool) : Nat := (List.range n).foldl (fun m i => m + flagAt (p i) i) 0

/-- A cold standby holds its blocks gated (18 R505). -/
def standbyGated (s : State) : Bool := s.pair.role == .standby || s.pair.stillGated

/-! ### SYS (11 R366, 20 R560) and the MSI-X table (11 R340; PCI layout, log 14) -/

def attnCauseWord (s : State) : Nat := s.link.attnCause.toNat
def attnMaskWord (s : State) : Nat := s.link.attnMask.toNat

def linkStatus (s : State) : Nat :=
  fld s.link.mod0 0 6 + fld s.link.mod1 6 6 + flagAt s.link.f0.bme 12 + flagAt s.link.f1.bme 13

def powerStatus (s : State) : Nat :=
  s.power.domainOn.toNat + fld (bitSet 8 fun d => s.power.changing.any fun c => c.domain == d) 8 8 + fld s.power.vid.toNat 16 6

/-- A word of the MSI-X table. -/
def msixWord (s : State) (f : Fn) (r : Nat) : Nat :=
  let m := s.vec f (r / 16)
  match r % 16 with
  | 0 => lo32 m.addr.toNat
  | 4 => hi32 m.addr.toNat
  | 8 => m.data.toNat
  | _ => b2n m.mask

/-- A word of the pending-bit array. -/
def pbaWord (s : State) (f : Fn) (w : Nat) : Nat := bitSet 32 fun i => (s.vec f (32 * w + i)).pending

def sysRead (s : State) (f : Fn) (r : Nat) : Nat :=
  if r = 0x100 then attnCauseWord s
  else if r = 0x104 then attnMaskWord s
  else if r = 0x108 then linkStatus s
  else if r = 0x110 then powerStatus s
  else if 0x8000 ≤ r ∧ r < 0x8400 then msixWord s f (r - 0x8000)
  else if r = 0x9000 then pbaWord s f 0
  else if r = 0x9004 then pbaWord s f 1
  else 0

/-! ### LANE (02 R67 to R69) -/

def rxCode : RxState → Nat
  | .off => 0
  | .pll => 1
  | .cdr => 2
  | .adapt => 3
  | .search => 4
  | .up => 5
  | .l1 => 6
  | .l2 => 7

def txCode : TxState → Nat
  | .off => 0
  | .pll => 1
  | .active => 2
  | .l1 => 3
  | .l2 => 4

/-- RX_GROUP_SIZE: the size code of a lane's receive group; the mirror lanes form one group of four (02 R51). -/
def rxSizeCode (s : State) (n : Nat) : Nat :=
  if n < 48 then ((groupOfLane s 0 n).map LaneGroup.code).getD 0
  else if (s.lane n).rx = .off then 0 else 2

def laneStatus (s : State) (n : Nat) : Nat :=
  let l := s.lane n
  fld (rxCode l.rx) 0 4 + fld (txCode l.tx) 4 3 + flagAt l.polInv 8 + flagAt l.precode 9 + flagAt l.txPrecode 10 +
    fld (l.member.getD 0) 11 3 + fld (rxSizeCode s n) 14 2 + flagAt l.peerSleep 16 + flagAt (l.degWindow || l.degLoss) 17 +
    flagAt l.stale 18 + fld (worldBit (vget s.world.laneRx n .secure)) 19 1 + fld (worldBit (vget s.world.laneTx n .secure)) 20 1

def laneRead (s : State) (r : Nat) : Nat :=
  if r < 0x3400 then
    let n := r / 0x100
    let l := s.lane n
    match r % 0x100 with
    | 0x00 => laneStatus s n
    | 0x04 => l.cwCorr.toNat
    | 0x08 => l.cwUncorr.toNat
    | 0x0C => l.symCorr.toNat
    | 0x10 => fld l.peak 0 4
    | 0x14 => l.crcErr.toNat
    | 0x18 => l.markerMiss.toNat
    | 0x1C => l.lockLoss.toNat
    | 0x20 => l.hdrMismatch.toNat
    | 0x24 => l.rxFrames.toNat
    | 0x28 => l.txFrames.toNat
    | 0x2C => l.threshold.toNat
    | _ => 0
  else
    match r with
    | 0x8000 => bitSet 32 fun i => (s.lane i).rx == .up
    | 0x8004 => bitSet 20 fun i => (s.lane (32 + i)).rx == .up
    | 0x8008 => bitSet 32 fun i => (s.lane i).tx == .active
    | 0x800C => bitSet 20 fun i => (s.lane (32 + i)).tx == .active
    | _ => 0

/-! ### INTAKE (03 R101) -/

def streamCode : StreamState → Nat
  | .undefined => 0
  | .waiting => 1
  | .up => 2
  | .down => 3

def streamStatus (s : State) (n : Nat) : Nat :=
  let x := s.stream n
  match x.entry with
  | none => 0
  | some d =>
    streamCode x.state + fld (worldBit d.world) 2 1 + flagAt d.shared 3 + flagAt d.c8 4 + flagAt (requantized s d) 5 +
      flagAt (s.trims.levels.any fun l => l.stream == n && l.start.isSome) 6 + flagAt x.sourceFault 7 + fld d.first 8 6 +
      fld (((findGroup s 0 d.first).map LaneGroup.code).getD 0) 14 2

def intakeStatus (s : State) : Nat :=
  flagAt s.intake.epochSet 0 + flagAt (s.intake.frontTime.any fun t => s.now < t + 64 * micros) 1 + flagAt s.intake.overrun 2 +
    flagAt s.intake.started 3

def intakeRead (s : State) (r : Nat) : Nat :=
  if r < 0x8000 then
    let n := r / 0x20
    let x := s.stream n
    match r % 0x20 with
    | 0x00 => streamStatus s n
    | 0x04 => x.late.toNat
    | 0x08 => x.missing.toNat
    | 0x0C => x.flagged.toNat
    | 0x10 => x.counterErr.toNat
    | 0x14 => x.overload.toNat
    | 0x18 => lo32 x.lastCounter.toNat
    | _ => hi32 x.lastCounter.toNat
  else
    match r with
    | 0x8000 => intakeStatus s
    | 0x8004 => fld s.intake.skew 0 15
    | 0x8008 => fld s.intake.asmPeak 0 24
    | 0x800C => lo32 s.intake.front
    | 0x8010 => hi32 s.intake.front
    | 0x8014 => s.intake.overrunCount.toNat
    | 0x8018 => s.intake.epochDev.toNat
    | 0x801C => fld (gainsUsed s fun _ => true) 0 21
    | _ => 0

/-! ### RELIEF (04 R137) and repair (06 R197) -/

/-- A product takes part in the work of its block: it is defined and not suspended. -/
def takesPart (s : State) (pid : Nat) : Bool := (s.product pid).any fun p => !p.suspended

/-- The correlation products in the plan (04 R127). -/
def planned (s : State) : List Corr := s.corrs.filter fun c => takesPart s c.pid

/-- GRID_STATE. -/
def gridState (s : State) : Nat :=
  if standbyGated s then 3
  else if s.relief.acc.any fun r => r.kind != .first then 2
  else if (planned s).isEmpty then 0 else 1

def reliefStatus (s : State) : Nat :=
  let acc := s.relief.acc
  gridState s + fld ((acc.map Run.mode).getD 3) 2 2 +
    fld (((acc.map fun r => worldBit (s.worldOfProduct r.tile.pid))).getD 0) 4 1 + flagAt s.relief.stageStall.isSome 5 +
    flagAt (drainBlocked s) 6 + fld ((acc.map fun r => r.tile.pid).getD 0) 8 12

/-- An admitted demand in units of 1/65,536 of a limit, truncated, at most 65,536. -/
def utilOf (s : State) (term : Demand → Rat) (limit : Nat) : Nat :=
  min 65536 (total (productsIn s none) term * 65536 / (limit : Rat)).floor.toNat

def slotUsed (s : State) (n : Nat) : Bool := (vget s.relief.slots n none).isSome

def slotWorld (s : State) (n : Nat) : Nat :=
  ((vget s.relief.slots n none).map fun x => worldBit (s.worldOfProduct x.run.tile.pid)).getD 0

def ctxStatus (s : State) : Nat :=
  flagAt (slotUsed s 0) 0 + flagAt (slotUsed s 1) 1 + fld (slotWorld s 0) 2 1 + fld (slotWorld s 1) 3 1 +
    fld (min 15 (s.relief.incidents.countP fun x => !x.working)) 4 4

def repairStatus (s : State) : Nat :=
  fld s.relief.incidents.length 0 5 + fld s.relief.fences.length 5 3 + fld s.relief.drops.length 8 9 +
    flagAt (decide (2 ≤ s.relief.incidents.countP fun x => x.held.isSome)) 17 + flagAt (!s.relief.injects.isEmpty) 18

def rowRepair (s : State) (r : Nat) : Nat :=
  match vget s.relief.bypass r none with
  | some p => fld p 0 6 + flagAt true 6
  | none => 0

def reliefRead (s : State) (r : Nat) : Nat :=
  if 0x140 ≤ r ∧ r < 0x1C0 then rowRepair s ((r - 0x140) / 4)
  else if 0x1C0 ≤ r ∧ r < 0x1D0 then fenceWord s ((r - 0x1C0) / 4)
  else
    let x := s.relief
    match r with
    | 0x000 => reliefStatus s
    | 0x004 => x.planGen.toNat + fld (planned s).length 16 9
    | 0x008 => ctxStatus s
    | 0x00C => utilOf s Demand.relief 1600000000
    | 0x010 => lo32 x.busyCycles.toNat
    | 0x014 => hi32 x.busyCycles.toNat
    | 0x018 => x.stallStage.toNat
    | 0x01C => x.stallDrain.toNat
    | 0x020 => x.preempts.toNat
    | 0x024 => x.tileDwells.toNat
    | 0x028 => fld x.stagePeak 0 7
    | 0x100 => repairStatus s
    | 0x104 => x.mismatches.toNat
    | 0x108 => x.retriesOk.toNat
    | 0x10C => x.sparesTaken.toNat
    | 0x110 => x.tileDrops.toNat
    | 0x114 => x.selfCheckFails.toNat
    | 0x118 => localisedWord x.localised
    | _ => 0

/-! ### ISTORE (05 R173) -/

def istoreRead (s : State) (r : Nat) : Nat :=
  let x := s.istore
  match r with
  | 0x000 => flagAt (s.corrs.any fun c => c.snap.isSome) 0 + flagAt x.emitStall.isSome 1 + flagAt x.poisonSeen 2
  | 0x004 => lo32 x.spills.toNat
  | 0x008 => hi32 x.spills.toNat
  | 0x00C => x.closes.toNat
  | 0x010 => x.visRecords.toNat
  | 0x014 => x.emitStallCycles.toNat
  | 0x018 => x.poisonElements.toNat
  | 0x01C => x.gapRecords.toNat
  | 0x020 => fld x.snapProduct 0 12 + flagAt (x.snapBoundary.any fun b => s.intake.front < b) 12 +
      flagAt (x.snapBoundary.any fun b => b ≤ s.intake.front) 13 + fld x.snapLeft 16 11
  | _ => 0

/-! ### FRIEZE (07 R231) -/

def friezeStatus (s : State) : Nat :=
  let x := s.frieze
  let st := if standbyGated s then 3 else if x.prods.any fun p => takesPart s p.pid then 1 else 0
  st + flagAt x.single 2 + flagAt (x.bankB && !x.single) 3 + flagAt x.switch.isSome 4 + flagAt x.swap.isSome 5 +
    flagAt x.expired 6 + flagAt x.residueSeen 7 + fld (sumNat (x.prods.map FzProd.beams)) 8 9 + fld (importCount s) 17 4

def friezeRead (s : State) (r : Nat) : Nat :=
  let x := s.frieze
  if 0x040 ≤ r ∧ r < 0x080 then (vget x.sliceResidue ((r - 0x040) / 4) 0).toNat
  else
    match r with
    | 0x000 => friezeStatus s
    | 0x004 => fld (16 * (pagesUsed s).length) 0 22
    | 0x008 => utilOf s Demand.frieze 81920000000000
    | 0x00C => lo32 x.switchCtr.toNat
    | 0x010 => hi32 x.switchCtr.toNat
    | 0x014 => x.weightSat.toNat
    | 0x018 => x.requantSat.toNat
    | 0x01C => x.residueFail.toNat
    | 0x020 => x.importLate.toNat
    | 0x024 => x.importMismatch.toNat
    | 0x028 => x.delayEcc.toNat
    | 0x02C => x.beamRecords.toNat
    | _ => 0

/-! ### CHISEL (08 R270) -/

/-- CHAIN_STATUS.STATE. -/
def chainCode (s : State) (c : Chain) : Nat :=
  match c.state with
  | .undefined => 0
  | .run => if standbyGated s then 3 else 1
  | .suspended => if standbyGated s then 3 else 2

def detCode (c : Chain) : Nat :=
  if c.state = .undefined then 0
  else if c.event = none then 3
  else
    match c.det.det with
    | .off => 0
    | .learn => 1
    | .on => 2

def chainStatus (s : State) (n : Nat) : Nat :=
  let c := s.chain n
  chainCode s c + fld (worldBit (vget s.world.chains n .secure)) 2 1 + fld (detCode c) 3 3 +
    flagAt (c.det.frozenOn || c.det.stuck) 6 + flagAt c.det.stuck 7 + flagAt c.active 8 + flagAt c.switch.isSome 9 +
    flagAt c.opened.isSome 10 + fld ([0, 1].countP fun k => !capSlotFree s c k) 11 2 + flagAt c.det.held 13


def chiselRead (s : State) (r : Nat) : Nat :=
  if r < 0x1000 then
    let n := r / 0x40
    let c := s.chain n
    match r % 0x40 with
    | 0x00 => chainStatus s n
    | 0x04 => c.satSamples.toNat
    | 0x08 => c.taintSamples.toNat
    | 0x0C => c.events.toNat
    | 0x10 => c.eventsDropped.toNat
    | 0x14 => c.captures.toNat
    | 0x18 => c.captureMissed.toNat
    | 0x1C => c.residueFail.toNat
    | 0x20 => lo32 c.det.floor
    | 0x24 => hi32 c.det.floor
    | 0x28 => if c.state = .undefined then 0 else chainLatency c
    | 0x2C => c.toLate.toNat
    | 0x30 => c.flickerCrossings.toNat
    | _ => 0
  else if r = 0x8000 then
    fld (s.chisel.chains.toList.countP fun c => c.state != .undefined) 0 7 + flagAt s.chisel.rateLimited 7 +
      flagAt s.chisel.residueSeen 8 + fld (min 7 (s.chisel.protos.toList.countP Option.isSome)) 9 3
  else 0

/-! ### GLOSS (09 R303) -/

/-- CORE_STATUS.STATE. -/
def coreCode (s : State) (c : Core) : Nat :=
  if c.state = .empty then 0
  else if standbyGated s then 5
  else
    match c.state with
    | .empty => 0
    | .loaded => 1
    | .running => 2
    | .halted => 3
    | .faulted => 4

def coreStatus (s : State) (n : Nat) : Nat :=
  let c := s.core n
  coreCode s c + fld (worldBit (vget s.world.cores n .secure)) 3 1 + flagAt (c.attach.any fun a => a.source.isSome) 4 +
    flagAt c.waiting.isSome 5 + flagAt c.opened.isSome 6 + flagAt c.emAv 7 + flagAt c.emSat 8 + fld c.loops.length 9 3 +
    fld c.calls.length 12 4

/-- A function sees the bit of a core in CORE_RUN and CORE_FAULT. -/
def coreSeen (s : State) (f : Fn) (n : Nat) : Bool := f == .f0 || vget s.world.cores n .secure == .nonsecure

def glossRead (s : State) (f : Fn) (r : Nat) : Nat :=
  if r < 0x1000 then
    let n := r / 0x80
    let c := s.core n
    match r % 0x80 with
    | 0x00 => coreStatus s n
    | 0x04 => c.pc.toNat
    | 0x08 => lo32 (c.cycles.toNat + waited s c)
    | 0x0C => hi32 (c.cycles.toNat + waited s c)
    | 0x10 => (c.stalls.toNat + waited s c) % 2 ^ 32
    | 0x14 => c.feedFrames.toNat
    | 0x18 => c.feedDeclined.toNat
    | 0x1C => c.derivedRecords.toNat
    | 0x20 => c.eccCorr.toNat
    | 0x24 => c.portCollide.toNat
    | 0x28 => c.evt.toNat
    | 0x2C => fld c.lastTrap.pc 0 14 + fld c.lastTrap.cause 16 4
    | _ => 0
  else
    match r with
    | 0x8000 => bitSet 32 fun n => (s.core n).state == .running && coreSeen s f n && !standbyGated s
    | 0x8004 => bitSet 32 fun n => (s.core n).state == .faulted && coreSeen s f n && !standbyGated s
    | _ => 0

/-! ### MEMC (10 R335) -/

def memcStatus (s : State) : Nat :=
  let h := s.hbm
  flagAt h.ready 0 + flagAt h.filled 1 + flagAt h.ratePending.isSome 2 +
    flagAt (!h.serving.isEmpty && h.serving.all fun n => (s.stack n).state == .selfRefresh) 3 + flagAt h.poisonSeen 4 +
    fld (bitSet 6 fun n => h.serving.contains n) 5 6

def trainCode : TrainStep → Nat
  | .idle => 0
  | .readEye => 1
  | .writeEye => 2
  | .boot => 3

def stackCode : StackState → Nat
  | .off => 0
  | .active => 1
  | .selfRefresh => 2
  | .training => 3

def stackStatus (x : Stack) : Nat :=
  stackCode x.state + flagAt x.hot 2 + flagAt x.rfm 3 + fld x.nSid 4 3 + flagAt x.dense 7 + fld x.temp 8 8 +
    fld x.lanesRepaired 16 4

def memcRead (s : State) (r : Nat) : Nat :=
  let h := s.hbm
  if 0x100 ≤ r ∧ r < 0x1C0 then
    let x := s.stack ((r - 0x100) / 0x20)
    match r % 0x20 with
    | 0x00 => stackStatus x
    | 0x04 => x.pageHits.toNat
    | 0x08 => x.pageConflicts.toNat
    | 0x0C => x.odecc.toNat
    | 0x10 => x.parity.toNat
    | 0x14 => fld x.debtPeak 0 5
    | _ => 0
  else
    match r with
    | 0x000 => memcStatus s
    | 0x004 => fld h.rate 0 14
    | 0x008 => fld h.capacity 0 18
    | 0x00C => trainCode h.step + flagAt h.marginLow 2 + flagAt h.discarded 3 + fld h.retrains.toNat 16 16
    | 0x010 => h.eccCorr.toNat
    | 0x014 => h.eccRetryOk.toNat
    | 0x018 => h.eccUncorr.toNat
    | 0x01C => h.poisonReads.toNat
    | 0x020 => h.inorder.toNat
    | 0x024 => h.neighbour.toNat
    | 0x028 => h.forced.toNat
    | 0x02C => lo32 h.lastUncorr
    | 0x030 => fld (hi32 h.lastUncorr) 0 8
    | 0x034 => h.rateChanges.toNat
    | _ => 0

/-! ### QUEUE (11 R366) -/

def qpCode : QpState → Nat
  | .disabled => 0
  | .running => 1
  | .halted => 2
  | .draining => 3

def qpCtrl (q : Qp) : Nat := flagAt q.enable 0 + fld q.sqLog2.toNat 1 4 + fld q.cqLog2.toNat 5 4 + flagAt q.irqEn 9

/-- The CQ has no room for two entries besides those written and those owed. -/
def cqFull (q : Qp) : Bool := decide (cqUsed q + q.owed.length + 2 > 2 * sqDepth q)

def qpStatus (s : State) (f : Fn) (i : Nat) : Nat :=
  let q := s.qp f i
  qpCode q.state + flagAt q.tailErr 2 + flagAt q.waiting.isSome 3 + flagAt (cqFull q) 4 +
    flagAt (!s.reach f && q.state != .disabled) 5 + flagAt q.cfgErr 6 + flagAt q.headErr 7 + fld q.sqHead.toNat 16 16

def ringCode : RingState → Nat
  | .undefined => 0
  | .active => 1
  | .suspended => 2

def queueRead (s : State) (f : Fn) (r : Nat) : Nat :=
  if r < 0x800 then
    let q := s.qp f (r / 0x100)
    match r % 0x100 with
    | 0x00 => lo32 q.sqBase.toNat
    | 0x04 => hi32 q.sqBase.toNat
    | 0x08 => lo32 q.cqBase.toNat
    | 0x0C => hi32 q.cqBase.toNat
    | 0x10 => qpCtrl q
    | 0x14 => qpStatus s f (r / 0x100)
    | 0x18 => q.sqTail.toNat
    | 0x1C => q.cqHead.toNat
    | 0x20 => q.expectSeq.toNat
    | 0x24 => q.rereads.toNat
    | _ => 0
  else if 0x1000 ≤ r ∧ r < 0x1400 then
    let x := s.ring f ((r - 0x1000) / 0x10)
    match r % 0x10 with
    | 0x0 => x.headLo.toNat
    | 0x4 => hi32 x.head
    | 0x8 => ringCode x.state + flagAt (!x.declines.isEmpty) 2 + flagAt x.declining 3
    | _ => x.declined.toNat
  else 0

/-! ### DMA (12 R386) -/

/-- The offsets that a channel's registers occupy. -/
def chanRegs : List Nat :=
  [0x00, 0x04, 0x08, 0x0C, 0x10, 0x14, 0x18, 0x20, 0x24, 0x28, 0x30, 0x34, 0x38, 0x3C, 0x40, 0x44, 0x48]

def dmaRead (s : State) (r : Nat) : Nat := if r < 0x1200 then chanRead s (r / 0x80) (r % 0x80) else 0

/-! ### TIME (13 R413) -/

def servoCode : Servo → Nat
  | .free => 0
  | .acquire => 1
  | .locked => 2
  | .holdover => 3
  | .refused => 4

def timeStatus (s : State) : Nat :=
  let x := s.net
  servoCode x.servo + flagAt x.valid 3 + flagAt x.ptpOn 4 + fld ((x.master.map Announce.port).getD 0) 5 1 +
    flagAt x.twoStep 6 + flagAt (refPtpSelected s) 7 + fld x.stepGen.toNat 8 4

def portStatus (s : State) (p : Nat) : Nat :=
  let x := s.tport p
  flagAt x.link 0 + flagAt x.enabled 1 + flagAt x.udp 2 + flagAt x.forward 3 +
    flagAt (s.net.master.any fun m => m.port == p) 4 + fld x.domain 8 7

def portRead (s : State) (p reg : Nat) : Nat :=
  let x := s.tport p
  match reg with
  | 0x00 => portStatus s p
  | 0x04 => x.rxSync.toNat
  | 0x08 => x.rxAnnounce.toNat
  | 0x0C => x.txDelayReq.toNat
  | 0x10 => x.rxDelayResp.toNat
  | 0x14 => x.tcFwd.toNat
  | 0x18 => x.tcDrop.toNat
  | 0x1C => x.rxDiscard.toNat
  | 0x20 => fld x.resPeak 0 16
  | _ => 0

def outRead (s : State) (n reg : Nat) : Nat :=
  let x := vget s.net.outs n Reset.timeOut
  match reg with
  | 0x00 => fld x.mode 0 2 + flagAt (x.highUntil.any fun t => s.now < t) 2 +
      fld (worldBit (vget s.world.pins n .secure)) 3 1 + fld x.queue.length 4 5 + flagAt (pinNamed s n) 9
  | 0x04 => x.pulses.toNat
  | 0x08 => x.late.toNat
  | 0x0C => x.conflict.toNat
  | 0x10 => x.drop.toNat
  | _ => 0

def tinRead (s : State) (f : Fn) (n reg : Nat) : Nat :=
  let x := s.tin f n
  let t := x.latched.toNat
  match reg with
  | 0x00 => (tinPop s f n).2
  | 0x04 => bits t 16 32
  | 0x08 => bits t 48 32
  | 0x0C => bits t 80 16
  | 0x10 => fld x.fifo.length 0 7 + flagAt x.enabled 7 + fld x.edges 8 2
  | 0x14 => x.glitch.toNat
  | 0x18 => x.rateDrop.toNat
  | 0x1C => x.overflow.toNat
  | _ => 0

/-- The Plinth as NOW_NS and NOW_SEC show it to a function: as latched, else now (13 R390). -/
def nowSeen (s : State) (f : Fn) : Nat :=
  match f with
  | .f0 => (s.plinth.latch0.getD (timeField s.now)).toNat
  | .f1 => (s.plinth.latch1.getD (timeField s.now)).toNat

def refusedWord (s : State) : Nat := (s.net.refusedOfs % (2 ^ 64 : Nat)).toNat

def masterWord (s : State) : Nat := (s.net.master.map fun m => m.identity.toNat).getD 0

def timeRead (s : State) (f : Fn) (r : Nat) : Nat :=
  if 0x100 ≤ r ∧ r < 0x180 then portRead s ((r - 0x100) / 0x40) (r % 0x40)
  else if 0x200 ≤ r ∧ r < 0x280 then outRead s ((r - 0x200) / 0x20) (r % 0x20)
  else if 0x300 ≤ r ∧ r < 0x380 then tinRead s f ((r - 0x300) / 0x20) (r % 0x20)
  else
    match r with
    | 0x000 => timeStatus s
    | 0x004 => (nowFrac s f).2
    | 0x008 => bits (nowSeen s f) 16 32
    | 0x00C => bits (nowSeen s f) 48 32
    | 0x010 => bits (nowSeen s f) 80 16
    | 0x014 => satS32 s.net.offset
    | 0x018 => fld (s.net.meanPath.getD 0 / 65536) 0 32
    | 0x01C => sfld s.net.freqAdj 0 32
    | 0x020 => s.net.refusedId.toNat
    | 0x024 => lo32 (refusedWord s)
    | 0x028 => hi32 (refusedWord s)
    | 0x02C => lo32 (masterWord s)
    | 0x030 => hi32 (masterWord s)
    | 0x034 => s.net.steps.toNat
    | _ => 0

/-! ### CLOCK (14 R434) -/

def dpllCode : Dpll → Nat
  | .freerun => 0
  | .acquire => 1
  | .locked => 2
  | .holdover => 3

def clockStatus (s : State) : Nat :=
  let x := s.clock
  dpllCode x.state + fld (x.selected.getD 7) 2 3 + flagAt x.manual 5 + fld x.manualRef 6 3 + flagAt x.pull.isSome 9 +
    flagAt x.clamped 10 + flagAt (!(liveDisagree s).isEmpty) 11 + flagAt x.histValid 12 + fld (codeUsed s) 13 4 +
    flagAt x.xoOk 17

def refStatus (s : State) (n : Nat) : Nat :=
  let x := s.ref n
  fld x.rank 0 4 + flagAt x.active 4 + flagAt x.qualified 5 + flagAt x.warn 6 + flagAt x.beyond 7 +
    flagAt x.requalFor.isSome 8 + flagAt (s.clock.selected == some n) 9

def clockRead (s : State) (r : Nat) : Nat :=
  if 0x100 ≤ r ∧ r < 0x1A0 then
    let n := (r - 0x100) / 0x20
    let x := s.ref n
    match r % 0x20 with
    | 0x00 => refStatus s n
    | 0x04 => satS32 x.reading
    | 0x08 => x.actFails.toNat
    | 0x0C => x.disquals.toNat
    | 0x10 => x.warns.toNat
    | _ => 0
  else
    match r with
    | 0x000 => clockStatus s
    | 0x004 => sfld s.clock.freq 0 32
    | 0x008 => sfld (holdoverAvg s) 0 32
    | 0x00C => satS32 s.clock.phaseErr
    | 0x010 => satS32 (pullNs s)
    | 0x014 => s.clock.switches.toNat
    | 0x018 => satU32 ((noteFollowed s).clock.lockedTime / second)
    | _ => 0

/-! ### TRIM (15 R453) -/

def trimStatus (s : State) : Nat :=
  let x := s.trims
  let late : Bool := decide (x.gridDue + 10 * second ≤ s.now)
  flagAt (x.lanes.toList.any fun l => l.run.isSome) 0 +
    flagAt ((x.levels.any fun l => l.boundary.isNone) || !x.chainLevels.isEmpty) 1 + flagAt x.gridTest.isSome 2 +
    flagAt (x.gridTest.isSome && late) 3 + flagAt x.restoring.isSome 4

def laneTrimRead (s : State) (n reg : Nat) : Nat :=
  let t := s.laneTrim n
  let k := laneCode t
  match reg with
  | 0x0 => sfld (k 0) 0 4 + sfld (k 1) 4 6 + sfld (k 2) 10 6 + sfld (k 3) 16 6
  | 0x4 => sfld (k 4) 0 7 + sfld (k 5) 7 7 + sfld (k 6) 14 7 + sfld (k 7) 21 7
  | 0x8 => sfld (k 8) 0 8 + sfld (k 9) 8 8 + sfld (k 10) 16 8
  | _ => sfld t.refTemp 0 16 + flagAt (t.run.any TrimRun.trial) 16 + fld ((t.run.map TrimRun.index).getD t.index) 17 4 +
      flagAt t.valid 21

def trimRead (s : State) (r : Nat) : Nat :=
  let x := s.trims
  if 0x100 ≤ r ∧ r < 0x440 then laneTrimRead s ((r - 0x100) / 0x10) (r % 0x10)
  else
    match r with
    | 0x000 => trimStatus s
    | 0x004 => sfld x.dieTemp 0 16
    | 0x008 => sfld x.levelRef 0 16
    | 0x00C => sfld x.cellRef 0 16
    | 0x010 => fld x.laneStep 0 32
    | 0x014 => fld x.levelStep 0 32
    | 0x018 => fld x.cellStep 0 32
    | 0x01C => x.laneRuns.toNat
    | 0x020 => x.levelRuns.toNat
    | 0x024 => x.cellRuns.toNat
    | 0x028 => x.laneReverts.toNat
    | 0x02C => x.levelSkipped.toNat
    | 0x030 => x.spareBad.toNat
    | _ => 0

/-! ### WORLD (16 R470) and ERR (17 R494) -/

def regionRead (x : Region) (reg : Nat) : Nat :=
  match reg with
  | 0x0 => flagAt x.valid 0 + fld (worldBit x.world) 1 1 + fld x.map.toNat 2 3
  | 0x4 => fld x.base 0 18
  | 0x8 => fld x.size 0 18
  | _ => 0

/-- QUOTA and USE of an item: bytes and counts as they are, rates rounded up. -/
def quotaRead (s : State) (q reg : Nat) : Nat :=
  let use := (usage s q).ceil.toNat
  match reg with
  | 0x0 => lo32 (quotaOf s q)
  | 0x4 => hi32 (quotaOf s q)
  | 0x8 => lo32 use
  | _ => hi32 use

def worldRead (s : State) (r : Nat) : Nat :=
  if r = 0 then
    fld (s.world.regions.toList.countP Region.valid) 0 7 + flagAt s.world.fill.isSome 7 + fld s.world.cuts.length 8 5
  else if 0x100 ≤ r ∧ r < 0x500 then regionRead (vget s.world.regions ((r - 0x100) / 0x10) Reset.region) (r % 0x10)
  else if 0x610 ≤ r ∧ r < 0x730 then quotaRead s ((r - 0x600) / 0x10) (r % 0x10)
  else 0

def seqCode : SeqState → Nat
  | .normal => 0
  | .restart => 1
  | .secondRestart => 2
  | .failed => 3

def errStatus (s : State) (f : Fn) : Nat :=
  fld (countedIncidents s).length 0 5 + fld (seqCode s.err.seqState) 5 2 + flagAt s.err.fault 7 + flagAt s.err.service 8 +
    flagAt (s.log f).headErr 9

/-- An incident that a function sees: not F1 one of the secure world. -/
def incidentSeen (s : State) (f : Fn) (n : Nat) : Option Incident :=
  match (countedIncidents s)[n]? with
  | some i => if f = .f0 ∨ i.world = .nonsecure ∨ i.device then some i else none
  | none => none

def incidentWord (i : Incident) : Nat :=
  i.id.toNat + fld (clsCode i.cls) 16 2 + flagAt true 18 + fld (worldBit i.world) 19 1 + flagAt i.device 20

/-- A word of the log window: the entry of the reading function's own log. -/
def logWord (s : State) (f : Fn) (r : Nat) : Nat :=
  match tabGet (r / 0x20) (s.log f).entries with
  | some e => field (errBytes e) (r % 0x20) 4
  | none => 0

def errRead (s : State) (f : Fn) (r : Nat) : Nat :=
  let l := s.log f
  if 0x8000 ≤ r then logWord s f (r - 0x8000)
  else if 0x840 ≤ r ∧ r < 0x880 then ((incidentSeen s f ((r - 0x840) / 4)).map incidentWord).getD 0
  else if 0x880 ≤ r ∧ r < 0x8C0 then ((incidentSeen s f ((r - 0x880) / 4)).map fun i => i.cause.toNat).getD 0
  else
    match r with
    | 0x800 => errStatus s f
    | 0x804 => l.tail.toNat
    | 0x808 => l.head.toNat
    | 0x80C => l.lost.toNat
    | 0x810 => s.err.lastFaultCause.toNat + fld s.err.lastFaultId.toNat 16 16
    | 0x814 => s.err.armRestarts.toNat
    | 0x818 => s.err.seqOutvotes.toNat
    | _ => 0

/-! ### PAIR (18 R523) -/

/-- PAIR_STATUS.ROLE. -/
def roleField : Role → Nat
  | .disabled => 0
  | .forming => 1
  | .active => 2
  | .standby => 3
  | .faulted => 4

/-- A resynchronisation is running. -/
def resyncRuns (s : State) : Bool := s.pair.resync.any fun x => decide (x.phase < 3)

def pairStatus (s : State) : Nat :=
  let x := s.pair
  roleField x.role + flagAt x.synced 3 + flagAt x.guarded 4 + flagAt x.mirrorOk 5 + flagAt x.aliveOk 6 +
    flagAt x.peerFault 7 + flagAt x.rank 8 + flagAt x.swap.isSome 9 + flagAt (resyncRuns s) 10 + flagAt x.split 11 +
    fld x.mismatch 12 3

def pairRead (s : State) (r : Nat) : Nat :=
  let x := s.pair
  match r with
  | 0x000 => pairStatus s
  | 0x004 => x.peerSerial.toNat
  | 0x008 => x.retx.toNat
  | 0x00C => x.mirrorLosses.toNat
  | 0x010 => x.aliveLosses.toNat
  | 0x014 => x.takeovers.toNat
  | 0x018 => x.resyncs.toNat
  | 0x01C => x.reserveStall.toNat
  | 0x020 => if resyncRuns s then fld (ceilDiv x.txBytes.length 1048576) 0 24 else 0
  | 0x024 => x.commitCount.toNat
  | _ => 0

/-! ### BOOT (19 R546) -/

def bootRead (s : State) (r : Nat) : Nat :=
  let x := s.boot
  match r with
  | 0x000 => bootStatus s
  | 0x004 => fld (Machine.runVersion s) 0 32
  | 0x008 => fld (otherVersion s) 0 32
  | 0x00C => fld x.maqFormat 0 16 + fld x.setFormat 16 16
  | 0x010 => fld (recordSeq s) 0 32
  | 0x014 => x.boots.toNat
  | 0x018 => x.svcCmds.toNat
  | 0x01C => x.svcCrcErr.toNat
  | 0x020 => x.svcDropped.toNat
  | 0x024 => lo32 Config.serial.toNat
  | 0x028 => hi32 Config.serial.toNat
  | _ => 0

/-! ### BAR0 (00 R6) -/

/-- The register at a BAR0 offset as function `f` sees it, /S fields included. -/
def regValue (s : State) (f : Fn) (off : Nat) : Nat :=
  let r := off % 0x10000
  match off / 0x10000 with
  | 0x0 => sysRead s f r
  | 0x1 => laneRead s r
  | 0x2 => intakeRead s r
  | 0x3 => reliefRead s r
  | 0x4 => istoreRead s r
  | 0x5 => friezeRead s r
  | 0x6 => chiselRead s r
  | 0x7 => glossRead s f r
  | 0x8 => memcRead s r
  | 0x9 => queueRead s f r
  | 0xA => dmaRead s r
  | 0xB => timeRead s f r
  | 0xC => clockRead s r
  | 0xD => trimRead s r
  | 0xE => if r < 0x800 then worldRead s r else errRead s f r
  | 0xF => pairRead s r
  | 0x10 => bootRead s r
  | _ => 0

end Sys2Proof.Machine
end

