-- ==== Sys2Proof/Machine/Regs.lean ====
section
/-! DEFINITION. Accesses to BAR0: alignment (00 R5), unoccupied offsets (R6), field types (R7), secure-only fields and sets
(R8, 03 R101), fields cleared by a read (R10), latched HI words (04 R137) and what a write does. -/

namespace Sys2Proof.Machine

/-! ### What a function may see (00 R8, 03 R101) -/

/-- The registers in which every field other than RSVD is /S. -/
def secureRegs : List Nat := [0x100, 0x104, 0x28008, 0x30028, 0x40018, 0x40020, 0x8002C, 0x80030]

/-- The /S bits of the registers that also hold fields without /S. -/
def mixedBits (off : Nat) : Nat :=
  match off with
  | 0x28000 => 0x4
  | 0x30000 => 0xFFF00
  | 0x40000 => 0x4
  | 0x50000 => 0xC0
  | 0x68000 => 0x180
  | 0x80000 => 0x10
  | 0x8000C => 0xC
  | _ => 0

/-- A register of the set of a secure object: an unshared secure stream, a secure chain, core, DMA channel or TIME_OUT pin. -/
def secureSet (s : State) (off : Nat) : Bool :=
  let r := off % 0x10000
  match off / 0x10000 with
  | 0x2 => decide (r < 0x8000) && (s.stream (r / 0x20)).entry.any fun d => d.world == .secure && !d.shared
  | 0x6 => decide (r < 0x1000) && decide (r % 0x40 ≤ 0x30) && vget s.world.chains (r / 0x40) .secure == .secure
  | 0x7 => decide (r < 0x1000) && decide (r % 0x80 ≤ 0x2C) && vget s.world.cores (r / 0x80) .secure == .secure
  | 0xA => decide (r < 0x1200) && chanRegs.contains (r % 0x80) && !chanVisible s .f1 (r / 0x80)
  | 0xB => decide (0x200 ≤ r) && decide (r < 0x280) && decide (r % 0x20 ≤ 0x10) &&
      vget s.world.pins ((r - 0x200) / 0x20) .secure == .secure
  | _ => false

/-- F1 reads zero there and writes nothing, and the access raises a record. -/
def denied (s : State) (f : Fn) (off : Nat) : Bool := f == .f1 && (secureRegs.contains off || secureSet s off)

/-- The bits of `m` cleared in `v`. -/
def withoutBits (v m : Nat) : Nat := v - Nat.land v m

/-! ### Latched HI words (04 R137, 05 R173, 08 R270, 09 R303, 10 R335, 13 R413, 16 R470) -/

/-- The HI word that a read of this LO word latches. -/
def hiOf (off : Nat) : Option Nat :=
  let r := off % 0x10000
  if off = 0x30010 ∨ off = 0x40004 ∨ off = 0x8002C ∨ off = 0xB0024 ∨ off = 0xB002C then some (off + 4)
  else if off / 0x10000 = 0x6 ∧ r < 0x1000 ∧ r % 0x40 = 0x20 then some (off + 4)
  else if off / 0x10000 = 0x7 ∧ r < 0x1000 ∧ r % 0x80 = 0x08 then some (off + 4)
  else if off / 0x10000 = 0xE ∧ 0x610 ≤ r ∧ r < 0x730 ∧ r % 8 = 0 then some (off + 4)
  else none

/-- The key of a function's latch. -/
def latchKey (f : Fn) (hi : Nat) : Nat := fnNum f * 2 ^ 24 + hi

/-- A read of a LO word latches its HI word; a read of a HI word ends its latch. -/
def latchEffect (s : State) (f : Fn) (off : Nat) : State :=
  match hiOf off with
  | some hi => { s with latches := tabSet (latchKey f hi) (BitVec.ofNat 32 (regValue s f hi)) s.latches }
  | none => { s with latches := tabDel (latchKey f off) s.latches }

/-- The value of a register, or of its latch. -/
def latchedValue (s : State) (f : Fn) (off : Nat) : Nat :=
  match tabGet (latchKey f off) s.latches with
  | some v => v.toNat
  | none => regValue s f off

/-! ### Reads -/

/-- What a read changes at the register itself: RC fields are cleared, the events of the same cycle being counted into the
cleared field (00 R7, R10); TIN_POP and NOW_FRAC latch (13 R390, R410); NOW_SEC_HI ends the latch of the Plinth; the free
value of CHAIN_LATENCY is used up. -/
def readEffect (s : State) (f : Fn) (off during : Nat) : State :=
  let r := off % 0x10000
  if off = 0x28008 then { s with intake := { s.intake with asmPeak := during % 2 ^ 24 } }
  else if off = 0x30028 then s.setRelief { s.relief with stagePeak := during % 2 ^ 7 }
  else if 0x80100 ≤ off ∧ off < 0x801C0 ∧ off % 0x20 = 0x14 then
    let n := (off - 0x80100) / 0x20
    s.setStack n { s.stack n with debtPeak := during % 2 ^ 5 }
  else if off = 0xB0120 ∨ off = 0xB0160 then
    let p := (off - 0xB0120) / 0x40
    s.setTport p { s.tport p with resPeak := during % 2 ^ 16 }
  else if off = 0xB0004 then (nowFrac s f).1
  else if off = 0xB0010 then
    match f with
    | .f0 => { s with plinth := { s.plinth with latch0 := none } }
    | .f1 => { s with plinth := { s.plinth with latch1 := none } }
  else if 0xB0300 ≤ off ∧ off < 0xB0380 ∧ off % 0x20 = 0 then (tinPop s f ((off - 0xB0300) / 0x20)).1
  else if off / 0x10000 = 0x6 ∧ r < 0x1000 ∧ r % 0x40 = 0x28 ∧ (s.chain (r / 0x40)).state ≠ .undefined then
    (s.free (2 ^ 24)).2
  else s

/-- The record of a misaligned access (00 R5, 17 R474, R475). -/
def alignRecord (s : State) (f : Fn) (off : Nat) : State := raise s 0x0002 .c (worldOf f) (regRes f off) 0

/-- The data a read returns. -/
def readValue (s : State) (f : Fn) (off : Nat) : Nat :=
  if denied s f off then 0
  else if f = .f1 then withoutBits (latchedValue s f off) (mixedBits off)
  else latchedValue s f off

/-- A read of an aligned register. -/
def readWord (s : State) (f : Fn) (off during : Nat) : State :=
  let v : U32 := BitVec.ofNat 32 (readValue s f off)
  let s1 := if denied s f off then denyAccess s f off else readEffect (latchEffect s f off) f off during
  s1.emit (.readData f off v)

/-- A read of a register (00 R5, R6, R8). -/
def regRead (s : State) (f : Fn) (off during : Nat) : State :=
  if off % 4 ≠ 0 then (alignRecord s f off).emit (.readData f off 0) else readWord s f off during

/-! ### Writes -/

/-- A write that clears bits of ATTN_CAUSE or sets ATTN_MASK: the pin follows (11 R365). -/
def attnWrite (s : State) (link : HostLink) : State := attnFollow s { s with link := link }

/-- A word of the MSI-X table; a vector unmasked with a pending message sends it (11 R339, log 14). -/
def msixWrite (s : State) (f : Fn) (r val : Nat) : State :=
  let m := s.vec f (r / 16)
  match r % 16 with
  | 0 => s.setVec f (r / 16) { m with addr := setLo m.addr (val - val % 4) }
  | 4 => s.setVec f (r / 16) { m with addr := setHi m.addr val }
  | 8 => s.setVec f (r / 16) { m with data := BitVec.ofNat 32 val }
  | _ => sendPending (s.setVec f (r / 16) { m with mask := bitOf val 0 }) f

def sysWrite (s : State) (f : Fn) (r val : Nat) : State :=
  if r = 0x100 then
    attnWrite s { s.link with attnCause := s.link.attnCause &&& ~~~(BitVec.ofNat 11 val) }
  else if r = 0x104 then attnWrite s { s.link with attnMask := BitVec.ofNat 11 val }
  else if 0x8000 ≤ r ∧ r < 0x8400 then msixWrite s f (r - 0x8000) val
  else s

/-- A base or a size of a queue pair: ignored unless the pair is DISABLED (11 R351, R366). -/
def qpBaseWrite (s : State) (f : Fn) (i : Nat) (change : Qp → Qp) : State :=
  let q := s.qp f i
  if q.state = .disabled then s.setQp f i (change q) else s

/-- QP_STATUS: TAIL_ERR, CFG_ERR and HEAD_ERR are RW1C. -/
def qpStatusWrite (s : State) (f : Fn) (i val : Nat) : State :=
  let q := s.qp f i
  s.setQp f i { q with tailErr := q.tailErr && !bitOf val 2, cfgErr := q.cfgErr && !bitOf val 6,
                       headErr := q.headErr && !bitOf val 7 }

/-- HEAD_LO is kept for the HEAD_HI write; while the ring is undefined both are ignored (11 R362, R366). -/
def headLoWrite (s : State) (f : Fn) (n val : Nat) : State :=
  let x := s.ring f n
  if x.state = .undefined then s else s.setRing f n { x with headLo := BitVec.ofNat 32 val }

def queueWrite (s : State) (f : Fn) (r val : Nat) : State :=
  let w : U32 := BitVec.ofNat 32 val
  if r < 0x800 then
    let i := r / 0x100
    match r % 0x100 with
    | 0x00 => qpBaseWrite s f i fun q => { q with sqBase := setLo q.sqBase val }
    | 0x04 => qpBaseWrite s f i fun q => { q with sqBase := setHi q.sqBase val }
    | 0x08 => qpBaseWrite s f i fun q => { q with cqBase := setLo q.cqBase val }
    | 0x0C => qpBaseWrite s f i fun q => { q with cqBase := setHi q.cqBase val }
    | 0x10 => qpCtrlWrite s f i w
    | 0x14 => qpStatusWrite s f i val
    | 0x18 => sqTailWrite s f i w
    | 0x1C => cqHeadWrite s f i w
    | _ => s
  else if 0x1000 ≤ r ∧ r < 0x1400 then
    let n := (r - 0x1000) / 0x10
    match r % 0x10 with
    | 0x0 => headLoWrite s f n val
    | 0x4 => ringHeadWrite s f n w
    | _ => s
  else s

/-- The RW1C bits of the blocks' status registers. -/
def statusWrite (s : State) (f : Fn) (off val : Nat) : State :=
  match off with
  | 0x28000 => { s with intake := { s.intake with overrun := s.intake.overrun && !bitOf val 2 } }
  | 0x40000 => { s with istore := { s.istore with poisonSeen := s.istore.poisonSeen && !bitOf val 2 } }
  | 0x50000 => { s with frieze := { s.frieze with expired := s.frieze.expired && !bitOf val 6,
                                                  residueSeen := s.frieze.residueSeen && !bitOf val 7 } }
  | 0x68000 => { s with chisel := { s.chisel with rateLimited := s.chisel.rateLimited && !bitOf val 7,
                                                  residueSeen := s.chisel.residueSeen && !bitOf val 8 } }
  | 0x80000 => { s with hbm := { s.hbm with poisonSeen := s.hbm.poisonSeen && !bitOf val 4 } }
  | 0x8000C => { s with hbm := { s.hbm with marginLow := s.hbm.marginLow && !bitOf val 2,
                                            discarded := s.hbm.discarded && !bitOf val 3 } }
  | 0xE0800 => s.setLog f { s.log f with headErr := (s.log f).headErr && !bitOf val 9 }
  | 0xE0808 => logHeadWrite s f (BitVec.ofNat 32 val)
  | _ => s

/-- CORE_EVT: RW1C. -/
def coreWrite (s : State) (r val : Nat) : State :=
  if r < 0x1000 ∧ r % 0x80 = 0x28 then
    let c := s.core (r / 0x80)
    s.setCore (r / 0x80) { c with evt := c.evt &&& ~~~(BitVec.ofNat 8 val) }
  else s

/-- What a write that a function may make does to each field of the register (00 R7). No write of a register changes a
product, a stream, a chain or an assignment (00 R4). -/
def fieldWrite (s : State) (f : Fn) (off val : Nat) : State :=
  let r := off % 0x10000
  match off / 0x10000 with
  | 0x0 => sysWrite s f r val
  | 0x7 => coreWrite s r val
  | 0x9 => queueWrite s f r val
  | 0xA => if r < 0x1200 then chanWriteBy s f (r / 0x80) (r % 0x80) val else s
  | _ => statusWrite s f off val

/-- A write of an aligned register (00 R8). -/
def writeWord (s : State) (f : Fn) (off val : Nat) : State :=
  if denied s f off then denyAccess s f off
  else if f = .f1 then
    let m := mixedBits off
    fieldWrite (if Nat.land val m = 0 then s else denyAccess s f off) f off (withoutBits val m)
  else fieldWrite s f off val

/-- A write of a register (00 R5 to R8). -/
def regWrite (s : State) (f : Fn) (off val : Nat) : State :=
  if off % 4 ≠ 0 then alignRecord s f off else writeWord s f off val

/-! ### The commands -/

/-- REG_ALIGN_ACCESS: any access but an aligned one of 32 bits has no effect, reads zero and raises a record (00 R5). -/
def execRegAlignAccess (fn : Fn) (off size : Nat) (write : Bool) (s : State) : Out :=
  .next (if off % 4 = 0 ∧ size = 4 then s
    else if write then alignRecord s fn off
    else (alignRecord s fn off).emit (.readData fn off 0))

def execRegisterWrite (fn : Fn) (off : Nat) (val : U32) (s : State) : Out := .next (regWrite s fn off val.toNat)

/-- RC_FIELD_READ: a read, with what the events of the same cycle count into a cleared field (00 R10). -/
def execRcFieldRead (fn : Fn) (off during : Nat) (s : State) : Out := .next (regRead s fn off during)

/-- HI_LATCH_READ: a read of any register; that of a LO word latches its HI word (04 R137). -/
def execHiLatchRead (fn : Fn) (off : Nat) (s : State) : Out := .next (regRead s fn off 0)

def execNowFracRead (fn : Fn) (s : State) : Out := .next (readWord s fn 0xB0004 0)

def execTinPopRead (fn : Fn) (pin : Fin 4) (s : State) : Out := .next (readWord s fn (0xB0300 + 0x20 * pin.val) 0)

end Sys2Proof.Machine
end

