-- ==== Sys2Proof/Machine/Dispatch.lean ====
section
/-! DEFINITION. The meaning of each command: one arm per constructor. -/

namespace Sys2Proof.Machine

/-- The effect of a command on everything but the queue. -/
def exec (i : Instr) (s : State) : Host.Outcome State Fault Refusal :=
  match i with
  | .regAlignAccess fn off size write => Sys2Proof.Machine.execRegAlignAccess fn off size write s
  | .registerWrite fn off val => Sys2Proof.Machine.execRegisterWrite fn off val s
  | .rcFieldRead fn off during => Sys2Proof.Machine.execRcFieldRead fn off during s
  | .hiLatchRead fn off => Sys2Proof.Machine.execHiLatchRead fn off s
  | .nowFracRead fn => Sys2Proof.Machine.execNowFracRead fn s
  | .tinPopRead fn pin => Sys2Proof.Machine.execTinPopRead fn pin s
  | .sqTailWrite fn qp val => Sys2Proof.Machine.execSqTailWrite fn qp val s
  | .cqHeadWrite fn qp val => Sys2Proof.Machine.execCqHeadWrite fn qp val s
  | .qpEnable fn qp val => Sys2Proof.Machine.execQpEnable fn qp val s
  | .qpDisable fn qp val => Sys2Proof.Machine.execQpDisable fn qp val s
  | .ringHeadWrite fn ring hi => Sys2Proof.Machine.execRingHeadWrite fn ring hi s
  | .dmaGo fn ch val => Sys2Proof.Machine.execDmaGo fn ch val s
  | .dmaAbort fn ch => Sys2Proof.Machine.execDmaAbort fn ch s
  | .dmaDisarm fn ch => Sys2Proof.Machine.execDmaDisarm fn ch s
  | .dmaCqHeadWrite fn ch val => Sys2Proof.Machine.execDmaCqHeadWrite fn ch val s
  | .logHeadWrite fn val => Sys2Proof.Machine.execLogHeadWrite fn val s
  | .bar2Read fn addr len => Sys2Proof.Machine.execBar2Read fn addr len s
  | .bar2Write fn addr bytes => Sys2Proof.Machine.execBar2Write fn addr bytes s
  | .ucieLinkTrain gts0 gts1 => Sys2Proof.Machine.execUcieLinkTrain gts0 gts1 s
  | .ucieLinkDown => Sys2Proof.Machine.execUcieLinkDown s
  | .ucieLinkUp => Sys2Proof.Machine.execUcieLinkUp s
  | .busMasterEnableChange fn on => Sys2Proof.Machine.execBusMasterEnableChange fn on s
  | .functionLevelReset fn => Sys2Proof.Machine.execFunctionLevelReset fn s
  | .queueVisit slot => Sys2Proof.Machine.execQueueVisit slot s
  | .clauseReread slot => Sys2Proof.Machine.execClauseReread slot s
  | .clauseWaitComplete fn qp => Sys2Proof.Machine.execClauseWaitComplete fn qp s
  | .followEntryWrite fn qp => Sys2Proof.Machine.execFollowEntryWrite fn qp s
  | .deferredChangeEffect pid => Sys2Proof.Machine.execDeferredChangeEffect pid s
  | .sysNop src => Sys2Proof.Machine.execSysNop src s
  | .sysIdentify src buf => Sys2Proof.Machine.execSysIdentify src buf s
  | .sysRingDefine src ring vector coalesce timeUs wbAddr k base => Sys2Proof.Machine.execSysRingDefine src ring vector coalesce timeUs wbAddr k base s
  | .sysRingRelease src ring => Sys2Proof.Machine.execSysRingRelease src ring s
  | .sysEnvelopeQuery src buf => Sys2Proof.Machine.execSysEnvelopeQuery src buf s
  | .laneGroupDefine src first code dir => Sys2Proof.Machine.execLaneGroupDefine src first code dir s
  | .laneGroupRelease src first dir => Sys2Proof.Machine.execLaneGroupRelease src first dir s
  | .laneSleep src first dir state => Sys2Proof.Machine.execLaneSleep src first dir state s
  | .laneWake src first dir => Sys2Proof.Machine.execLaneWake src first dir s
  | .laneTxPrecode src first enable => Sys2Proof.Machine.execLaneTxPrecode src first enable s
  | .laneSetThresholds src first threshold => Sys2Proof.Machine.execLaneSetThresholds src first threshold s
  | .laneEgressBind src first egress => Sys2Proof.Machine.execLaneEgressBind src first egress s
  | .intakeStreamDefine src stream first flags inBase inCount chBase chCount source => Sys2Proof.Machine.execIntakeStreamDefine src stream first flags inBase inCount chBase chCount source s
  | .intakeStreamRelease src stream => Sys2Proof.Machine.execIntakeStreamRelease src stream s
  | .intakeSetSkew src w => Sys2Proof.Machine.execIntakeSetSkew src w s
  | .intakeSetEpoch src t0 num den tolerance => Sys2Proof.Machine.execIntakeSetEpoch src t0 num den tolerance s
  | .intakeSetGains src stream first count chFirst chCount buf data => Sys2Proof.Machine.execIntakeSetGains src stream first count chFirst chCount buf data s
  | .intakeStatsDefine src pid stream inBase inCount chBase chCount log2Int tap route => Sys2Proof.Machine.execIntakeStatsDefine src pid stream inBase inCount chBase chCount log2Int tap route s
  | .intakeStatsRelease src pid => Sys2Proof.Machine.execIntakeStatsRelease src pid s
  | .corrInputMapLoad src buf data => Sys2Proof.Machine.execCorrInputMapLoad src buf data s
  | .corrInputMapFree src handle => Sys2Proof.Machine.execCorrInputMapFree src handle s
  | .corrDefine src pid handle flags chBase chCount log2Td nInt g base route => Sys2Proof.Machine.execCorrDefine src pid handle flags chBase chCount log2Td nInt g base route s
  | .corrRelease src pid => Sys2Proof.Machine.execCorrRelease src pid s
  | .corrSuspend src pid => Sys2Proof.Machine.execCorrSuspend src pid s
  | .corrResume src pid => Sys2Proof.Machine.execCorrResume src pid s
  | .corrSetMode src pid mode => Sys2Proof.Machine.execCorrSetMode src pid mode s
  | .corrPlanQuery src buf => Sys2Proof.Machine.execCorrPlanQuery src buf s
  | .corrSnapshot src pid first count area len => Sys2Proof.Machine.execCorrSnapshot src pid first count area len s
  | .corrSetRoute src pid route => Sys2Proof.Machine.execCorrSetRoute src pid route s
  | .corrSetOutput src pid output => Sys2Proof.Machine.execCorrSetOutput src pid output s
  | .corrIstoreQuery src buf => Sys2Proof.Machine.execCorrIstoreQuery src buf s
  | .corrFaultInject src row pos baseline comp bit mode => Sys2Proof.Machine.execCorrFaultInject src row pos baseline comp bit mode s
  | .beamDefine src pid handle flags chBase chCount beams beamBase log2T log2Np sh shP route buf data => Sys2Proof.Machine.execBeamDefine src pid handle flags chBase chCount beams beamBase log2T log2Np sh shP route buf data s
  | .beamRelease src pid => Sys2Proof.Machine.execBeamRelease src pid s
  | .beamSuspend src pid => Sys2Proof.Machine.execBeamSuspend src pid s
  | .beamResume src pid => Sys2Proof.Machine.execBeamResume src pid s
  | .beamDelayLoad src pid first count buf data => Sys2Proof.Machine.execBeamDelayLoad src pid first count buf data s
  | .beamDelaySwitch src time tRef => Sys2Proof.Machine.execBeamDelaySwitch src time tRef s
  | .beamDelaySwap src pid beam buf data => Sys2Proof.Machine.execBeamDelaySwap src pid beam buf data s
  | .beamDelayMode src mode => Sys2Proof.Machine.execBeamDelayMode src mode s
  | .beamSetGains src pid which area boundary => Sys2Proof.Machine.execBeamSetGains src pid which area boundary s
  | .beamSetScale src pid first count sh shP => Sys2Proof.Machine.execBeamSetScale src pid first count sh shP s
  | .beamSetRoute src pid route mask => Sys2Proof.Machine.execBeamSetRoute src pid route mask s
  | .beamImportBind src pid first serial remote window => Sys2Proof.Machine.execBeamImportBind src pid first serial remote window s
  | .beamQuery src buf => Sys2Proof.Machine.execBeamQuery src buf s
  | .zoomProtoLoad src m buf data => Sys2Proof.Machine.execZoomProtoLoad src m buf data s
  | .zoomProtoFree src handle => Sys2Proof.Machine.execZoomProtoFree src handle s
  | .zoomDefine src chain beam zoom event capture routeZ routeE routeC buf data coefs => Sys2Proof.Machine.execZoomDefine src chain beam zoom event capture routeZ routeE routeC buf data coefs s
  | .zoomRelease src chain => Sys2Proof.Machine.execZoomRelease src chain s
  | .zoomSuspend src chain => Sys2Proof.Machine.execZoomSuspend src chain s
  | .zoomResume src chain => Sys2Proof.Machine.execZoomResume src chain s
  | .zoomFirLoad src chain bank len shift delay buf data => Sys2Proof.Machine.execZoomFirLoad src chain bank len shift delay buf data s
  | .zoomFirSwitch src chain byTime fade time => Sys2Proof.Machine.execZoomFirSwitch src chain byTime fade time s
  | .zoomSetTune src chain block => Sys2Proof.Machine.execZoomSetTune src chain block s
  | .zoomSetAlign src chain block => Sys2Proof.Machine.execZoomSetAlign src chain block s
  | .zoomSetDetect src chain block => Sys2Proof.Machine.execZoomSetDetect src chain block s
  | .zoomRebaseline src chain kind value => Sys2Proof.Machine.execZoomRebaseline src chain kind value s
  | .zoomCaptureNow src chain index => Sys2Proof.Machine.execZoomCaptureNow src chain index s
  | .zoomSetRoute src chain which route => Sys2Proof.Machine.execZoomSetRoute src chain which route s
  | .zoomQuery src buf => Sys2Proof.Machine.execZoomQuery src buf s
  | .glossLoad src core buf data => Sys2Proof.Machine.execGlossLoad src core buf data s
  | .glossStart src core => Sys2Proof.Machine.execGlossStart src core s
  | .glossStop src core => Sys2Proof.Machine.execGlossStop src core s
  | .glossAttach src core log2In source derived inBase log2Feed log2Slot route rate seg0 seg1 seg2 seg3 feedBase slotBase => Sys2Proof.Machine.execGlossAttach src core log2In source derived inBase log2Feed log2Slot route rate seg0 seg1 seg2 seg3 feedBase slotBase s
  | .glossDetach src core => Sys2Proof.Machine.execGlossDetach src core s
  | .glossSetRoute src core route => Sys2Proof.Machine.execGlossSetRoute src core route s
  | .glossMemRead src core space first count buf => Sys2Proof.Machine.execGlossMemRead src core space first count buf s
  | .glossMemWrite src core space first count buf data => Sys2Proof.Machine.execGlossMemWrite src core space first count buf data s
  | .glossQuery src buf => Sys2Proof.Machine.execGlossQuery src buf s
  | .timePortSet src port flags domain ip mac => Sys2Proof.Machine.execTimePortSet src port flags domain ip mac s
  | .timeServoSet src threshold code flags => Sys2Proof.Machine.execTimeServoSet src threshold code flags s
  | .timeAcceptStep src id => Sys2Proof.Machine.execTimeAcceptStep src id s
  | .timeSet src time => Sys2Proof.Machine.execTimeSet src time s
  | .timeOutSet src pin mode width start period => Sys2Proof.Machine.execTimeOutSet src pin mode width start period s
  | .timeInSet src pin edges enable => Sys2Proof.Machine.execTimeInSet src pin edges enable s
  | .timeQuery src buf => Sys2Proof.Machine.execTimeQuery src buf s
  | .clockRefSet src ref rank nominal accept warn reject disqMs requalMs => Sys2Proof.Machine.execClockRefSet src ref rank nominal accept warn reject disqMs requalMs s
  | .clockSelect src manual ref => Sys2Proof.Machine.execClockSelect src manual ref s
  | .clockDpllSet src code slope disagree => Sys2Proof.Machine.execClockDpllSet src code slope disagree s
  | .clockQuery src buf => Sys2Proof.Machine.execClockQuery src buf s
  | .trimRun src kinds which => Sys2Proof.Machine.execTrimRun src kinds which s
  | .trimSetTrigger src kinds step => Sys2Proof.Machine.execTrimSetTrigger src kinds step s
  | .trimSave src buf => Sys2Proof.Machine.execTrimSave src buf s
  | .trimRestore src buf data => Sys2Proof.Machine.execTrimRestore src buf data s
  | .worldRegionSet src desc flags map base size => Sys2Proof.Machine.execWorldRegionSet src desc flags map base size s
  | .worldAssign src kind first count world => Sys2Proof.Machine.execWorldAssign src kind first count world s
  | .worldQuotaSet src item value => Sys2Proof.Machine.execWorldQuotaSet src item value s
  | .worldQuery src buf => Sys2Proof.Machine.execWorldQuery src buf s
  | .pairConfigure src enable partner => Sys2Proof.Machine.execPairConfigure src enable partner s
  | .pairSwap src time => Sys2Proof.Machine.execPairSwap src time s
  | .pairResync src => Sys2Proof.Machine.execPairResync src s
  | .pairQuery src buf => Sys2Proof.Machine.execPairQuery src buf s
  | .updateActivate src slot time => Sys2Proof.Machine.execUpdateActivate src slot time s
  | .updateConfirm src slot => Sys2Proof.Machine.execUpdateConfirm src slot s
  | .updateQuery src buf => Sys2Proof.Machine.execUpdateQuery src buf s
  | .powerHbmRate src rate => Sys2Proof.Machine.execPowerHbmRate src rate s
  | .powerHbmRetrain src => Sys2Proof.Machine.execPowerHbmRetrain src s
  | .powerHbmState src state mask => Sys2Proof.Machine.execPowerHbmState src state mask s
  | .powerDomain src domain off limit => Sys2Proof.Machine.execPowerDomain src domain off limit s
  | .diagErrorLog src buf => Sys2Proof.Machine.execDiagErrorLog src buf s
  | .diagLoopback src first dir mode => Sys2Proof.Machine.execDiagLoopback src first dir mode s
  | .oslFrameRx lane levels => Sys2Proof.Machine.execOslFrameRx lane levels s
  | .frameLock lane => Sys2Proof.Machine.execFrameLock lane s
  | .lockLoss lane => Sys2Proof.Machine.execLockLoss lane s
  | .markerHypothesisTimeout lane => Sys2Proof.Machine.execMarkerHypothesisTimeout lane s
  | .fecWindowEnd lane => Sys2Proof.Machine.execFecWindowEnd lane s
  | .bringupStepTimeout lane => Sys2Proof.Machine.execBringupStepTimeout lane s
  | .bringupRetry lane => Sys2Proof.Machine.execBringupRetry lane s
  | .txFrameSlot lane => Sys2Proof.Machine.execTxFrameSlot lane s
  | .txSleepEnter lane => Sys2Proof.Machine.execTxSleepEnter lane s
  | .precodeSwitch lane => Sys2Proof.Machine.execPrecodeSwitch lane s
  | .skewWindowExpiry => Sys2Proof.Machine.execSkewWindowExpiry s
  | .streamDown stream => Sys2Proof.Machine.execStreamDown stream s
  | .cornerTurnHalfFree set half => Sys2Proof.Machine.execCornerTurnHalfFree set half s
  | .channelDwellFinish => Sys2Proof.Machine.execChannelDwellFinish s
  | .stageBlockLoadDone col block => Sys2Proof.Machine.execStageBlockLoadDone col block s
  | .superTileEnd => Sys2Proof.Machine.execSuperTileEnd s
  | .narrowFold => Sys2Proof.Machine.execNarrowFold s
  | .drainCompare errs selfCheck operandErr => Sys2Proof.Machine.execDrainCompare errs selfCheck operandErr s
  | .preemptionPoint => Sys2Proof.Machine.execPreemptionPoint s
  | .contextSaveDone slot => Sys2Proof.Machine.execContextSaveDone slot s
  | .contextRestoreDone slot => Sys2Proof.Machine.execContextRestoreDone slot s
  | .repairWorkStart => Sys2Proof.Machine.execRepairWorkStart s
  | .spillCommit => Sys2Proof.Machine.execSpillCommit s
  | .snapshotWriteDone pid => Sys2Proof.Machine.execSnapshotWriteDone pid s
  | .ringRecordOffer dest => Sys2Proof.Machine.execRingRecordOffer dest s
  | .ringDeclineTimeout dest => Sys2Proof.Machine.execRingDeclineTimeout dest s
  | .ringCoalesceTimeout fn ring => Sys2Proof.Machine.execRingCoalesceTimeout fn ring s
  | .friezeRowProcess badDelays residues => Sys2Proof.Machine.execFriezeRowProcess badDelays residues s
  | .delaySwapCopyDone => Sys2Proof.Machine.execDelaySwapCopyDone s
  | .gainAreaReleased pid => Sys2Proof.Machine.execGainAreaReleased pid s
  | .psumRecordRx group serial record => Sys2Proof.Machine.execPsumRecordRx group serial record s
  | .importWindowExpiry pid => Sys2Proof.Machine.execImportWindowExpiry pid s
  | .chainRowProcess chain residues => Sys2Proof.Machine.execChainRowProcess chain residues s
  | .detectIntervalEnd chain => Sys2Proof.Machine.execDetectIntervalEnd chain s
  | .captureCopyDone chain => Sys2Proof.Machine.execCaptureCopyDone chain s
  | .timeOutPulse pin => Sys2Proof.Machine.execTimeOutPulse pin s
  | .feedFrameCopy core collide => Sys2Proof.Machine.execFeedFrameCopy core collide s
  | .waitfSatisfied core => Sys2Proof.Machine.execWaitfSatisfied core s
  | .emitOpenWaitEnd core => Sys2Proof.Machine.execEmitOpenWaitEnd core s
  | .derivedRecordRelease core => Sys2Proof.Machine.execDerivedRecordRelease core s
  | .gNop core f e => Sys2Proof.Machine.execGNop core f e s
  | .gMpy core f e => Sys2Proof.Machine.execGMpy core f e s
  | .gMac core f e => Sys2Proof.Machine.execGMac core f e s
  | .gMsu core f e => Sys2Proof.Machine.execGMsu core f e s
  | .gDmac core f e => Sys2Proof.Machine.execGDmac core f e s
  | .gCmach core f e => Sys2Proof.Machine.execGCmach core f e s
  | .gCmacl core f e => Sys2Proof.Machine.execGCmacl core f e s
  | .gCmacjl core f e => Sys2Proof.Machine.execGCmacjl core f e s
  | .gPwr core f e => Sys2Proof.Machine.execGPwr core f e s
  | .gClr core f e => Sys2Proof.Machine.execGClr core f e s
  | .gAdd core f e => Sys2Proof.Machine.execGAdd core f e s
  | .gSub core f e => Sys2Proof.Machine.execGSub core f e s
  | .gAddq core f e => Sys2Proof.Machine.execGAddq core f e s
  | .gSubq core f e => Sys2Proof.Machine.execGSubq core f e s
  | .gAddw core f e => Sys2Proof.Machine.execGAddw core f e s
  | .gSubw core f e => Sys2Proof.Machine.execGSubw core f e s
  | .gBfly core f e => Sys2Proof.Machine.execGBfly core f e s
  | .gTfr core f e => Sys2Proof.Machine.execGTfr core f e s
  | .gNeg core f e => Sys2Proof.Machine.execGNeg core f e s
  | .gAbs core f e => Sys2Proof.Machine.execGAbs core f e s
  | .gAsr core f e => Sys2Proof.Machine.execGAsr core f e s
  | .gAsl core f e => Sys2Proof.Machine.execGAsl core f e s
  | .gTst core f e => Sys2Proof.Machine.execGTst core f e s
  | .gLdq core f e => Sys2Proof.Machine.execGLdq core f e s
  | .gMov core f e => Sys2Proof.Machine.execGMov core f e s
  | .gLdi core f e => Sys2Proof.Machine.execGLdi core f e s
  | .gRnd core f e => Sys2Proof.Machine.execGRnd core f e s
  | .gExpw core f e => Sys2Proof.Machine.execGExpw core f e s
  | .gPaddi core f e => Sys2Proof.Machine.execGPaddi core f e s
  | .gSetbs core f e => Sys2Proof.Machine.execGSetbs core f e s
  | .gSetex core f e => Sys2Proof.Machine.execGSetex core f e s
  | .gClrf core f e => Sys2Proof.Machine.execGClrf core f e s
  | .gBexpr core f e => Sys2Proof.Machine.execGBexpr core f e s
  | .gLdw core f e => Sys2Proof.Machine.execGLdw core f e s
  | .gLd core f e => Sys2Proof.Machine.execGLd core f e s
  | .gSt core f e => Sys2Proof.Machine.execGSt core f e s
  | .gStw core f e => Sys2Proof.Machine.execGStw core f e s
  | .gLdwMem core f e => Sys2Proof.Machine.execGLdwMem core f e s
  | .gSavw core f e => Sys2Proof.Machine.execGSavw core f e s
  | .gRstw core f e => Sys2Proof.Machine.execGRstw core f e s
  | .gBra core target e => Sys2Proof.Machine.execGBra core target e s
  | .gBeq core target e => Sys2Proof.Machine.execGBeq core target e s
  | .gBne core target e => Sys2Proof.Machine.execGBne core target e s
  | .gBlt core target e => Sys2Proof.Machine.execGBlt core target e s
  | .gBge core target e => Sys2Proof.Machine.execGBge core target e s
  | .gCall core target e => Sys2Proof.Machine.execGCall core target e s
  | .gRet core target e => Sys2Proof.Machine.execGRet core target e s
  | .gLoop core count last e => Sys2Proof.Machine.execGLoop core count last e s
  | .gLoopd core v last e => Sys2Proof.Machine.execGLoopd core v last e s
  | .gLdil core dst imm e => Sys2Proof.Machine.execGLdil core dst imm e s
  | .gWaitf core n e => Sys2Proof.Machine.execGWaitf core n e s
  | .gEmit core f e => Sys2Proof.Machine.execGEmit core f e s
  | .gEvt core n e => Sys2Proof.Machine.execGEvt core n e s
  | .gHalt core e => Sys2Proof.Machine.execGHalt core e s
  | .hbmRequestServe stack pc arrivals ecc => Sys2Proof.Machine.execHbmRequestServe stack pc arrivals ecc s
  | .refreshDebtTick stack => Sys2Proof.Machine.execRefreshDebtTick stack s
  | .refreshIssue stack pc => Sys2Proof.Machine.execRefreshIssue stack pc s
  | .hbmTempRead stack temp => Sys2Proof.Machine.execHbmTempRead stack temp s
  | .actTableClear stack => Sys2Proof.Machine.execActTableClear stack s
  | .patrolScrubRead ecc => Sys2Proof.Machine.execPatrolScrubRead ecc s
  | .retrainTimer => Sys2Proof.Machine.execRetrainTimer s
  | .retrainStepDone low => Sys2Proof.Machine.execRetrainStepDone low s
  | .hbmRateChangeDone => Sys2Proof.Machine.execHbmRateChangeDone s
  | .pcPowerdownIdle stack pc => Sys2Proof.Machine.execPcPowerdownIdle stack pc s
  | .selfRefreshIdle => Sys2Proof.Machine.execSelfRefreshIdle s
  | .stackTrainingDone stack sid repaired dense rfm ok => Sys2Proof.Machine.execStackTrainingDone stack sid repaired dense rfm ok s
  | .granuleZeroFillDone => Sys2Proof.Machine.execGranuleZeroFillDone s
  | .dmaChannelStart engine => Sys2Proof.Machine.execDmaChannelStart engine s
  | .dmaBurstDone ch data collide => Sys2Proof.Machine.execDmaBurstDone ch data collide s
  | .dmaTransferDone ch => Sys2Proof.Machine.execDmaTransferDone ch s
  | .dmaPowerDeferralTimeout domain => Sys2Proof.Machine.execDmaPowerDeferralTimeout domain s
  | .domainPowerUpDone domain => Sys2Proof.Machine.execDomainPowerUpDone domain s
  | .ptpSyncRx port frame ingress => Sys2Proof.Machine.execPtpSyncRx port frame ingress s
  | .ptpFollowUpRx port frame => Sys2Proof.Machine.execPtpFollowUpRx port frame s
  | .ptpAnnounceRx port frame => Sys2Proof.Machine.execPtpAnnounceRx port frame s
  | .ptpDelayRespRx port frame => Sys2Proof.Machine.execPtpDelayRespRx port frame s
  | .delayReqSend egress => Sys2Proof.Machine.execDelayReqSend egress s
  | .ptpMasterTimeout announce => Sys2Proof.Machine.execPtpMasterTimeout announce s
  | .ethFrameForward port frame residence full => Sys2Proof.Machine.execEthFrameForward port frame residence full s
  | .timeInEdge pin falling glitch time => Sys2Proof.Machine.execTimeInEdge pin falling glitch time s
  | .refMonitorGateEnd ref reading => Sys2Proof.Machine.execRefMonitorGateEnd ref reading s
  | .refActivityFail ref => Sys2Proof.Machine.execRefActivityFail ref s
  | .phasePullEnd => Sys2Proof.Machine.execPhasePullEnd s
  | .dpllSettled => Sys2Proof.Machine.execDpllSettled s
  | .xoLost => Sys2Proof.Machine.execXoLost s
  | .laneTrimWindowEnd lane count => Sys2Proof.Machine.execLaneTrimWindowEnd lane count s
  | .levelTrimComputeDone stream => Sys2Proof.Machine.execLevelTrimComputeDone stream s
  | .gridTestInstance first retry again selfFirst selfRetry persistent => Sys2Proof.Machine.execGridTestInstance first retry again selfFirst selfRetry persistent s
  | .dieTempRead temp => Sys2Proof.Machine.execDieTempRead temp s
  | .logRecordWrite rec => Sys2Proof.Machine.execLogRecordWrite rec s
  | .armLockstep => Sys2Proof.Machine.execArmLockstep s
  | .armHang => Sys2Proof.Machine.execArmHang s
  | .armRestarted maquetteOk => Sys2Proof.Machine.execArmRestarted maquetteOk s
  | .armRestartStepTimeout => Sys2Proof.Machine.execArmRestartStepTimeout s
  | .seqOutvoted majority => Sys2Proof.Machine.execSeqOutvoted majority s
  | .peerFault => Sys2Proof.Machine.execPeerFault s
  | .takeoverComplete => Sys2Proof.Machine.execTakeoverComplete s
  | .aliveWindowEnd edges => Sys2Proof.Machine.execAliveWindowEnd edges s
  | .mirrorFrameRx lane frame => Sys2Proof.Machine.execMirrorFrameRx lane frame s
  | .mirrorPathTimeout => Sys2Proof.Machine.execMirrorPathTimeout s
  | .mirrorRetransmit => Sys2Proof.Machine.execMirrorRetransmit s
  | .pad => Sys2Proof.Machine.execPad s
  | .commit number last => Sys2Proof.Machine.execCommit number last s
  | .reserve number pid upTo emitted => Sys2Proof.Machine.execReserve number pid upTo emitted s
  | .chainMsg number c => Sys2Proof.Machine.execChainMsg number c s
  | .hbmCopy number addr bytes => Sys2Proof.Machine.execHbmCopy number addr bytes s
  | .bulk number image => Sys2Proof.Machine.execBulk number image s
  | .syncDone number count crc => Sys2Proof.Machine.execSyncDone number count crc s
  | .swap number counter => Sys2Proof.Machine.execSwap number counter s
  | .yieldMsg number entries => Sys2Proof.Machine.execYieldMsg number entries s
  | .leave number => Sys2Proof.Machine.execLeave number s
  | .formingTimeout => Sys2Proof.Machine.execFormingTimeout s
  | .plannedSwapRow => Sys2Proof.Machine.execPlannedSwapRow s
  | .swapAckDeadline => Sys2Proof.Machine.execSwapAckDeadline s
  | .resetRelease recoveryN flashMode rank => Sys2Proof.Machine.execResetRelease recoveryN flashMode rank s
  | .resetAssert => Sys2Proof.Machine.execResetAssert s
  | .pwrGoodFall => Sys2Proof.Machine.execPwrGoodFall s
  | .thermalTrip => Sys2Proof.Machine.execThermalTrip s
  | .vidStep => Sys2Proof.Machine.execVidStep s
  | .updateActivationTime => Sys2Proof.Machine.execUpdateActivationTime s
  | .svcRead => Sys2Proof.Machine.execSvcRead s
  | .svcStatus c => Sys2Proof.Machine.execSvcStatus c s
  | .svcIdentify c => Sys2Proof.Machine.execSvcIdentify c s
  | .dlBegin c => Sys2Proof.Machine.execDlBegin c s
  | .dlData c => Sys2Proof.Machine.execDlData c s
  | .dlEnd c => Sys2Proof.Machine.execDlEnd c s
  | .dlAbort c => Sys2Proof.Machine.execDlAbort c s
  | .recoveryBoot c => Sys2Proof.Machine.execRecoveryBoot c s
  | .keyProgram c => Sys2Proof.Machine.execKeyProgram c s
  | .bringupStageDone lane tx => Sys2Proof.Machine.execBringupStageDone lane tx s
  | .tportLinkChange port up => Sys2Proof.Machine.execTportLinkChange port up s
  | .peerFaultNHigh => Sys2Proof.Machine.execPeerFaultNHigh s
  | .holdoverHistoryValid => Sys2Proof.Machine.execHoldoverHistoryValid s
  | .vddIoRise => Sys2Proof.Machine.execVddIoRise s

end Sys2Proof.Machine
end

