-- ==== Sys2Proof/Safety.lean ====
section
/-! DEFINITION. The terms statements use: when a Clause is served and accepted, what its answer leaves, when a Gloss core runs
an instruction, and the invariant of the block. -/

namespace Sys2Proof.Safety

open Sys2Proof.Machine

/-! ### Clauses -/

/-- The Armature serves a Clause (11 R344, R345, 17 R486, R488, 18 R506): service runs, no class F fault stands, a secure-only Clause
comes from F0, the fields that the opcode leaves reserved are 0, a standby answers the opcode, and the slot taken from that queue, if
one is, holds the Clause. -/
def serves (s : State) (i : Instr) : Bool :=
  match clauseOf i with
  | some c =>
    s.err.service && isTaken s c && !s.err.fault && !(secureOnlyOp c.opcode && c.src.fn == .f1) && (rsvdOf c).isNone &&
      !(s.pair.role == .standby && !standbyAnswers c.opcode)
  | none => false

/-- The body of a Clause accepts its parameters. -/
def accepts (r : Result) : Bool :=
  match r with
  | .ok _ => true
  | .error _ => false

/-- The state after an accepted Clause (11 R351, R354, 17 R489, 18 R507): the commit, then the wait phase or the completion. -/
def answered (src : Src) (opcode : Nat) (s : State) (r : Reply) : State :=
  let c := commitClause s src opcode
  match r.wait with
  | some args => enterWait c.1 src opcode args
  | none => complete c.1 src opcode (protectStatus c.1 r) c.2

/-- The state of the device other than the answer's own: the queue pairs, the interrupt vectors, the error log, the pair and the
boot records may differ; what has left the die stays, and more may have left it. -/
structure SameData (s t : State) : Prop where
  out : s.out <:+ t.out
  fresh : t.fresh = s.fresh
  latches : t.latches = s.latches
  commitHold : t.commitHold = s.commitHold
  world : t.world = s.world
  products : t.products = s.products
  intake : t.intake = s.intake
  maps : t.maps = s.maps
  corrs : t.corrs = s.corrs
  relief : t.relief = s.relief
  istore : t.istore = s.istore
  offers : t.offers = s.offers
  hbm : t.hbm = s.hbm
  osl : t.osl = s.osl
  plinth : t.plinth = s.plinth
  net : t.net = s.net
  clock : t.clock = s.clock
  trims : t.trims = s.trims
  dma : t.dma = s.dma
  power : t.power = s.power
  frieze : t.frieze = s.frieze
  chisel : t.chisel = s.chisel
  gloss : t.gloss = s.gloss
  pending : t.pending = s.pending
  ring : ∀ f i, t.ring f i = s.ring f i

/-! ### Gloss instructions -/

/-- Core i runs instruction g: it is RUNNING, not gated and not waiting, g stands at its PC and does not end a loop as a C-format
instruction, and ECC reports nothing that stops it (09 R274, R286, R300). -/
def runs (s : State) (i : Nat) (g : GInstr) (e : Ecc) : Bool :=
  !gated s && (s.core i).state == .running && (s.core i).waiting.isNone && e != .badP &&
    GInstr.decode (fetchPair (s.core i)).1 (fetchPair (s.core i)).2 == some g && !endsLoop (s.core i) g &&
    (eccTrap g e).isNone

/-- The core as an instruction finds it: its stalls have passed, and it leaves its own hazards (09 R289, R300). -/
def readied (c : Core) (g : GInstr) (e : Ecc) : Core :=
  { spend { c with eccCorr := if e = .corrected then c.eccCorr + 1 else c.eccCorr } 0 (stallOf c.haz g) with
    haz := hazardsAfter c.haz g, stored := [] }

/-- Only core i differs, but for the class C record of a corrected error (09 R300). -/
def coreOnly (s t : State) (i : Nat) (e : Ecc) : Prop := e = .clean → t = s.setCore i (t.core i)

/-- What an operation leaves of the accumulators and AV: each named one holds its true result modulo 2^56, the others what they
held, and AV sets where a true result does not fit (09 R282, R283). -/
structure Accs (c d : Core) (l : List (Nat × Int)) : Prop where
  w : ∀ k, k < 4 → vget d.w k 0 = ((l.lookup k).map (BitVec.ofInt 56)).getD (vget c.w k 0)
  av : d.av = (c.av || l.any fun x => over56 x.2)

/-- A P-format instruction with these results: it writes no other register but its transfer's, and the core moves on (09 R276,
R286, R291). -/
structure PDone (c d : Core) (l : List (Nat × Int)) : Prop extends Accs c d l where
  pc : d.pc = (advance c).pc
  loops : d.loops = (advance c).loops
  k : d.k = c.k
  base : d.base = c.base
  ext : d.ext = c.ext
  bx : d.bx = c.bx
  sat : d.sat = c.sat
  eov : d.eov = c.eov
  inWr : d.inWr = c.inWr
  inRd : d.inRd = c.inRd
  calls : d.calls = c.calls
  state : d.state = c.state
  opened : d.opened = c.opened

/-- A multiply's completion: the accumulators and AV by its true results, Z and N as they were (09 R282, R283, R286). -/
def multiplied (s t : State) (i : Nat) (e : Ecc) (l : List (Nat × Int)) : Prop :=
  PDone (s.core i) (t.core i) l ∧ (t.core i).z = (s.core i).z ∧ (t.core i).n = (s.core i).n ∧ coreOnly s t i e

/-- An ALU operation's completion: accumulator a and AV by its true result, Z and N from what the accumulator holds (09 R283,
R286). -/
def computed (s t : State) (i : Nat) (e : Ecc) (a : Nat) (x : Int) : Prop :=
  PDone (s.core i) (t.core i) [(a, x)] ∧ (t.core i).z = decide ((BitVec.ofInt 56 x).toInt = 0) ∧
    (t.core i).n = decide ((BitVec.ofInt 56 x).toInt < 0) ∧ coreOnly s t i e

/-- The core goes on to the next instruction, through its loops (09 R286). -/
def movedOn (c d : Core) : Prop :=
  d.pc = (advance c).pc ∧ d.loops = (advance c).loops ∧ d.state = c.state ∧ d.calls = c.calls

/-- The bytes of an EMIT piece per word, for a source word of 24 bits (09 R297). -/
def packWidth (mode : Nat) : Nat := if mode = 0 then 3 else if mode = 1 then 1 else if mode = 2 ∨ mode = 3 then 2 else 4

/-! ### Pins and messages -/

/-- A TIME_OUT pin as it stands (13 R407). -/
def outPin (s : State) (pin : Nat) : TimeOut := vget s.net.outs pin Reset.timeOut

/-- A frame is a PTP message that the slave takes on a port: the port is enabled and up, the frame is whole and carries the message
m of that type by the port's transport, of a supported version and of its domain (13 R391, R393). -/
def takes (s : State) (p type : Nat) (f m : List Byte) : Bool :=
  (s.tport p).enabled && (s.tport p).link && fcsOk f && ptpMessage (s.tport p).udp type f == some m && ptpVersionOk m &&
    ptpDomain m == (s.tport p).domain

/-! ### The invariant -/

/-- The HBM contents and the memories of the Gloss cores have their canonical form, and NS of the Plinth lies below 10^9 (13
R387). -/
structure Inv (s : State) : Prop where
  mem : Memory.wf s.hbm.mem = true
  ns : s.plinth.ns.toNat < 1000000000
  x : ∀ i : Fin 32, wordWfFrom 0 (s.core i.val).x = true
  y : ∀ i : Fin 32, wordWfFrom 0 (s.core i.val).y = true

/-- The Plinth time in units of 2^-40 ns (13 R389). -/
def plinthUnits (p : Plinth) : Nat := (p.sec.toNat * 1000000000 + p.ns.toNat) * 2 ^ 40 + p.sub.toNat

/-! ### Commands by what they act on -/

/-- The core that a Gloss command works on (09 R274 to R303); none for any other command. -/
def coreOf (i : Instr) : Option (Fin 32) :=
  match i with
  | .gNop core .. => some core
  | .gMpy core .. => some core
  | .gMac core .. => some core
  | .gMsu core .. => some core
  | .gDmac core .. => some core
  | .gCmach core .. => some core
  | .gCmacl core .. => some core
  | .gCmacjl core .. => some core
  | .gPwr core .. => some core
  | .gClr core .. => some core
  | .gAdd core .. => some core
  | .gSub core .. => some core
  | .gAddq core .. => some core
  | .gSubq core .. => some core
  | .gAddw core .. => some core
  | .gSubw core .. => some core
  | .gBfly core .. => some core
  | .gTfr core .. => some core
  | .gNeg core .. => some core
  | .gAbs core .. => some core
  | .gAsr core .. => some core
  | .gAsl core .. => some core
  | .gTst core .. => some core
  | .gLdq core .. => some core
  | .gMov core .. => some core
  | .gLdi core .. => some core
  | .gRnd core .. => some core
  | .gExpw core .. => some core
  | .gPaddi core .. => some core
  | .gSetbs core .. => some core
  | .gSetex core .. => some core
  | .gClrf core .. => some core
  | .gBexpr core .. => some core
  | .gLdw core .. => some core
  | .gLd core .. => some core
  | .gSt core .. => some core
  | .gStw core .. => some core
  | .gLdwMem core .. => some core
  | .gSavw core .. => some core
  | .gRstw core .. => some core
  | .gBra core .. => some core
  | .gBeq core .. => some core
  | .gBne core .. => some core
  | .gBlt core .. => some core
  | .gBge core .. => some core
  | .gCall core .. => some core
  | .gRet core .. => some core
  | .gLoop core .. => some core
  | .gLoopd core .. => some core
  | .gLdil core .. => some core
  | .gWaitf core .. => some core
  | .gEmit core .. => some core
  | .gEvt core .. => some core
  | .gHalt core .. => some core
  | .feedFrameCopy core .. => some core
  | .waitfSatisfied core .. => some core
  | .emitOpenWaitEnd core .. => some core
  | .derivedRecordRelease core .. => some core
  | _ => none

/-- The events of the lanes (02 R50 to R66, 15 R438). -/
def laneEvent (i : Instr) : Bool :=
  match i with
  | .frameLock .. | .lockLoss .. | .markerHypothesisTimeout .. | .fecWindowEnd .. | .bringupStepTimeout .. |
  .bringupRetry .. | .bringupStageDone .. | .txSleepEnter .. | .precodeSwitch .. | .laneTrimWindowEnd .. => true
  | _ => false

/-- The events of the grid (04 R113 to R132, 06 R176 to R187). -/
def gridEvent (i : Instr) : Bool :=
  match i with
  | .cornerTurnHalfFree .. | .channelDwellFinish .. | .stageBlockLoadDone .. | .superTileEnd .. | .narrowFold .. |
  .preemptionPoint .. | .contextSaveDone .. | .contextRestoreDone .. | .repairWorkStart .. | .drainCompare .. => true
  | _ => false

/-- The events of the HBM controller (10 R312 to R338). -/
def memoryEvent (i : Instr) : Bool :=
  match i with
  | .hbmRequestServe .. | .refreshDebtTick .. | .refreshIssue .. | .hbmTempRead .. | .actTableClear .. |
  .patrolScrubRead .. | .retrainTimer .. | .retrainStepDone .. | .pcPowerdownIdle .. | .selfRefreshIdle .. |
  .hbmRateChangeDone .. | .granuleZeroFillDone .. => true
  | _ => false

/-- The events of network time and of the clock root (13 R391 to R412, 14 R418 to R433). -/
def timeEvent (i : Instr) : Bool :=
  match i with
  | .ptpSyncRx .. | .ptpFollowUpRx .. | .ptpAnnounceRx .. | .ptpDelayRespRx .. | .delayReqSend .. |
  .ptpMasterTimeout .. | .ethFrameForward .. | .timeInEdge .. | .timeOutPulse .. | .tportLinkChange .. |
  .refMonitorGateEnd .. | .refActivityFail .. | .phasePullEnd .. | .dpllSettled .. | .holdoverHistoryValid .. => true
  | _ => false

/-- The service port, the core supply and the activation (19 R534 to R538, 20 R549). -/
def portCommand (i : Instr) : Bool :=
  match i with
  | .svcRead .. | .svcStatus .. | .svcIdentify .. | .dlBegin .. | .dlData .. | .dlEnd .. | .dlAbort .. |
  .recoveryBoot .. | .keyProgram .. | .vidStep .. | .vddIoRise .. | .updateActivationTime .. => true
  | _ => false

/-- The events of faults (17 R481 to R492, 14 R416). -/
def errorEvent (i : Instr) : Bool :=
  match i with
  | .logRecordWrite .. | .armLockstep .. | .armHang .. | .armRestartStepTimeout .. | .seqOutvoted .. | .xoLost .. => true
  | _ => false

/-- The pair messages and timers that move no data path (18 R498 to R520). -/
def pairEvent (i : Instr) : Bool :=
  match i with
  | .takeoverComplete .. | .aliveWindowEnd .. | .swapAckDeadline .. | .mirrorRetransmit .. | .pad .. | .reserve .. |
  .chainMsg .. | .swap .. | .syncDone .. => true
  | _ => false

/-- The doorbells and the host link (11 R341 to R365). -/
def queueCommand (i : Instr) : Bool :=
  match i with
  | .sqTailWrite .. | .cqHeadWrite .. | .qpEnable .. | .qpDisable .. | .ringHeadWrite .. | .logHeadWrite .. |
  .queueVisit .. | .clauseReread .. | .followEntryWrite .. | .ucieLinkTrain .. | .ucieLinkDown .. | .ucieLinkUp .. |
  .busMasterEnableChange .. => true
  | _ => false

/-- The rows of the Frieze and the chains, and record delivery (05 R171, 07 R199 to R221, 08 R233 to R259). -/
def rowEvent (i : Instr) : Bool :=
  match i with
  | .friezeRowProcess .. | .delaySwapCopyDone .. | .gainAreaReleased .. | .psumRecordRx .. | .importWindowExpiry .. |
  .chainRowProcess .. | .detectIntervalEnd .. | .captureCopyDone .. | .ringRecordOffer .. | .ringDeclineTimeout .. |
  .ringCoalesceTimeout .. => true
  | _ => false

/-- The events of the HBM controller that change no byte (10 R312 to R338). -/
def keepsBytes (i : Instr) : Bool :=
  match i with
  | .refreshDebtTick .. | .refreshIssue .. | .hbmTempRead .. | .actTableClear .. | .retrainTimer .. |
  .retrainStepDone .. | .pcPowerdownIdle .. | .selfRefreshIdle .. => true
  | _ => false

/-- The events that may poison words (10 R323, R325, R327). -/
def poisonsWords (i : Instr) : Bool :=
  match i with
  | .hbmRequestServe .. | .patrolScrubRead .. => true
  | _ => false

end Sys2Proof.Safety
end

