-- ==== Sys2Proof/Certificates/Slice0/Obligations.lean ====
section
/-! DEFINITION. The statements for the provers: what each family of commands does, what it leaves, the invariant of the block,
and the whole-machine rules. -/

open Sys2Proof Sys2Proof.Machine Sys2Proof.Safety

/-- With a command at the front of the queue, a step is exec of that command on the state with the rest of the queue (R26,
R350). -/
def Obligations.StepRunsFrontCommand : Prop :=
  ∀ (s : State) c rest, s.pending = c :: rest → step s = exec c { s with pending := rest }

/-- On an empty queue a step answers a next state in which only SEC, NS and the fraction of the Plinth differ; NS stays
below 10^9; in reset nothing changes; out of reset the Plinth time in units of 2^-40 ns grows by the increment in
force, modulo 2^48 seconds. That an empty queue stands for a PCLK cycle is the model's choice (log 2) (R389, R390). -/
def Obligations.IdleStepIsOnePclkCycle : Prop :=
  ∀ (s : State), s.pending = [] → s.plinth.ns.toNat < 1000000000 →
    ∃ t, step s = .next t ∧ (∃ p, t = { s with plinth := p } ∧ p.inc = s.plinth.inc ∧ p.latch0 = s.plinth.latch0 ∧
        p.latch1 = s.plinth.latch1 ∧ p.ns.toNat < 1000000000) ∧
      (s.power.inReset = true → t = s) ∧
      (s.power.inReset = false →
        plinthUnits t.plinth = (plinthUnits s.plinth + s.plinth.inc.toNat) % (2 ^ 48 * 1000000000 * 2 ^ 40))

/-- For every command and every state, exec answers a next state: no command of the table ends in a fault or a refusal
(R4, R354, R493). -/
def Obligations.EveryCommandCompletes : Prop :=
  ∀ (c : Instr) (s : State), ∃ t, exec c s = .next t

/-- At State.reset the HBM contents and the X and Y memories of the 32 Gloss cores have their canonical form, and NS of
the Plinth lies below 10^9 (R277, R328, R387, R390). -/
def Obligations.InvHoldsAtReset : Prop :=
  Inv State.reset

/-- From every state with the invariant (canonical HBM contents and Gloss memories, NS below 10^9), a step that answers
next gives a state with it, and the queue is the old one without its front (R277, R324, R387, R389). -/
def Obligations.InvKeptByEveryStep : Prop :=
  ∀ (s t : State), Inv s → step s = .next t → Inv t ∧ t.pending = s.pending.tail

/-- For every well-formed Gloss instruction, with every operand at every value the formats admit, decoding its encoded
words gives the instruction back; the first word fits 32 bits and the second 24 (R279, R290, R291, R297). -/
def Obligations.GlossWordsRoundTrip : Prop :=
  ∀ (g : GInstr), g.wf = true → GInstr.decode g.encode.1 g.encode.2 = some g ∧ g.encode.1 < 2 ^ 32 ∧ g.encode.2 < 2 ^ 24

/-- Each command that clauseOf names is runClause of one body. While Clause service is stopped, or where the bytes taken
from the slot are another Clause's, a Clause leaves the state as it is (logs 1, 87). Where service runs and a check or
the body answers an error status, the answer may change the queue pairs, the interrupt vectors, the error log and the
pair's completions, and nothing else; the role, the commit count and a staged activation stay (R24, R345, R354, R489). -/
def Obligations.RefusedClauseChangesNothing : Prop :=
  (∀ (c : Instr) cl, clauseOf c = some cl → ∃ body, ∀ s, exec c s = runClause c s body) ∧
  ∀ (c : Instr) cl body (s : State), clauseOf c = some cl →
    (s.err.service = false ∨ isTaken s cl = false → runClause c s body = .next s) ∧
    ∀ r, s.err.service = true → isTaken s cl = true →
      (do gate (untake s cl.src) cl; body (untake s cl.src) : Result) = .error r →
      ∃ t, runClause c s body = .next t ∧ SameData s t ∧ t.pair.role = s.pair.role ∧
        t.pair.commitCount = s.pair.commitCount ∧ t.boot.activation = s.boot.activation

/-- Where the stacks in service are distinct, two addresses with the same place (stack, channel, pseudo-channel, bank,
row, column) are one address. The row's two low bits are those of the address order; with hashing off the bank group
and bank are the order's own bits; with it on, each of the four bits is XORed with the parity of the row ANDed with
its mask (R311). -/
def Obligations.HbmMappingOneToOne : Prop :=
  ∀ (s : State),
    (s.hbm.serving.Nodup → ∀ a b p, hbmPlace s a = some p → hbmPlace s b = some p → a = b) ∧
    ∀ a p g f, hbmPlace s a = some p → g = a / granule → f = orderFields (granuleMap s g % 4) (a % granule) →
      p.row % 4 = f.2.2.2.2 ∧ (granuleMap s g < 4 → p.bg = f.2.2.1 ∧ p.ba = f.2.2.2.1) ∧
      (4 ≤ granuleMap s g → ∀ odd : Nat → Bool,
        (∀ m, odd m = (((List.range 15).filter fun k => (p.row &&& m).testBit k).length % 2 == 1)) →
        p.bg.testBit 0 = (f.2.2.1.testBit 0 ^^ odd 0x1249) ∧ p.bg.testBit 1 = (f.2.2.1.testBit 1 ^^ odd 0x2492) ∧
        p.ba.testBit 0 = (f.2.2.2.1.testBit 0 ^^ odd 0x4924) ∧ p.ba.testBit 1 = (f.2.2.2.1.testBit 1 ^^ odd 0x5555))

/-- A pointer update steps the pointer by 0, 1, -1 or K_p. With an extent of 0 the pointer moves modulo 2^15; with a
positive extent and no bit reversal it stays within the extent above BASE_p; with bit reversal the reversed offset, in
the bits of the largest power of two not above the extent, is what steps. Bit reversal exchanges bit j and bit k-1-j.
No other register changes (R280). -/
def Obligations.PointerUpdate : Prop :=
  (∀ (c : Core) p u, update c p u = stepPtr c p (match u with
    | .keep => 0
    | .inc => 1
    | .dec => -1
    | .step => (vget c.k p 0).toInt)) ∧
  (∀ k x j, j < k → (revBits k x).testBit j = x.testBit (k - 1 - j) ∧ revBits k x < 2 ^ k) ∧
  ∀ (c d : Core) (p : Fin 8) (m : Int) (len : Nat) (brev : Bool) (base old : Nat),
    len = (vget c.ext p.val 0).toNat % 65536 → brev = bitOf (vget c.ext p.val 0).toNat 16 →
      base = (vget c.base p.val 0).toNat →
    old = (vget c.p p.val 0).toNat → d = stepPtr c p.val m →
    (∀ q : Fin 8, q ≠ p → vget d.p q.val 0 = vget c.p q.val 0) ∧ d = { c with p := d.p } ∧
    (len = 0 → ((vget d.p p.val 0).toNat : Int) = (old + m) % 32768) ∧
    (0 < len → brev = false → ((vget d.p p.val 0).toNat : Int) = (base + ((old : Int) - base + m) % len) % 32768) ∧
    (0 < len → brev = true → ∀ k, 2 ^ k ≤ len → len < 2 ^ (k + 1) →
      (vget d.p p.val 0).toNat =
        (base + revBits k ((revBits k (((old : Int) - base) % 2 ^ k).toNat + revBits k (m % 2 ^ k).toNat) % 2 ^ k)) %
          32768)

/-- A record offered to a log with fewer than 2 free entries is lost: LOG_LOST and the count since the last LOG_OVERFLOW
record rise, the record index moves on, and ATTN_CAUSE.LOG_OVERFLOW sets. With at least 2 free it is written at the
tail with the next index and the Plinth time. A head write that frees enough after losses writes one LOG_OVERFLOW
record with the count of lost records. Completes under conditions on the state and the operands alone: logRecordWrite,
logHeadWrite (R482). -/
def Obligations.ErrorLogRule : Prop :=
  ∀ (s : State) (f : Fn),
    (∀ e l, l = s.log f → s.power.inReset = false → f = .f0 ∨ inLog1 e = true → logFree l < 2 →
      ∃ t, exec (.logRecordWrite e) s = .next t ∧ t.log f = { l with
        lost := l.lost + 1, lostSince := l.lostSince + 1,
          nextIndex := l.nextIndex + 1 } ∧ t.link.attnCause.getLsbD 7 = true) ∧
    (∀ e l, l = s.log f → s.power.inReset = false → f = .f0 ∨ inLog1 e = true → 2 ≤ logFree l →
      ∃ t, exec (.logRecordWrite e) s = .next t ∧ t.log f = { l with
        entries := tabSet (l.tail.toNat % 1024) { index := l.nextIndex, time := timeField s.now, err := e } l.entries,
        tail := l.tail + 1, nextIndex := l.nextIndex + 1 }) ∧
    ∀ (val : U32) (l : ErrLog), l = s.log f → (val.setWidth 16 - l.head).toNat ≤ (l.tail - l.head).toNat →
      0 < l.lostSince → 2 ≤ logFree { l with head := val.setWidth 16 } →
      ∃ t r, exec (.logHeadWrite f val) s = .next t ∧ (t.log f).lostSince = 0 ∧ (t.log f).tail = l.tail + 1 ∧
        (t.log f).head = val.setWidth 16 ∧ (t.log f).nextIndex = l.nextIndex + 1 ∧ (t.log f).lost = l.lost ∧
        tabGet (l.tail.toNat % 1024) (t.log f).entries = some r ∧ r.err.cause = 0x0E07 ∧ r.err.detail = l.lostSince

/-- levelGain is 12288·sqrt(2n/S2) rounded half to even and limited to 1 to 65,535. A pair with fewer than 65,536 samples
or S2 = 0 gets no gain; one within 1/16 of the gain in use keeps it; any other takes the new gain (R86, R442, R444). -/
def Obligations.LevelTrimGain : Prop :=
  (∀ (n s2 : Nat), 0 < s2 → ∃ r : Nat, levelGain n s2 = max 1 (min 65535 r) ∧
    ((2 * (r : Int) - 1) ^ 2 * s2 ≤ 8 * 12288 ^ 2 * n ∨ r = 0) ∧ 8 * 12288 ^ 2 * n ≤ (2 * r + 1) ^ 2 * s2 ∧
    ((2 * (r : Int) - 1) ^ 2 * s2 = 8 * 12288 ^ 2 * n ∧ 0 < r ∨ (2 * r + 1) ^ 2 * s2 = 8 * 12288 ^ 2 * n → r % 2 = 0)) ∧
  ∀ (s : State) (l : LevelTrim) q n s2 old, old = gainAt s q.1 q.2 s.intake.front → l.replaced.contains q = false →
    (n < 65536 ∨ s2 = 0 → pairGain s l (q, n, s2) = none) ∧
    (65536 ≤ n → 0 < s2 → 16 * ((levelGain n s2 : Int) - old).natAbs ≤ old → pairGain s l (q, n, s2) = some none) ∧
    (65536 ≤ n → 0 < s2 → old < 16 * ((levelGain n s2 : Int) - old).natAbs →
      pairGain s l (q, n, s2) = some (some (q, BitVec.ofNat 16 (levelGain n s2))))

/-- SYS_NOP changes nothing but its answer; SYS_IDENTIFY and SYS_ENVELOPE_QUERY write their blocks to the named buffer;
SYS_RING_DEFINE makes the ring active with head and tail 0 and writes its head-and-tail words; SYS_RING_RELEASE
undefines the ring. Each is stated under: service runs, and the body accepts the parameters. Completes under
conditions on the state and the operands alone: sysNop, sysIdentify, sysRingDefine, sysRingRelease, sysEnvelopeQuery
(R345, R354, R357, R358, R359, R368, R545). -/
def Obligations.SysClausesComplete : Prop :=
  (∀ (src : Src) (s : State), serves s (.sysNop src) = true →
    ∃ t, exec (.sysNop src) s = .next t ∧ SameData s t) ∧
  (∀ (src : Src) (buf : HBuf) (s : State), serves s (.sysIdentify src buf) = true → 64 ≤ buf.len.toNat →
    ∃ t, exec (.sysIdentify src buf) s = .next t ∧ .hostWrite src.fn buf.addr.toNat (identityBlock s) ∈ t.out) ∧
  (∀ (src : Src) (ring vector : U8) (coalesce : U16) (timeUs : U32) (wb : U64) (k : U8) (base : U64) (s : State),
    serves s (.sysRingDefine src ring vector coalesce timeUs wb k base) = true →
    accepts (ringDefine (untake s src) src.fn ring.toNat vector.toNat coalesce.toNat timeUs.toNat wb k.toNat base) =
      true →
    ∃ t, exec (.sysRingDefine src ring vector coalesce timeUs wb k base) s = .next t ∧
      (t.ring src.fn ring.toNat).state = .active ∧ (t.ring src.fn ring.toNat).head = 0 ∧
      (t.ring src.fn ring.toNat).tail = 0 ∧ (t.ring src.fn ring.toNat).base = base ∧
      (t.ring src.fn ring.toNat).k = k.toNat ∧
      .hostWrite src.fn wb.toNat (zeros 8) ∈ t.out) ∧
  (∀ (src : Src) (ring : U8) (s : State), serves s (.sysRingRelease src ring) = true →
    accepts (ringRelease (untake s src) src.fn ring.toNat) = true →
    ∃ t, exec (.sysRingRelease src ring) s = .next t ∧ (t.ring src.fn ring.toNat).state = .undefined) ∧
  (∀ (src : Src) (buf : HBuf) (s : State), serves s (.sysEnvelopeQuery src buf) = true →
    (envelopeBlock (untake s src) src.fn).length ≤ buf.len.toNat →
    ∃ t, exec (.sysEnvelopeQuery src buf) s = .next t ∧
      .hostWrite src.fn buf.addr.toNat (envelopeBlock (untake s src) src.fn) ∈ t.out)

/-- A group define adds the group with its size and world and waits for the lanes; a release removes it; sleep and wake
wait for the transitions; precoding switches after 16 IDLE frames; thresholds apply from the next window; an egress
bind names the group; a loopback sets the mode of the group's lanes. Completes under conditions on the state and the
operands alone: laneGroupDefine, laneGroupRelease, laneSleep, laneWake, laneTxPrecode, laneSetThresholds,
laneEgressBind, diagLoopback (R45, R49, R56, R61, R65, R70, R351, R368, R455, R495). -/
def Obligations.LaneClausesComplete : Prop :=
  (∀ (src : Src) (first code dir : U8) (s : State), serves s (.laneGroupDefine src first code dir) = true →
    accepts (laneDefine (untake s src) src.fn first.toNat code.toNat dir.toNat) = true →
    ∃ t, exec (.laneGroupDefine src first code dir) s = .next t ∧
      (∃ g ∈ (if dir.toNat = 0 then t.osl.rxGroups else t.osl.txGroups),
        g.first = first.toNat ∧ g.code = code.toNat ∧ g.world = worldOf src.fn) ∧
      (t.qp src.fn src.qp.val).waiting.isSome = true) ∧
  (∀ (src : Src) (first dir : U8) (s : State), serves s (.laneGroupRelease src first dir) = true →
    accepts (laneRelease (untake s src) src.fn first.toNat dir.toNat) = true →
    ∃ t, exec (.laneGroupRelease src first dir) s = .next t ∧
      ∀ g ∈ (if dir.toNat = 0 then t.osl.rxGroups else t.osl.txGroups), g.first ≠ first.toNat) ∧
  (∀ (src : Src) (first dir state : U8) (s : State), serves s (.laneSleep src first dir state) = true →
    accepts (laneTransition (untake s src) src.fn first.toNat dir.toNat state.toNat
      (state.toNat == 0 || state.toNat > 3)) = true →
    ∃ t, exec (.laneSleep src first dir state) s = .next t ∧ (t.qp src.fn src.qp.val).waiting.isSome = true) ∧
  (∀ (src : Src) (first dir : U8) (s : State), serves s (.laneWake src first dir) = true →
    accepts (laneTransition (untake s src) src.fn first.toNat dir.toNat 0 false) = true →
    ∃ t, exec (.laneWake src first dir) s = .next t ∧ (t.qp src.fn src.qp.val).waiting.isSome = true) ∧
  (∀ (src : Src) (first enable : U8) (s : State), serves s (.laneTxPrecode src first enable) = true →
    accepts (laneTxPrecode (untake s src) src.fn first.toNat enable.toNat) = true →
    ∃ t, exec (.laneTxPrecode src first enable) s = .next t ∧
      ∀ g, findGroup s 1 first.toNat = some g → ∀ l ∈ groupLaneList g, l < 52 →
        (t.lane l).precodeSwitch = some (enable.toNat == 1, 16)) ∧
  (∀ (src : Src) (first : U8) (threshold : U32) (s : State), serves s (.laneSetThresholds src first threshold) = true →
    accepts (laneThresholds (untake s src) src.fn first.toNat threshold) = true →
    ∃ t, exec (.laneSetThresholds src first threshold) s = .next t ∧
      ∀ g, findGroup s 0 first.toNat = some g → ∀ l ∈ groupLaneList g, l < 52 →
        (t.lane l).nextThreshold.getD (t.lane l).threshold = threshold) ∧
  (∀ (src : Src) (first egress : U8) (s : State), serves s (.laneEgressBind src first egress) = true →
    accepts (laneEgressBind (untake s src) src.fn first.toNat egress.toNat) = true →
    ∃ t, exec (.laneEgressBind src first egress) s = .next t ∧
      (vget t.osl.egress egress.toNat Reset.egress).group = some first.toNat) ∧
  (∀ (src : Src) (first dir mode : U8) (s : State), serves s (.diagLoopback src first dir mode) = true →
    accepts (diagLoopback (untake s src) src.fn first.toNat dir.toNat mode.toNat) = true → mode.toNat ≠ 0 →
    ∃ t, exec (.diagLoopback src first dir mode) s = .next t ∧
      ∀ g, findGroup s dir.toNat first.toNat = some g → ∀ l ∈ groupLaneList g, l < 52 →
        (t.lane l).loopback = mode.toNat)

/-- A stream define fills the table entry and waits for its first frame; a release empties it (at once while the front has
not started); the skew and the epoch take the values named; a gain load waits for its boundary with one gain per pair;
a STATS define adds the product with sequence number 0, a release removes its sums. Completes under conditions on the
state and the operands alone: intakeStreamDefine, intakeStreamRelease, intakeSetSkew, intakeSetEpoch, intakeSetGains,
intakeStatsDefine, intakeStatsRelease (R71, R73, R74, R78, R88, R93, R95, R97, R98, R102, R161). -/
def Obligations.IntakeClausesComplete : Prop :=
  (∀ (src : Src) (stream : U16) (first flags : U8) (inBase inCount chBase chCount : U16) (source : U32) (d : StreamDef)
    (s : State), serves s (.intakeStreamDefine src stream first flags inBase inCount chBase chCount source) = true →
    d = { first := first.toNat, c8 := bitOf flags.toNat 0, inBase := inBase.toNat, inCount := inCount.toNat,
          chBase := chBase.toNat, chCount := chCount.toNat, source := source, world := worldOf src.fn,
          shared := bitOf flags.toNat 1 } →
    accepts (streamDefine (untake s src) src.fn stream.toNat d) = true →
    ∃ t, exec (.intakeStreamDefine src stream first flags inBase inCount chBase chCount source) s = .next t ∧
      (t.stream stream.toNat).entry = some d ∧ (t.stream stream.toNat).state = .waiting) ∧
  (∀ (src : Src) (stream : U16) (s : State), serves s (.intakeStreamRelease src stream) = true →
    accepts (streamRelease (untake s src) src.fn stream.toNat) = true →
    ∃ t, exec (.intakeStreamRelease src stream) s = .next t ∧
      (s.intake.started = false → (t.stream stream.toNat).entry = none ∧ (t.stream stream.toNat).state = .undefined)) ∧
  (∀ (src : Src) (w : U16) (s : State), serves s (.intakeSetSkew src w) = true →
    accepts (setSkew (untake s src) w.toNat) = true →
    ∃ t, exec (.intakeSetSkew src w) s = .next t ∧ (s.intake.started = false → t.intake.skew = w.toNat)) ∧
  (∀ (src : Src) (t0 : U96) (num den tolerance : U32) (s : State),
    serves s (.intakeSetEpoch src t0 num den tolerance) = true →
    accepts (setEpoch (untake s src) t0 num.toNat den.toNat tolerance.toNat) = true →
    ∃ t, exec (.intakeSetEpoch src t0 num den tolerance) s = .next t ∧ t.intake.epochSet = true ∧
      t.intake.t0 = timeOf t0 ∧ t.intake.num = num.toNat ∧ t.intake.den = den.toNat ∧
      t.intake.tolerance = tolerance.toNat) ∧
  (∀ (src : Src) (stream first count chFirst chCount : U16) (buf : HBuf) (data : HRead) (s : State),
    serves s (.intakeSetGains src stream first count chFirst chCount buf data) = true →
    accepts (setGains (untake s src) src.fn stream.toNat first.toNat count.toNat chFirst.toNat chCount.toNat buf data)
      = true →
    ∃ t, exec (.intakeSetGains src stream first count chFirst chCount buf data) s = .next t ∧
      ∃ l ∈ t.intake.gainLoads, l.stream = stream.toNat ∧ l.trim = false ∧
        l.gains.length = count.toNat * chCount.toNat) ∧
  (∀ (src : Src) (pid stream inBase inCount chBase chCount : U16) (log2Int tap : U8) (route : U32) (x : Stats) (s :
    State),
    serves s (.intakeStatsDefine src pid stream inBase inCount chBase chCount log2Int tap route) = true →
    x = { pid := pid.toNat, stream := stream.toNat, inBase := inBase.toNat, inCount := inCount.toNat, chBase := chBase.toNat,
          chCount := chCount.toNat, log2Int := log2Int.toNat, post := false, firstStart := 0, sums := [],
            stale := false,
          rows := 0, stopping := false } →
    accepts (statsDefine (untake s src) src.fn x tap.toNat route) = true →
    ∃ t, exec (.intakeStatsDefine src pid stream inBase inCount chBase chCount log2Int tap route) s = .next t ∧
      (∃ p, t.product pid.toNat = some p ∧ p.kind = .stats ∧ p.route = route ∧ p.world = worldOf src.fn ∧ p.seq = 0) ∧
      ∃ y ∈ t.intake.stats, y.pid = pid.toNat ∧ y.post = (tap.toNat == 1)) ∧
  (∀ (src : Src) (pid : U16) (s : State), serves s (.intakeStatsRelease src pid) = true →
    accepts (statsRelease (untake s src) src.fn pid.toNat) = true →
    ∃ t, exec (.intakeStatsRelease src pid) s = .next t ∧ ∀ x ∈ t.intake.stats, x.pid ≠ pid.toNat)

/-- Maps load under a new handle and are freed; a define adds the product and its fields; release and suspend answer
DONE_DEFERRED with the latest group boundary and stop at it; resume clears the suspension unless a TAKEOVER record is
owed; mode, route, output, snapshot and fault injection take what the Clause names; queries write the report that the
rule lists. Where a suspended product goes at once and where the boundary is counted from are the model's choices
(logs 35 to 37, 80); the layout of a report's bytes is free (log 10). Completes under conditions on the state and the
operands alone: corrInputMapLoad, corrInputMapFree, corrDefine, corrRelease, corrSuspend, corrResume, corrSetMode,
corrSetRoute, corrSetOutput, corrSnapshot, corrPlanQuery, corrIstoreQuery, corrFaultInject (R123, R126, R138, R141,
R143, R146, R156, R159, R166, R170, R174, R198). -/
def Obligations.CorrClausesComplete : Prop :=
  (∀ (src : Src) (buf : HBuf) (data : HRead) (s : State), serves s (.corrInputMapLoad src buf data) = true →
    accepts (mapLoad (untake s src) src.fn buf data) = true →
    ∃ t, exec (.corrInputMapLoad src buf data) s = .next t ∧
      ∃ m ∈ t.maps, m ∉ s.maps ∧ m.world = worldOf src.fn ∧ m.entries.length = buf.len.toNat / 2) ∧
  (∀ (src : Src) (handle : U8) (s : State), serves s (.corrInputMapFree src handle) = true →
    accepts (mapFree (untake s src) src.fn handle.toNat) = true →
    ∃ t, exec (.corrInputMapFree src handle) s = .next t ∧ ∀ m ∈ t.maps, m.handle ≠ handle.toNat) ∧
  (∀ (src : Src) (pid : U16) (handle flags : U8) (chBase chCount : U16) (log2Td : U8) (nInt g : U16) (base : U64)
    (route : U32) (s : State), serves s (.corrDefine src pid handle flags chBase chCount log2Td nInt g base route) =
      true →
    accepts (corrDefine (untake s src) src.fn
      (corrFields pid.toNat handle.toNat flags.toNat chBase.toNat chCount.toNat log2Td.toNat nInt.toNat g.toNat
        base.toNat)
      flags.toNat (bits flags.toNat 3 2) route) = true →
    ∃ t, exec (.corrDefine src pid handle flags chBase chCount log2Td nInt g base route) s = .next t ∧
      (∃ p, t.product pid.toNat = some p ∧ p.kind = .corr ∧ p.route = route ∧ p.world = worldOf src.fn ∧ p.seq = 0) ∧
      ∃ c ∈ t.corrs, c.pid = pid.toNat ∧ c.map = handle.toNat ∧ c.mode = bits flags.toNat 0 2 ∧
        c.nInt = nInt.toNat ∧ c.g = g.toNat ∧ c.istore = base.toNat) ∧
  (∀ (src : Src) (pid : U16) (s : State) (p : Product) (c : Corr), serves s (.corrRelease src pid) = true →
    namedCorr (untake s src) src.fn pid.toNat = .ok (p, c) → stopping c = false →
    exec (.corrRelease src pid) s = .next (if p.suspended then
        answered src 0x0303 (checkStops ((untake s src).setCorr { c with releasing := true }) pid.toNat) (.mk'
          stDeferred 1 (s.intake.front % 2 ^ 64) 0 0)
      else answered src 0x0303 (stopCorr (untake s src) c true).1
        (.mk' stDeferred 1 ((groupBoundaries s c).foldl max 0 * c.td % 2 ^ 64) 0 0))) ∧
  (∀ (src : Src) (pid : U16) (s : State) (p : Product) (c : Corr), serves s (.corrSuspend src pid) = true →
    namedCorr (untake s src) src.fn pid.toNat = .ok (p, c) → stopping c = false → p.suspended = false →
    exec (.corrSuspend src pid) s = .next (answered src 0x0304 (stopCorr (untake s src) c false).1
        (.mk' stDeferred 1 ((groupBoundaries s c).foldl max 0 * c.td % 2 ^ 64) 0 0))) ∧
  (∀ (src : Src) (pid : U16) (s : State), serves s (.corrResume src pid) = true →
    accepts (corrResume (untake s src) src.fn pid.toNat) = true →
    ∃ t, exec (.corrResume src pid) s = .next t ∧
      (s.pair.owedTakeovers = [] → ∃ p, t.product pid.toNat = some p ∧ p.suspended = false)) ∧
  (∀ (src : Src) (pid : U16) (mode : U8) (s : State), serves s (.corrSetMode src pid mode) = true →
    accepts (corrSetMode (untake s src) src.fn pid.toNat mode.toNat) = true →
    ∃ t, exec (.corrSetMode src pid mode) s = .next t ∧
      ∃ c d, t.corr pid.toNat = some c ∧ c.nextModes.getLast? = some (d, mode.toNat)) ∧
  (∀ (src : Src) (pid : U16) (route : U32) (s : State) (p : Product), serves s (.corrSetRoute src pid route) = true →
    findProduct (untake s src) pid.toNat [.corr] 8 = .ok p →
    accepts (setRoute (untake s src) src.fn p route 12) = true →
    ∃ t, exec (.corrSetRoute src pid route) s = .next t ∧
      t.product p.pid = some (changeRoute p route)) ∧
  (∀ (src : Src) (pid : U16) (output : U8) (s : State), serves s (.corrSetOutput src pid output) = true →
    accepts (corrSetOutput (untake s src) src.fn pid.toNat output.toNat) = true →
    ∃ t, exec (.corrSetOutput src pid output) s = .next t ∧
      ∃ c ∈ t.corrs, c.pid = pid.toNat ∧ ∀ g ∈ c.groups, g.output = output.toNat) ∧
  (∀ (src : Src) (pid first count : U16) (area len : U64) (s : State),
    serves s (.corrSnapshot src pid first count area len) = true →
    accepts (corrSnapshot (untake s src) src pid.toNat first.toNat count.toNat area.toNat len.toNat) = true →
    ∃ t, exec (.corrSnapshot src pid first count area len) s = .next t ∧
      ∃ c x, t.corr pid.toNat = some c ∧ c.snap = some x ∧ x.firstGroup = first.toNat ∧ x.groups = count.toNat ∧
        x.area = area.toNat ∧ t.istore.snapProduct = pid.toNat) ∧
  (∀ (src : Src) (buf : HBuf) (s : State), serves s (.corrPlanQuery src buf) = true →
    (Config.reportBytes (planReport (untake s src) src.fn)).length ≤ buf.len.toNat →
    ∃ t, exec (.corrPlanQuery src buf) s = .next t ∧
      .hostWrite src.fn buf.addr.toNat (Config.reportBytes (planReport (untake s src) src.fn)) ∈ t.out) ∧
  (∀ (src : Src) (buf : HBuf) (s : State), serves s (.corrIstoreQuery src buf) = true →
    (Config.reportBytes (storeReport (untake s src) src.fn)).length ≤ buf.len.toNat →
    ∃ t, exec (.corrIstoreQuery src buf) s = .next t ∧
      .hostWrite src.fn buf.addr.toNat (Config.reportBytes (storeReport (untake s src) src.fn)) ∈ t.out) ∧
  (∀ (src : Src) (row pos baseline comp bit mode : U8) (s : State),
    serves s (.corrFaultInject src row pos baseline comp bit mode) = true →
    accepts (faultInject (untake s src) row.toNat pos.toNat baseline.toNat comp.toNat bit.toNat mode.toNat) = true →
    ∃ t, exec (.corrFaultInject src row pos baseline comp bit mode) s = .next t ∧
      t.relief.injects = if mode.toNat = 0 then [] else s.relief.injects ++
        [{ row := row.toNat, pos := pos.toNat, baseline := baseline.toNat, im := comp.toNat == 1, bit := bit.toNat,
           stuck := mode.toNat == 2 }])

/-- A define adds the product, its beams, its gain area and a start at a multiple of T_r; release and suspend answer
DONE_DEFERRED with the next record boundary; resume starts at the next one; the delay Clauses load (and wait for the
load), switch, swap or clear the store; gains, shifts, routes and import bindings take what the Clause names; the
query writes its report. A suspended product goes at once (log 35), and the layout of a report's bytes is free (log
10). Completes under conditions on the state and the operands alone: beamDefine, beamRelease, beamSuspend, beamResume,
beamDelayLoad, beamDelaySwitch, beamDelaySwap, beamDelayMode, beamSetGains, beamSetScale, beamSetRoute,
beamImportBind, beamQuery (R200, R206, R208, R209, R210, R211, R214, R219, R222, R228, R232). -/
def Obligations.BeamClausesComplete : Prop :=
  (∀ (src : Src) (pid : U16) (handle flags : U8) (chBase chCount beams : U16) (beamBase log2T log2Np sh shP : U8)
    (route : U32) (buf : HBuf) (data : HRead) (s : State),
      serves s (.beamDefine src pid handle flags chBase chCount beams beamBase log2T log2Np sh shP route buf data) =
        true →
    accepts (beamDefine (untake s src) src.fn (beamFields pid.toNat handle.toNat flags.toNat chBase.toNat chCount.toNat
      beams.toNat beamBase.toNat log2T.toNat log2Np.toNat sh.toNat shP.toNat) handle.toNat flags.toNat sh.toNat
        shP.toNat
      route buf data) = true →
    ∃ t, exec (.beamDefine src pid handle flags chBase chCount beams beamBase log2T log2Np sh shP route buf data) s =
      .next t ∧
      (∃ p, t.product pid.toNat = some p ∧ p.kind = .beam ∧ p.route = route ∧ p.world = worldOf src.fn ∧ p.seq = 0) ∧
      ∃ p ∈ t.frieze.prods, p.pid = pid.toNat ∧ p.beams = beams.toNat ∧ p.beamBase = beamBase.toNat ∧
        p.map = handle.toNat ∧ p.role = bits flags.toNat 0 2 ∧ p.area = p.ownArea ∧ p.start % 2 ^ log2T.toNat = 0) ∧
  (∀ (src : Src) (pid : U16) (s : State) (p : Product) (x : FzProd), serves s (.beamRelease src pid) = true →
    namedBeam (untake s src) src.fn pid.toNat = .ok (p, x) → x.stop = none → beamChained s x = false →
    exec (.beamRelease src pid) s = .next (if p.suspended then
        answered src 0x0401 (dropFrieze (untake s src) pid.toNat) (.mk' stDeferred 1 (s.intake.front % 2 ^ 64) 0 0)
      else answered src 0x0401 (stopBeam (untake s src) x true).1
        (.mk' stDeferred 1 (nextRecordBoundary s x % 2 ^ 64) 0 0))) ∧
  (∀ (src : Src) (pid : U16) (s : State) (p : Product) (x : FzProd), serves s (.beamSuspend src pid) = true →
    namedBeam (untake s src) src.fn pid.toNat = .ok (p, x) → x.stop = none → p.suspended = false →
    exec (.beamSuspend src pid) s = .next (answered src 0x0402 (stopBeam (untake s src) x false).1
        (.mk' stDeferred 1 (nextRecordBoundary s x % 2 ^ 64) 0 0))) ∧
  (∀ (src : Src) (pid : U16) (s : State), serves s (.beamResume src pid) = true →
    accepts (beamResume (untake s src) src.fn pid.toNat) = true →
    ∃ t, exec (.beamResume src pid) s = .next t ∧
      (s.pair.owedTakeovers = [] → ∃ p x, t.product pid.toNat = some p ∧ p.suspended = false ∧
        t.fzProd pid.toNat = some x ∧ x.stop = none ∧ x.start = roundUp s.intake.front x.tr)) ∧
  (∀ (src : Src) (pid first count : U16) (buf : HBuf) (data : HRead) (s : State),
    serves s (.beamDelayLoad src pid first count buf data) = true →
    accepts (delayLoad (untake s src) src.fn pid.toNat first.toNat count.toNat buf data) = true →
    ∃ t, exec (.beamDelayLoad src pid first count buf data) s = .next t ∧
      (t.qp src.fn src.qp.val).waiting.isSome = true ∧
      t.frieze.bankB = s.frieze.bankB ∧
      (∀ x, s.fzProd pid.toNat = some x → s.frieze.single = false → beamStarted s x = true →
        t.fzProd pid.toNat = some { x with loaded := true })) ∧
  (∀ (src : Src) (time tRef : U96) (s : State), serves s (.beamDelaySwitch src time tRef) = true →
    accepts (delaySwitch (untake s src) time tRef) = true →
    ∃ t, exec (.beamDelaySwitch src time tRef) s = .next t ∧
      t.frieze.switch = some { time := timeOf time, tRef := timeOf tRef,
                               counter := max (s.counterAt (timeOf time)) s.intake.front }) ∧
  (∀ (src : Src) (pid beam : U16) (buf : HBuf) (data : HRead) (s : State),
    serves s (.beamDelaySwap src pid beam buf data) = true →
    accepts (delaySwap (untake s src) src pid.toNat beam.toNat buf data) = true →
    ∃ t, exec (.beamDelaySwap src pid beam buf data) s = .next t ∧
      ∃ x, x.pid = pid.toNat ∧ x.beam = beam.toNat ∧
        if s.frieze.swap = none then t.frieze.swap = some x ∧ x.row = s.intake.front
        else t.frieze.swaps = s.frieze.swaps ++ [x] ∧ (t.qp src.fn src.qp.val).waiting.isSome = true) ∧
  (∀ (src : Src) (mode : U8) (s : State), serves s (.beamDelayMode src mode) = true →
    accepts (delayMode (untake s src) mode.toNat) = true →
    ∃ t, exec (.beamDelayMode src mode) s = .next t ∧ t.frieze.single = (mode.toNat == 1) ∧
      t.frieze.entriesA = [] ∧ t.frieze.entriesB = [] ∧ t.frieze.switch = none) ∧
  (∀ (src : Src) (pid : U16) (which : U8) (area boundary : U64) (s : State),
    serves s (.beamSetGains src pid which area boundary) = true →
    accepts (beamSetGains (untake s src) src pid.toNat which.toNat area.toNat boundary.toNat) = true →
    ∃ t, exec (.beamSetGains src pid which area boundary) s = .next t ∧
      ∃ x c, t.fzProd pid.toNat = some x ∧ x.gainChange = some c ∧ c.src = src ∧
        c.area = (if which.toNat = 0 then x.ownArea else area.toNat) ∧
        c.boundary = (if boundary.toNat = 0 then roundUp (s.counterIn 20000) 256 else boundary.toNat)) ∧
  (∀ (src : Src) (pid first count : U16) (sh shP : U8) (s : State) (x : FzProd),
    serves s (.beamSetScale src pid first count sh shP) = true →
    accepts (beamSetScale (untake s src) src.fn pid.toNat first.toNat count.toNat sh.toNat shP.toNat) = true →
    s.fzProd pid.toNat = some x →
    ∃ t, exec (.beamSetScale src pid first count sh shP) s = .next t ∧
      t.fzProd pid.toNat = some { x with newShifts := x.newShifts ++ ((span first.toNat (first.toNat + count.toNat)).map
        (fun k => (k, nextRecordBoundary s x, if x.format = 2 then shP.toNat else sh.toNat))) }) ∧
  (∀ (src : Src) (pid : U16) (route : U32) (mask : BitVec 256) (s : State),
    serves s (.beamSetRoute src pid route mask) = true →
    accepts (beamSetRoute (untake s src) src.fn pid.toNat route mask.toNat) = true →
    ∃ t, exec (.beamSetRoute src pid route mask) s = .next t ∧
      ∃ p x, t.product pid.toNat = some p ∧ p.routeChange = some { fromSeq := p.seq, route := route } ∧
        t.fzProd pid.toNat = some x ∧ x.emit = emitMask x.beams mask.toNat) ∧
  (∀ (src : Src) (pid : U16) (first : U8) (serial : U32) (remote window : U16) (s : State),
    serves s (.beamImportBind src pid first serial remote window) = true →
    accepts (importBind (untake s src) src.fn pid.toNat first.toNat serial remote.toNat window.toNat) = true →
    ∃ t, exec (.beamImportBind src pid first serial remote window) s = .next t ∧
      ∃ x i, t.fzProd pid.toNat = some x ∧ x.imp = some i ∧ i.group = first.toNat ∧ i.serial = serial ∧
        i.remote = remote.toNat ∧ i.window = window.toNat ∧ i.arrived = []) ∧
  (∀ (src : Src) (buf : HBuf) (s : State), serves s (.beamQuery src buf) = true →
    (Config.reportBytes (beamReport (untake s src) src.fn)).length ≤ buf.len.toNat →
    ∃ t, exec (.beamQuery src buf) s = .next t ∧
      .hostWrite src.fn buf.addr.toNat (Config.reportBytes (beamReport (untake s src) src.fn)) ∈ t.out)

/-- Prototypes load under a free handle and are freed; a define runs the chain on its beam and products; release and
suspend answer DONE_DEFERRED with the chain's boundary; resume starts at its boundary; FIR loads write a bank; switch,
tune, alignment, detection and rebaseline take effect at the index named or the next boundary; a manual capture opens
in a free slot. What an index counts from is the model's choice (logs 35, 40, 45). Completes under conditions on the
state and the operands alone: zoomProtoLoad, zoomProtoFree, zoomDefine, zoomRelease, zoomSuspend, zoomResume,
zoomFirLoad, zoomFirSwitch, zoomSetTune, zoomSetAlign, zoomSetDetect, zoomRebaseline, zoomCaptureNow, zoomSetRoute,
zoomQuery (R233, R236, R239, R244, R245, R250, R259, R261, R268, R271, R369). -/
def Obligations.ZoomClausesComplete : Prop :=
  (∀ (src : Src) (m : U8) (buf : HBuf) (data : HRead) (s : State), serves s (.zoomProtoLoad src m buf data) = true →
    accepts (protoLoad (untake s src) src.fn m.toNat buf data) = true →
    ∃ t, exec (.zoomProtoLoad src m buf data) s = .next t ∧
      ∃ h x, h < 8 ∧ vget s.chisel.protos h none = none ∧ vget t.chisel.protos h none = some x ∧
        x.world = worldOf src.fn ∧
        x.coefs = words32 (data.getD []) (16 * m.toNat) ∧ t.chisel.chains = s.chisel.chains) ∧
  (∀ (src : Src) (handle : U8) (s : State), serves s (.zoomProtoFree src handle) = true →
    accepts (protoFree (untake s src) src.fn handle.toNat) = true →
    ∃ t, exec (.zoomProtoFree src handle) s = .next t ∧ vget t.chisel.protos handle.toNat none = none ∧
      t.chisel.chains = s.chisel.chains) ∧
  (∀ (src : Src) (chain beam : U8) (zoom event capture : U16) (routeZ routeE routeC : U32) (buf : HBuf) (data coefs :
    HRead)
    (us : List ZoomUse) (e c : Option Nat) (s : State),
      serves s (.zoomDefine src chain beam zoom event capture routeZ routeE routeC buf data coefs) = true →
    us = zoomUses zoom.toNat event.toNat capture.toNat routeZ routeE routeC →
    e = (if event.toNat = 0xFFFF then none else some event.toNat) →
    c = (if capture.toNat = 0xFFFF then none else some capture.toNat) →
    accepts (zoomDefine (untake s src) src.fn chain.toNat beam.toNat us e c buf data coefs) = true →
    ∃ t, exec (.zoomDefine src chain beam zoom event capture routeZ routeE routeC buf data coefs) s = .next t ∧
      (t.chain chain.toNat).state = .run ∧ (t.chain chain.toNat).beam = beam.toNat ∧
        (t.chain chain.toNat).zoom = zoom.toNat ∧
      (t.chain chain.toNat).event = e ∧ (t.chain chain.toNat).capture = c ∧
      (t.chain chain.toNat).tune = blockTune (data.getD [])) ∧
  (∀ (src : Src) (chain : U8) (s : State) (c : Chain), serves s (.zoomRelease src chain) = true →
    namedChain (untake s src) src.fn chain.toNat = .ok c → c.stop = none →
    exec (.zoomRelease src chain) s = .next (answered src 0x0503 (if c.state = .suspended then dropChain (untake s src)
      chain.toNat
      else chainStops ((untake s src).setChain chain.toNat { c with stop := some (zoomBoundary c, true) }) chain.toNat)
      (.mk' stDeferred 4 (zoomBoundary c % 2 ^ 64) 0 0))) ∧
  (∀ (src : Src) (chain : U8) (s : State) (c : Chain), serves s (.zoomSuspend src chain) = true →
    namedChain (untake s src) src.fn chain.toNat = .ok c → c.stop = none → c.state = .run →
    exec (.zoomSuspend src chain) s = .next (answered src 0x0504
      (chainStops ((untake s src).setChain chain.toNat { c with stop := some (zoomBoundary c, false) }) chain.toNat)
      (.mk' stDeferred 4 (zoomBoundary c % 2 ^ 64) 0 0))) ∧
  (∀ (src : Src) (chain : U8) (s : State) (c : Chain), serves s (.zoomResume src chain) = true →
    accepts (zoomResume (untake s src) src.fn chain.toNat) = true → c = s.chain chain.toNat →
      s.pair.owedTakeovers = [] →
    ∃ t, exec (.zoomResume src chain) s = .next t ∧ (t.chain chain.toNat).state = .run ∧
      (t.chain chain.toNat).stop = none ∧
      (t.chain chain.toNat).nOut = resumeBoundary s c) ∧
  (∀ (src : Src) (chain bank : U8) (len : U16) (shift : U8) (delay : U16) (buf : HBuf) (data : HRead) (s : State) (b :
    FirBank)
    (c : Chain), serves s (.zoomFirLoad src chain bank len shift delay buf data) = true → c = s.chain chain.toNat →
    b = { coefs := words32 (data.getD []) len.toNat, sh := shift.toNat, delay := delay.toNat } →
    accepts (firLoad (untake s src) src.fn chain.toNat bank.toNat len.toNat shift.toNat delay.toNat buf data) = true →
    ∃ t, exec (.zoomFirLoad src chain bank len shift delay buf data) s = .next t ∧
      t.chain chain.toNat = if bank.toNat = 1 then { c with bankB := b } else { c with bankA := b }) ∧
  (∀ (src : Src) (chain byTime : U8) (fade : U16) (time : U96) (s : State) (c : Chain),
    serves s (.zoomFirSwitch src chain byTime fade time) = true →
    c = s.chain chain.toNat →
    accepts (firSwitch (untake s src) src.fn chain.toNat byTime.toNat fade.toNat time) = true →
    ∃ t, exec (.zoomFirSwitch src chain byTime fade time) s = .next t ∧
      t.chain chain.toNat = { c with switch := some {
        at_ := if byTime.toNat = 1 then indexAt s c (timeOf time) else time.toNat, fade := fade.toNat } }) ∧
  (∀ (src : Src) (chain : U8) (block : BitVec 256) (s : State) (c : Chain),
    serves s (.zoomSetTune src chain block) = true →
    c = s.chain chain.toNat → accepts (setTune (untake s src) src.fn chain.toNat (leBytes 32 block.toNat)) = true →
    ∃ t, exec (.zoomSetTune src chain block) s = .next t ∧
      t.chain chain.toNat = { c with nextTune := some (zoomBoundary c, blockTune (leBytes 32 block.toNat)) }) ∧
  (∀ (src : Src) (chain : U8) (block : BitVec 128) (s : State) (c : Chain),
    serves s (.zoomSetAlign src chain block) = true →
    c = s.chain chain.toNat → accepts (setAlign (untake s src) src.fn chain.toNat (leBytes 16 block.toNat)) = true →
    ∃ t, exec (.zoomSetAlign src chain block) s = .next t ∧
      t.chain chain.toNat = { c with nextAlign := some (zoomBoundary c, blockAlign (leBytes 16 block.toNat)) }) ∧
  (∀ (src : Src) (chain : U8) (block : BitVec 320) (s : State) (c : Chain) (d : Detect) (b : Nat),
    serves s (.zoomSetDetect src chain block) = true → c = s.chain chain.toNat →
      d = blockDetect (leBytes 40 block.toNat) →
    b = roundUp c.nOut (2 ^ d.log2N) →
      accepts (setDetect (untake s src) src.fn chain.toNat (leBytes 40 block.toNat)) = true →
    ∃ t, exec (.zoomSetDetect src chain block) s = .next t ∧
      t.chain chain.toNat = { c with nextDetect := (c.nextDetect.filter fun x => x.1 < b) ++ [(b, d)] }) ∧
  (∀ (src : Src) (chain kind : U8) (value : U64) (s : State) (c : Chain),
    serves s (.zoomRebaseline src chain kind value) = true →
    c = s.chain chain.toNat → accepts (rebaseline (untake s src) src.fn chain.toNat kind.toNat value.toNat) = true →
    ∃ t, exec (.zoomRebaseline src chain kind value) s = .next t ∧
      t.chain chain.toNat = { c with nextRebase := some ((c.nOut / 2 ^ (detectAt c c.nOut).log2N + 1) * 2 ^ (detectAt c c.nOut).log2N,
        if kind.toNat = 0 then .seed else if kind.toNat = 1 then .value value.toNat else .learn) }) ∧
  (∀ (src : Src) (chain : U8) (index : U64) (s : State) (c : Chain) (k : Nat),
    serves s (.zoomCaptureNow src chain index) = true →
    namedChain (untake s src) src.fn chain.toNat = .ok c →
    accepts (captureNow (untake s src) src.fn chain.toNat index.toNat) = true → freeCapSlot s c = some k →
    exec (.zoomCaptureNow src chain index) s = .next (answered src 0x050C
      (openCapture (untake s src) chain.toNat k 0x80 (if index.toNat = 0 then c.nOut else index.toNat))
      (.mk' stDeferred 5 (c.nextCapture % 2 ^ 64) 0 0))) ∧
  (∀ (src : Src) (chain which : U8) (route : U32) (s : State) (c : Chain) (p : Product) (pid : Nat),
    serves s (.zoomSetRoute src chain which route) = true → findChain (untake s src) chain.toNat = .ok c →
    (if which.toNat = 0 then some c.zoom else if which.toNat = 1 then c.event else if which.toNat = 2 then c.capture
      else none) =
      some pid → s.product pid = some p → accepts (setRoute (untake s src) src.fn p route 12) = true →
    ∃ t, exec (.zoomSetRoute src chain which route) s = .next t ∧ t.product p.pid = some (changeRoute p route)) ∧
  (∀ (src : Src) (buf : HBuf) (s : State), serves s (.zoomQuery src buf) = true →
    (Config.reportBytes (chainReport (untake s src) src.fn)).length ≤ buf.len.toNat →
    ∃ t, exec (.zoomQuery src buf) s = .next t ∧
      .hostWrite src.fn buf.addr.toNat (Config.reportBytes (chainReport (untake s src) src.fn)) ∈ t.out)

/-- A load takes the image read from the buffer into P, X, Y and the entry; start runs from the entry or from where a
halted core stands unless a TAKEOVER record is owed; stop halts at the PC and waits; attach defines the DERIVED
product and the attachment; detach numbers its GAP records, answers DONE_DEFERRED with the last sequence number and
finishes (log 82); memory reads and writes move the words named; routes and queries as for other products (log 10).
Completes under conditions on the state and the operands alone: glossLoad, glossStart, glossStop, glossAttach,
glossDetach, glossSetRoute, glossMemRead, glossMemWrite, glossQuery (R274, R275, R292, R298, R301, R302, R304, R354). -/
def Obligations.GlossClausesComplete : Prop :=
  (∀ (src : Src) (core : U8) (buf : HBuf) (data : HRead) (s : State), serves s (.glossLoad src core buf data) = true →
    accepts (glossLoadC (untake s src) src.fn core.toNat buf data) = true →
    ∃ t, exec (.glossLoad src core buf data) s = .next t ∧ (t.core core.toNat).state = .loaded ∧
      (t.core core.toNat).commanded = .loaded ∧ readBuf buf data = .ok (t.core core.toNat).image ∧
      ∃ m, readImage (t.core core.toNat).image = some m ∧ (t.core core.toNat).prog = m.1 ∧
        (t.core core.toNat).x = m.2.1 ∧
        (t.core core.toNat).y = m.2.2.1 ∧ (t.core core.toNat).entry = BitVec.ofNat 14 m.2.2.2) ∧
  (∀ (src : Src) (core : U8) (s : State), serves s (.glossStart src core) = true →
    accepts (glossStartC (untake s src) src.fn core.toNat) = true →
    ∃ t, exec (.glossStart src core) s = .next t ∧
      (s.pair.owedTakeovers = [] → (t.core core.toNat).state = .running ∧
        (t.core core.toNat).pc = (if (s.core core.toNat).state = .loaded then (s.core core.toNat).entry
          else (s.core core.toNat).pc))) ∧
  (∀ (src : Src) (core : U8) (s : State), serves s (.glossStop src core) = true →
    accepts (glossStopC (untake s src) src.fn core.toNat) = true →
    ∃ t, exec (.glossStop src core) s = .next t ∧ (t.qp src.fn src.qp.val).waiting.isSome = true ∧
      (t.core core.toNat).state = .halted ∧
      (t.core core.toNat).commanded = .halted ∧ (t.core core.toNat).pc = (s.core core.toNat).pc) ∧
  (∀ (src : Src) (core log2In : U8) (source derived inBase : U16) (log2Feed log2Slot : U8) (route : U32) (rate : U64)
    (seg0 seg1 seg2 seg3 : U32) (feedBase slotBase : U64) (s : State),
      serves s (.glossAttach src core log2In source derived inBase log2Feed log2Slot route rate seg0 seg1 seg2 seg3
        feedBase slotBase) = true →
    accepts (glossAttachC (untake s src) src.fn core.toNat log2In.toNat source.toNat derived.toNat inBase.toNat
      log2Feed.toNat log2Slot.toNat route rate.toNat [seg0, seg1, seg2, seg3] feedBase.toNat slotBase.toNat) = true →
    ∃ t, exec (.glossAttach src core log2In source derived inBase log2Feed log2Slot route rate seg0 seg1 seg2 seg3
        feedBase slotBase) s = .next t ∧
      (∃ p, t.product derived.toNat = some p ∧ p.kind = .derived ∧ p.route = route ∧ p.world = worldOf src.fn) ∧
      ∃ a, (t.core core.toNat).attach = some a ∧ a.derived = derived.toNat ∧ a.inBase = inBase.toNat ∧
        a.slotBase = slotBase.toNat ∧ a.rate = rate.toNat) ∧
  (∀ (src : Src) (core : U8) (s : State) (c : Core) (a : Attach), serves s (.glossDetach src core) = true →
    namedCore (untake s src) src.fn core.toNat = .ok c → c.attach = some a → a.detaching = false →
    exec (.glossDetach src core) s = .next (answered src 0x0604
      (finishDetach (beginDetach (untake s src) core.toNat a) core.toNat)
      (.mk' stDeferred 3 (((((beginDetach (untake s src) core.toNat a).product a.derived).map Product.seq).getD 0 - 1) %
        2 ^ 64) 0 0))) ∧
  (∀ (src : Src) (core : U8) (route : U32) (s : State), serves s (.glossSetRoute src core route) = true →
    accepts (glossSetRouteC (untake s src) src.fn core.toNat route) = true →
    ∃ t, exec (.glossSetRoute src core route) s = .next t ∧
      ∃ a p, (s.core core.toNat).attach = some a ∧ s.product a.derived = some p ∧
        t.product p.pid = some (changeRoute p route)) ∧
  (∀ (src : Src) (core space : U8) (first count : U16) (buf : HBuf) (s : State),
    serves s (.glossMemRead src core space first count buf) = true →
    accepts (memReadC (untake s src) src core.toNat space.toNat first.toNat count.toNat buf) = true →
    ∃ t, exec (.glossMemRead src core space first count buf) s = .next t ∧
      (4 * count.toNat ≤ buf.len.toNat → .hostWrite src.fn buf.addr.toNat ((List.range count.toNat).flatMap fun k =>
        leBytes 4 (wordGet (first.toNat + k) (spaceWords (s.core core.toNat) space.toNat))) ∈ t.out)) ∧
  (∀ (src : Src) (core space : U8) (first count : U16) (buf : HBuf) (data : HRead) (s : State),
    serves s (.glossMemWrite src core space first count buf data) = true →
    accepts (memWriteC (untake s src) src.fn core.toNat space.toNat first.toNat count.toNat buf data) = true →
    ∃ t, exec (.glossMemWrite src core space first count buf data) s = .next t ∧
      ∃ bs, readBuf buf data = .ok bs ∧ spaceWords (t.core core.toNat) space.toNat =
        wordPutAll first.toNat ((List.range count.toNat).map fun k => field bs (4 * k) 4)
          (spaceWords (s.core core.toNat) space.toNat)) ∧
  (∀ (src : Src) (buf : HBuf) (s : State), serves s (.glossQuery src buf) = true →
    (Config.reportBytes (coreReport (untake s src) src.fn)).length ≤ buf.len.toNat →
    ∃ t, exec (.glossQuery src buf) s = .next t ∧
      .hostWrite src.fn buf.addr.toNat (Config.reportBytes (coreReport (untake s src) src.fn)) ∈ t.out)

/-- Port, servo, output, input, reference, selection and DPLL settings take the values named; TIME_SET loads the Plinth;
TIME_ACCEPT_STEP arms the acceptance and waits; queries write the report that the rule lists, in bytes the spec does
not lay out (log 10). Completes under conditions on the state and the operands alone: timePortSet, timeServoSet,
timeAcceptStep, timeSet, timeOutSet, timeInSet, timeQuery, clockRefSet, clockSelect, clockDpllSet, clockQuery (R391,
R394, R397, R401, R403, R407, R409, R414, R418, R423, R427, R435). -/
def Obligations.TimeClausesComplete : Prop :=
  (∀ (src : Src) (port flags domain : U8) (ip : U32) (mac : BitVec 48) (s : State),
    serves s (.timePortSet src port flags domain ip mac) = true →
    accepts (timePortSet (untake s src) port.toNat flags.toNat domain.toNat ip mac) = true →
    ∃ t, exec (.timePortSet src port flags domain ip mac) s = .next t ∧
      (s.net.foreign = [] → s.net.master = none →
        (t.tport port.toNat).enabled = bitOf flags.toNat 0 ∧ (t.tport port.toNat).udp = bitOf flags.toNat 1 ∧
        (t.tport port.toNat).forward = bitOf flags.toNat 2 ∧ (t.tport port.toNat).ip = ip ∧
        (t.tport port.toNat).mac = mac ∧ ∀ p, p < 2 → (t.tport p).domain = domain.toNat)) ∧
  (∀ (src : Src) (threshold : U32) (code flags : U8) (s : State),
    serves s (.timeServoSet src threshold code flags) = true →
    accepts (timeServoSet (untake s src) threshold.toNat code.toNat flags.toNat) = true →
    ∃ t, exec (.timeServoSet src threshold code flags) s = .next t ∧
      (s.net.servo ≠ .locked → t.net.threshold = threshold.toNat ∧ t.net.code = code.toNat ∧
        t.net.ptpOn = bitOf flags.toNat 0 ∧
        t.net.servo = (if bitOf flags.toNat 0 then (if s.net.servo = .free then .acquire else s.net.servo) else
          .free))) ∧
  (∀ (src : Src) (id : U32) (s : State), serves s (.timeAcceptStep src id) = true →
    accepts (acceptStep (untake s src) id) = true →
    ∃ t, exec (.timeAcceptStep src id) s = .next t ∧ t.net.acceptArmed = true ∧
      (t.qp src.fn src.qp.val).waiting.isSome = true) ∧
  (∀ (src : Src) (time : U96) (s : State), serves s (.timeSet src time) = true →
    accepts (timeSet (untake s src) time) = true →
    ∃ t, exec (.timeSet src time) s = .next t ∧ t.plinth.sec.toNat = timeOf time / second % 2 ^ 48 ∧
      t.plinth.ns.toNat = timeOf time % second / nanos) ∧
  (∀ (src : Src) (pin mode : U8) (width : U32) (start : U96) (period : U64) (s : State),
    serves s (.timeOutSet src pin mode width start period) = true →
    accepts (timeOutSet (untake s src) src.fn pin.toNat mode.toNat width.toNat start period.toNat) = true →
    ∃ t, exec (.timeOutSet src pin mode width start period) s = .next t ∧ ∃ o,
      vget t.net.outs pin.toNat Reset.timeOut = o ∧ o.mode = mode.toNat ∧ o.width = width.toNat ∧ o.sent = 0 ∧
      (mode.toNat ≠ 0 → o.start = timeOf start ∧ o.queue = []) ∧ (mode.toNat = 2 → o.period = period.toNat)) ∧
  (∀ (src : Src) (pin edges enable : U8) (s : State), serves s (.timeInSet src pin edges enable) = true →
    accepts (timeInSet (untake s src) src.fn pin.toNat edges.toNat enable.toNat) = true →
    ∃ t, exec (.timeInSet src pin edges enable) s = .next t ∧ (t.tin src.fn pin.toNat).edges = edges.toNat ∧
      (t.tin src.fn pin.toNat).enabled = (enable.toNat == 1)) ∧
  (∀ (src : Src) (buf : HBuf) (s : State), serves s (.timeQuery src buf) = true →
    (Config.reportBytes (timeReport (untake s src) src.fn)).length ≤ buf.len.toNat →
    ∃ t, exec (.timeQuery src buf) s = .next t ∧
      .hostWrite src.fn buf.addr.toNat (Config.reportBytes (timeReport (untake s src) src.fn)) ∈ t.out) ∧
  (∀ (src : Src) (ref rank : U8) (nominal accept warn reject disqMs requalMs : U32) (s : State),
    serves s (.clockRefSet src ref rank nominal accept warn reject disqMs requalMs) = true →
    accepts (clockRefSet (untake s src) ref.toNat rank.toNat nominal.toNat accept.toNat warn.toNat reject.toNat
      disqMs.toNat
      requalMs.toNat) = true →
    ∃ t, exec (.clockRefSet src ref rank nominal accept warn reject disqMs requalMs) s = .next t ∧
      (t.ref ref.toNat).rank = rank.toNat ∧ (t.ref ref.toNat).nominal = nominal.toNat ∧
      (t.ref ref.toNat).accept = accept.toNat ∧ (t.ref ref.toNat).warnLimit = warn.toNat ∧
      (t.ref ref.toNat).reject = reject.toNat ∧ (t.ref ref.toNat).disqMs = disqMs.toNat ∧
      (t.ref ref.toNat).requalMs = requalMs.toNat) ∧
  (∀ (src : Src) (manual ref : U8) (s : State), serves s (.clockSelect src manual ref) = true →
    accepts (clockSelect (untake s src) manual.toNat ref.toNat) = true →
    ∃ t, exec (.clockSelect src manual ref) s = .next t ∧ t.clock.manual = (manual.toNat == 1) ∧
      (manual.toNat = 1 → t.clock.manualRef = ref.toNat)) ∧
  (∀ (src : Src) (code : U8) (slope disagree : U32) (s : State),
    serves s (.clockDpllSet src code slope disagree) = true →
    accepts (clockDpllSet (untake s src) code.toNat slope.toNat disagree.toNat) = true →
    ∃ t, exec (.clockDpllSet src code slope disagree) s = .next t ∧ t.clock.code = code.toNat ∧
      t.clock.slope = slope.toNat ∧ t.clock.disagreeLimit = disagree.toNat) ∧
  (∀ (src : Src) (buf : HBuf) (s : State), serves s (.clockQuery src buf) = true →
    (Config.reportBytes (clockReport (untake s src))).length ≤ buf.len.toNat →
    ∃ t, exec (.clockQuery src buf) s = .next t ∧
      .hostWrite src.fn buf.addr.toNat (Config.reportBytes (clockReport (untake s src))) ∈ t.out)

/-- TRIM_RUN starts a grid test; the trigger step of the named kind changes; TRIM_SAVE writes the image and TRIM_RESTORE
takes only a whole one, on a standby only its own; a region descriptor takes its fields; a run of resources takes the
world; a quota takes its value where usage allows; the query writes its report (log 10). Completes under conditions on
the state and the operands alone: trimRun, trimSetTrigger, trimSave, trimRestore, worldRegionSet, worldAssign,
worldQuotaSet, worldQuery (R447, R450, R451, R452, R458, R460, R457, R462, R465, R471). -/
def Obligations.TrimWorldClausesComplete : Prop :=
  (∀ (src : Src) (kinds : U8) (which : U16) (s : State), serves s (.trimRun src kinds which) = true →
    accepts (trimRun (untake s src) kinds.toNat which.toNat) = true →
    ∃ t, exec (.trimRun src kinds which) s = .next t ∧
      (bitOf kinds.toNat 2 = true → t.trims.gridTest = some 0 ∧ t.trims.gridDue = s.now)) ∧
  (∀ (src : Src) (kinds : U8) (step : U32) (s : State), serves s (.trimSetTrigger src kinds step) = true →
    accepts (trimSetTrigger (untake s src) kinds.toNat step.toNat) = true →
    ∃ t, exec (.trimSetTrigger src kinds step) s = .next t ∧ t.trims =
      if kinds.toNat = 1 then { s.trims with laneStep := step.toNat }
      else if kinds.toNat = 2 then { s.trims with levelStep := step.toNat }
      else { s.trims with cellStep := step.toNat }) ∧
  (∀ (src : Src) (buf : HBuf) (s : State), serves s (.trimSave src buf) = true →
    (trimImage (untake s src)).length ≤ buf.len.toNat →
    ∃ t, exec (.trimSave src buf) s = .next t ∧ .hostWrite src.fn buf.addr.toNat (trimImage (untake s src)) ∈ t.out) ∧
  (∀ (src : Src) (buf : HBuf) (data : HRead) (s : State), serves s (.trimRestore src buf data) = true →
    accepts (trimRestore (untake s src) buf data) = true →
    ∃ t, exec (.trimRestore src buf data) s = .next t ∧ ∃ bs, readBuf buf data = .ok bs ∧ imageOk bs = true ∧
      (s.pair.role = .standby → field bs 8 8 ≠ Config.serial.toNat → SameData s t)) ∧
  (∀ (src : Src) (desc flags map : U8) (base size : U64) (s : State),
    serves s (.worldRegionSet src desc flags map base size) = true →
    accepts (regionSet (untake s src) desc.toNat flags.toNat map.toNat base.toNat size.toNat) = true →
    ∃ t, exec (.worldRegionSet src desc flags map base size) s = .next t ∧
      vget t.world.regions desc.toNat Reset.region =
        { valid := bitOf flags.toNat 1, world := worldOfBit flags.toNat, map := BitVec.ofNat 3 map.toNat,
          base := base.toNat / granule, size := size.toNat / granule }) ∧
  (∀ (src : Src) (kind : U8) (first count : U16) (world : U8) (s : State),
    serves s (.worldAssign src kind first count world) = true →
    accepts (worldAssign (untake s src) kind.toNat first.toNat count.toNat world.toNat) = true →
    ∃ t, exec (.worldAssign src kind first count world) s = .next t ∧
      ∀ i, first.toNat ≤ i → i < first.toNat + count.toNat → resourceWorld t kind.toNat i = worldOfBit world.toNat) ∧
  (∀ (src : Src) (item : U8) (value : U64) (s : State), serves s (.worldQuotaSet src item value) = true →
    accepts (quotaSet (untake s src) src item.toNat value.toNat) = true →
    ∃ t, exec (.worldQuotaSet src item value) s = .next t ∧
      (usage (untake s src) item.toNat ≤ (value.toNat : Nat) →
        t.world.quotas = vset s.world.quotas item.toNat value.toNat)) ∧
  (∀ (src : Src) (buf : HBuf) (s : State), serves s (.worldQuery src buf) = true →
    (Config.reportBytes (worldReport (untake s src) src.fn)).length ≤ buf.len.toNat →
    ∃ t, exec (.worldQuery src buf) s = .next t ∧
      .hostWrite src.fn buf.addr.toNat (Config.reportBytes (worldReport (untake s src) src.fn)) ∈ t.out)

/-- A pair is configured into FORMING or DISABLED; a swap is proposed for the row of its time; a resynchronisation, a
confirmation and a domain going on wait; an activation is staged; PAIR_QUERY writes its report and UPDATE_QUERY the
newest boot record and the two slots (log 10); an HBM rate change is pending, retraining begins with the read eye, the
stacks are told to sleep or wake; a domain already in the state asked for changes nothing; the error log query writes
the unconsumed records. Completes under conditions on the state and the operands alone: pairConfigure, pairSwap,
pairResync, pairQuery, updateActivate, updateConfirm, updateQuery, powerHbmRate, powerHbmRetrain, powerHbmState,
powerDomain, diagErrorLog (R330, R333, R351, R483, R503, R511, R520, R537, R540, R552, R547, R524). -/
def Obligations.DeviceClausesComplete : Prop :=
  (∀ (src : Src) (enable : U8) (partner : U32) (s : State), serves s (.pairConfigure src enable partner) = true →
    accepts (pairConfigure (untake s src) (bitOf enable.toNat 0) partner) = true →
    ∃ t, exec (.pairConfigure src enable partner) s = .next t ∧
      (if bitOf enable.toNat 0 then t.pair.role = .forming ∧ t.pair.partner = partner else t.pair.role = .disabled)) ∧
  (∀ (src : Src) (time : U96) (s : State), serves s (.pairSwap src time) = true →
    accepts (pairSwap (untake s src) time) = true →
    ∃ t, exec (.pairSwap src time) s = .next t ∧ ∃ x, t.pair.swap = some x ∧ x.acked = false ∧
      x.counter = s.counterAt (if time = 0 then s.now + 1000 * micros else timeOf time)) ∧
  (∀ (src : Src) (s : State), serves s (.pairResync src) = true → accepts (pairResync (untake s src)) = true →
    ∃ t, exec (.pairResync src) s = .next t ∧ (t.qp src.fn src.qp.val).waiting.isSome = true) ∧
  (∀ (src : Src) (buf : HBuf) (s : State), serves s (.pairQuery src buf) = true →
    (Config.reportBytes (pairReport (untake s src) src.fn)).length ≤ buf.len.toNat →
    ∃ t, exec (.pairQuery src buf) s = .next t ∧
      .hostWrite src.fn buf.addr.toNat (Config.reportBytes (pairReport (untake s src) src.fn)) ∈ t.out) ∧
  (∀ (src : Src) (slot : U8) (time : U96) (s : State), serves s (.updateActivate src slot time) = true →
    accepts (updateActivate (untake s src) slot.toNat time) = true →
    ∃ t, exec (.updateActivate src slot time) s = .next t ∧ t.boot.activation = some (slot.toNat, timeOf time)) ∧
  (∀ (src : Src) (slot : U8) (s : State), serves s (.updateConfirm src slot) = true → s.boot.trial = true →
    slot.toNat = s.boot.runSlot →
    ∃ t, exec (.updateConfirm src slot) s = .next t ∧ (t.qp src.fn src.qp.val).waiting.isSome = true) ∧
  (∀ (src : Src) (buf : HBuf) (s : State), serves s (.updateQuery src buf) = true →
    accepts (updateQuery (untake s src) src buf) = true →
    ∃ t, exec (.updateQuery src buf) s = .next t ∧
      ∃ x, .hostWrite src.fn buf.addr.toNat (x ++ slotBlock s 0 ++ slotBlock s 1) ∈ t.out ∧
        ∀ r, newestRecord s = some r → x = r.2) ∧
  (∀ (src : Src) (rate : U16) (s : State), serves s (.powerHbmRate src rate) = true →
    accepts (hbmRate (untake s src) src rate.toNat) = true →
    ∃ t, exec (.powerHbmRate src rate) s = .next t ∧
      (if rate.toNat = s.hbm.rate then t.hbm = s.hbm else t.hbm.ratePending = some rate.toNat)) ∧
  (∀ (src : Src) (s : State), serves s (.powerHbmRetrain src) = true →
    ∃ t, exec (.powerHbmRetrain src) s = .next t ∧
      (s.hbm.step = .idle → s.hbm.ready = true → s.hbm.ratePending = none →
        t.hbm.step = .readEye ∧ t.hbm.stepTime = s.now)) ∧
  (∀ (src : Src) (state mask : U8) (s : State), serves s (.powerHbmState src state mask) = true →
    accepts (hbmState (untake s src) state.toNat mask.toNat) = true →
    ∃ t, exec (.powerHbmState src state mask) s = .next t ∧ (state.toNat = 2 → t.hbm.sleeping = true) ∧
      (state.toNat = 0 → t.hbm.sleeping = false)) ∧
  (∀ (src : Src) (domain off : U8) (limit : U32) (s : State), serves s (.powerDomain src domain off limit) = true →
    accepts (powerDomain (untake s src) domain.toNat off.toNat limit.toNat) = true →
    ∃ t, exec (.powerDomain src domain off limit) s = .next t ∧
      (s.power.domainOn.getLsbD domain.toNat = (off.toNat == 0) → SameData s t) ∧
      (s.power.domainOn.getLsbD domain.toNat = false → off.toNat = 0 →
        (t.qp src.fn src.qp.val).waiting.isSome = true ∧ t.power.changing = s.power.changing ++
          [{ domain := domain.toNat, off := false,
             limit := s.now + (if limit.toNat = 0 then 100 else limit.toNat) * micros }])) ∧
  (∀ (src : Src) (buf : HBuf) (s : State), serves s (.diagErrorLog src buf) = true →
    ((unconsumed ((untake s src).log src.fn)).flatMap errBytes).length ≤ buf.len.toNat →
    ∃ t, exec (.diagErrorLog src buf) s = .next t ∧
      .hostWrite src.fn buf.addr.toNat ((unconsumed ((untake s src).log src.fn)).flatMap errBytes) ∈ t.out)

/-- MPY, MAC, MSU, DMAC, CMACH, CMACL, CMACJL and PWR each run where the core runs them: the accumulators named hold the
true result modulo 2^56, the others what they held, AV sets where a true result does not fit, Z and N stay (log 48),
and every other register and every other core keeps its value but for the transfer. Completes under conditions on the
state and the operands alone: gMpy, gMac, gMsu, gDmac, gCmach, gCmacl, gCmacjl, gPwr (R276, R279, R282, R283, R286,
R291). -/
def Obligations.GlossMultiplyResults : Prop :=
  ∀ (i : Fin 32) (f : PF) (e : Ecc) (s : State) (c : Core) (a b : Nat) (m n m' n' : Int),
    c = s.core i.val → a = f.a.val → b = other a → m = c.vr f.m.val → n = c.vr f.n.val →
    m' = c.vr (partner f.m.val) → n' = c.vr (partner f.n.val) →
    (runs s i.val (.p .mpy f) e = true → ∃ t, exec (.gMpy i f e) s = .next t ∧ multiplied s t i.val e [(a, m * n)]) ∧
    (runs s i.val (.p .mac f) e = true → ∃ t, exec (.gMac i f e) s = .next t ∧
      multiplied s t i.val e [(a, c.wr a + m * n)]) ∧
    (runs s i.val (.p .msu f) e = true → ∃ t, exec (.gMsu i f e) s = .next t ∧
      multiplied s t i.val e [(a, c.wr a - m * n)]) ∧
    (runs s i.val (.p .dmac f) e = true → ∃ t, exec (.gDmac i f e) s = .next t ∧
      multiplied s t i.val e [(a, c.wr a + m * n), (b, c.wr b + m' * n')]) ∧
    (runs s i.val (.p .cmach f) e = true → ∃ t, exec (.gCmach i f e) s = .next t ∧
      multiplied s t i.val e [(a, c.wr a + m * n), (b, c.wr b + m * n')]) ∧
    (runs s i.val (.p .cmacl f) e = true → ∃ t, exec (.gCmacl i f e) s = .next t ∧
      multiplied s t i.val e [(a, c.wr a - m' * n'), (b, c.wr b + m' * n)]) ∧
    (runs s i.val (.p .cmacjl f) e = true → ∃ t, exec (.gCmacjl i f e) s = .next t ∧
      multiplied s t i.val e [(a, c.wr a + m' * n'), (b, c.wr b - m' * n)]) ∧
    (runs s i.val (.p .pwr f) e = true → ∃ t, exec (.gPwr i f e) s = .next t ∧
      multiplied s t i.val e [(a, c.wr a + m * m + m' * m')])

/-- CLR, ADD, SUB, ADDQ, SUBQ, ADDW, SUBW, TFR, NEG, ABS, ASR, ASL, LDQ, TST, NOP and BFLY give the accumulator their true
result modulo 2^56, AV where it does not fit, and Z and N from what the accumulator holds; NOP and TST write no
accumulator. That the ALU sets Z and N is the reading of log 48; BFLY on one accumulator twice leaves it free (log
49). Completes under conditions on the state and the operands alone: gClr, gAdd, gSub, gAddq, gSubq, gAddw, gSubw,
gTfr, gNeg, gAbs, gAsr, gAsl, gLdq, gTst, gNop, gBfly (R276, R279, R282, R283, R285, R286, R291). -/
def Obligations.GlossAluResults : Prop :=
  ∀ (i : Fin 32) (f : PF) (e : Ecc) (s : State) (c : Core) (a : Nat) (m : Int),
    c = s.core i.val → a = f.a.val → m = c.vr f.m.val →
    (runs s i.val (.p .clr f) e = true → ∃ t, exec (.gClr i f e) s = .next t ∧ computed s t i.val e a 0) ∧
    (runs s i.val (.p .add f) e = true → ∃ t, exec (.gAdd i f e) s = .next t ∧ computed s t i.val e a (c.wr a + m)) ∧
    (runs s i.val (.p .sub f) e = true → ∃ t, exec (.gSub i f e) s = .next t ∧ computed s t i.val e a (c.wr a - m)) ∧
    (runs s i.val (.p .addq f) e = true → ∃ t, exec (.gAddq i f e) s = .next t ∧
      computed s t i.val e a (c.wr a + m * 2 ^ 23)) ∧
    (runs s i.val (.p .subq f) e = true → ∃ t, exec (.gSubq i f e) s = .next t ∧
      computed s t i.val e a (c.wr a - m * 2 ^ 23)) ∧
    (runs s i.val (.p .addw f) e = true → ∃ t, exec (.gAddw i f e) s = .next t ∧
      computed s t i.val e a (c.wr a + c.wr f.n.val)) ∧
    (runs s i.val (.p .subw f) e = true → ∃ t, exec (.gSubw i f e) s = .next t ∧
      computed s t i.val e a (c.wr a - c.wr f.n.val)) ∧
    (runs s i.val (.p .tfr f) e = true → ∃ t, exec (.gTfr i f e) s = .next t ∧ computed s t i.val e a (c.wr f.n.val)) ∧
    (runs s i.val (.p .neg f) e = true → ∃ t, exec (.gNeg i f e) s = .next t ∧ computed s t i.val e a (-c.wr a)) ∧
    (runs s i.val (.p .abs f) e = true → ∃ t, exec (.gAbs i f e) s = .next t ∧
      computed s t i.val e a ((c.wr a).natAbs : Nat)) ∧
    (runs s i.val (.p .asr f) e = true → ∃ t, exec (.gAsr i f e) s = .next t ∧
      computed s t i.val e a (c.wr a / (2 ^ (f.n.val + 1) : Nat))) ∧
    (runs s i.val (.p .asl f) e = true → ∃ t, exec (.gAsl i f e) s = .next t ∧
      computed s t i.val e a (c.wr a * (2 ^ (f.n.val + 1) : Nat))) ∧
    (runs s i.val (.p .ldq f) e = true → ∃ t, exec (.gLdq i f e) s = .next t ∧ computed s t i.val e a (m * 2 ^ 23)) ∧
    (runs s i.val (.p .tst f) e = true → ∃ t, exec (.gTst i f e) s = .next t ∧ PDone c (t.core i.val) [] ∧
      (t.core i.val).z = decide (c.wr a = 0) ∧ (t.core i.val).n = decide (c.wr a < 0) ∧ coreOnly s t i.val e) ∧
    (runs s i.val (.p .nop f) e = true → ∃ t, exec (.gNop i f e) s = .next t ∧ PDone c (t.core i.val) [] ∧
      (t.core i.val).z = c.z ∧ (t.core i.val).n = c.n ∧ coreOnly s t i.val e) ∧
    (runs s i.val (.p .bfly f) e = true → ∃ t, exec (.gBfly i f e) s = .next t ∧
      (t.core i.val).pc = (advance c).pc ∧
      (a ≠ f.n.val % 4 → PDone c (t.core i.val) [(a, c.wr a + c.wr f.n.val), (f.n.val % 4, c.wr a - c.wr f.n.val)] ∧
        coreOnly s t i.val e))

/-- MOV, LDI, RND, EXPW, PADDI, SETBS, SETEX, CLRF, BEXPR and the register LDW write the register they name with the value
the spec gives; RND limits to 24 bits, sets SAT and lowers BX; CLRF clears the flags named; BEXPR reads BX and sets it
to 23; the core moves on and only it changes. That V and K are signed in a move is the reading of log 47. Completes
under conditions on the state and the operands alone: gMov, gLdi, gRnd, gExpw, gPaddi, gSetbs, gSetex, gClrf, gBexpr,
gLdw (R276, R280, R283, R284, R286, R288, R291). -/
def Obligations.GlossRegisterOps : Prop :=
  ∀ (i : Fin 32) (f : RF) (e : Ecc) (s : State) (c : Core), c = s.core i.val →
    (runs s i.val (.r .mov f) e = true → ∃ t, exec (.gMov i f e) s = .next t ∧ coreOnly s t i.val e ∧
      ∃ r, r = readied c (.r .mov f) e ∧
        t.core i.val = spend (advance (writeReg r f.dst.val (readReg r i.val f.src.val))) 1 0) ∧
    (runs s i.val (.r .ldi f) e = true → ∃ t, exec (.gLdi i f e) s = .next t ∧ coreOnly s t i.val e ∧
      t.core i.val = spend (advance (writeReg (readied c (.r .ldi f) e) f.dst.val f.imm.toInt)) 1 0) ∧
    (runs s i.val (.r .rnd f) e = true → ∃ t, exec (.gRnd i f e) s = .next t ∧ coreOnly s t i.val e ∧
      movedOn c (t.core i.val) ∧ ∃ x, x = clampAbs (roundHE (c.wr f.src.val) (2 ^ (f.imm.toNat % 32))) 8388607 ∧
        (t.core i.val).v = vset c.v (f.dst.val % 8) (BitVec.ofInt 24 x.1) ∧ (t.core i.val).sat = (c.sat || x.2) ∧
        (t.core i.val).bx = BitVec.ofNat 5 (min c.bx.toNat (redundant 24 x.1)) ∧ (t.core i.val).w = c.w) ∧
    (runs s i.val (.r .expw f) e = true → ∃ t, exec (.gExpw i f e) s = .next t ∧ coreOnly s t i.val e ∧
      movedOn c (t.core i.val) ∧ (t.core i.val).w = c.w ∧
        (t.core i.val).v = vset c.v (f.dst.val % 8) (BitVec.ofInt 24 (redundant 56 (c.wr f.src.val) : Nat))) ∧
    (runs s i.val (.r .paddi f) e = true → ∃ t, exec (.gPaddi i f e) s = .next t ∧ coreOnly s t i.val e ∧
      movedOn c (t.core i.val) ∧ (t.core i.val).v = c.v ∧
        (t.core i.val).p = vset c.p (f.dst.val % 8) (BitVec.ofInt 15 ((c.pr f.dst.val : Int) + f.imm.toInt))) ∧
    (runs s i.val (.r .setbs f) e = true → ∃ t, exec (.gSetbs i f e) s = .next t ∧ coreOnly s t i.val e ∧
      movedOn c (t.core i.val) ∧ (t.core i.val).ext = c.ext ∧ (t.core i.val).base =
        vset c.base (f.dst.val % 8) (BitVec.ofInt 15 (readReg (readied c (.r .setbs f) e) i.val f.src.val))) ∧
    (runs s i.val (.r .setex f) e = true → ∃ t, exec (.gSetex i f e) s = .next t ∧ coreOnly s t i.val e ∧
      movedOn c (t.core i.val) ∧ (t.core i.val).base = c.base ∧ (t.core i.val).ext =
        vset c.ext (f.dst.val % 8) (BitVec.ofInt 17 (readReg (readied c (.r .setex f) e) i.val f.src.val))) ∧
    (runs s i.val (.r .clrf f) e = true → ∃ t, exec (.gClrf i f e) s = .next t ∧ coreOnly s t i.val e ∧
      movedOn c (t.core i.val) ∧ (t.core i.val).z = c.z ∧ (t.core i.val).n = c.n ∧
        (t.core i.val).av = (c.av && !bitOf f.imm.toNat 0) ∧ (t.core i.val).sat = (c.sat && !bitOf f.imm.toNat 1) ∧
        (t.core i.val).eov = (c.eov && !bitOf f.imm.toNat 2)) ∧
    (runs s i.val (.r .bexpr f) e = true → ∃ t, exec (.gBexpr i f e) s = .next t ∧ coreOnly s t i.val e ∧
      movedOn c (t.core i.val) ∧ (t.core i.val).bx = 23 ∧
        (t.core i.val).v = vset c.v (f.dst.val % 8) (BitVec.ofInt 24 (c.bx.toNat : Nat))) ∧
    (runs s i.val (.r .ldw f) e = true → ∃ t, exec (.gLdw i f e) s = .next t ∧ coreOnly s t i.val e ∧
      movedOn c (t.core i.val) ∧ (t.core i.val).z = c.z ∧ (t.core i.val).n = c.n ∧ (t.core i.val).w =
        vset c.w (f.dst.val % 4) (BitVec.ofInt 56 (readReg (readied c (.r .ldw f) e) i.val f.src.val)))

/-- LD and LDW read, ST and STW write the word at the pointer's value before its update, and every other word of X and Y
reads as before; STW rounds and limits to 24 bits and sets SAT; SAVW and RSTW move an accumulator as three words; the
pointer then updates. Completes under conditions on the state and the operands alone: gLd, gSt, gStw, gLdwMem, gSavw,
gRstw (R277, R280, R281, R284, R286, R291). -/
def Obligations.GlossMemoryOps : Prop :=
  ∀ (i : Fin 32) (f : MF) (e : Ecc) (s : State) (c : Core) (a : Nat),
    c = s.core i.val → a = c.pr f.ptr.val → wordWfFrom 0 c.x = true → wordWfFrom 0 c.y = true →
    (runs s i.val (.m .ld f) e = true → ∃ t, exec (.gLd i f e) s = .next t ∧ coreOnly s t i.val e ∧
      movedOn c (t.core i.val) ∧ (t.core i.val).v = vset c.v f.reg.val (BitVec.ofInt 24 (c.loadS f.inY a)) ∧
      (t.core i.val).p = (update c f.ptr.val f.upd).p ∧ (t.core i.val).x = c.x ∧ (t.core i.val).y = c.y) ∧
    (runs s i.val (.m .st f) e = true → ∃ t, exec (.gSt i f e) s = .next t ∧ coreOnly s t i.val e ∧
      movedOn c (t.core i.val) ∧ (t.core i.val).load f.inY a = (BitVec.ofInt 24 (c.vr f.reg.val)).toNat ∧
      (∀ inY b, (inY ≠ f.inY ∨ b ≠ a) → (t.core i.val).load inY b = c.load inY b) ∧
      (t.core i.val).p = (update c f.ptr.val f.upd).p ∧ (t.core i.val).v = c.v) ∧
    (runs s i.val (.m .stw f) e = true → ∃ t, exec (.gStw i f e) s = .next t ∧ coreOnly s t i.val e ∧
      movedOn c (t.core i.val) ∧ ∃ x, x = clampAbs (roundHE (c.wr f.reg.val) (2 ^ f.sh.val)) 8388607 ∧
        (t.core i.val).load f.inY a = (BitVec.ofInt 24 x.1).toNat ∧
        (∀ inY b, (inY ≠ f.inY ∨ b ≠ a) → (t.core i.val).load inY b = c.load inY b) ∧
        (t.core i.val).sat = (c.sat || x.2) ∧ (t.core i.val).p = (update c f.ptr.val f.upd).p ∧
          (t.core i.val).w = c.w) ∧
    (runs s i.val (.m .ldw f) e = true → ∃ t, exec (.gLdwMem i f e) s = .next t ∧ coreOnly s t i.val e ∧
      movedOn c (t.core i.val) ∧ (t.core i.val).w = vset c.w (f.reg.val % 4) (BitVec.ofInt 56 (c.loadS f.inY a)) ∧
      (t.core i.val).p = (update c f.ptr.val f.upd).p ∧ (t.core i.val).x = c.x ∧ (t.core i.val).y = c.y) ∧
    (runs s i.val (.m .savw f) e = true → ∃ t, exec (.gSavw i f e) s = .next t ∧ coreOnly s t i.val e ∧
      t.core i.val = spend (advance (putWords (readied c (.m .savw f) e) f.inY f.ptr.val f.upd
        (accWords (vget c.w (f.reg.val % 4) 0)))) 3 0) ∧
    (runs s i.val (.m .rstw f) e = true → ∃ t, exec (.gRstw i f e) s = .next t ∧ coreOnly s t i.val e ∧
      ∃ l r, (l, r) = takeWords f.inY f.ptr.val f.upd 3 (readied c (.m .rstw f) e) ∧
        t.core i.val = spend (advance { r with w := vset r.w (f.reg.val % 4) (BitVec.ofNat 56
          (l.getD 0 0 + l.getD 1 0 * 2 ^ 24 + l.getD 2 0 % 256 * 2 ^ 48)) }) 3 0)

/-- A taken branch goes to its target and pops loops, an untaken one goes on; CALL and RET use the call stack; LOOP and
LOOPD push a loop, LOOPD with a count of 0 skips the body; LDIL takes two words; WAITF goes on or waits; EVT raises
its events; HALT halts after itself. Completes under conditions on the state and the operands alone: gBra, gBeq, gBne,
gBlt, gBge, gCall, gRet, gLoop, gLoopd, gLdil, gWaitf, gEvt, gHalt (R274, R286, R287, R290, R291, R294). -/
def Obligations.GlossControlFlow : Prop :=
  ∀ (i : Fin 32) (g : BitVec 14) (e : Ecc) (s : State) (c : Core), c = s.core i.val →
    let goes (t : State) (b : Bool) : Prop := coreOnly s t i.val e ∧ (t.core i.val).calls = c.calls ∧
      (if b then (t.core i.val).pc = g ∧ (t.core i.val).loops = popLoops g.toNat c.loops
       else (t.core i.val).pc = c.pc + 1 ∧ (t.core i.val).loops = c.loops)
    (runs s i.val (.branch .bra g) e = true → ∃ t, exec (.gBra i g e) s = .next t ∧ goes t true) ∧
    (runs s i.val (.branch .beq g) e = true → ∃ t, exec (.gBeq i g e) s = .next t ∧ goes t c.z) ∧
    (runs s i.val (.branch .bne g) e = true → ∃ t, exec (.gBne i g e) s = .next t ∧ goes t (!c.z)) ∧
    (runs s i.val (.branch .blt g) e = true → ∃ t, exec (.gBlt i g e) s = .next t ∧ goes t c.n) ∧
    (runs s i.val (.branch .bge g) e = true → ∃ t, exec (.gBge i g e) s = .next t ∧ goes t (!c.n)) ∧
    (runs s i.val (.branch .call g) e = true → c.calls.length < 8 → ∃ t, exec (.gCall i g e) s = .next t ∧
      coreOnly s t i.val e ∧ (t.core i.val).pc = g ∧ (t.core i.val).calls = nextAddr c.pc.toNat :: c.calls ∧
      (t.core i.val).loops = c.loops) ∧
    (∀ r rest, runs s i.val (.branch .ret g) e = true → c.calls = r :: rest → ∃ t, exec (.gRet i g e) s = .next t ∧
      coreOnly s t i.val e ∧ (t.core i.val).pc = BitVec.ofNat 14 r ∧ (t.core i.val).calls = rest ∧
      (t.core i.val).loops = c.loops) ∧
    (∀ n, runs s i.val (.loop n g) e = true → c.loops.length < 4 → ∃ t, exec (.gLoop i n g e) s = .next t ∧
      coreOnly s t i.val e ∧ (t.core i.val).pc = c.pc + 1 ∧
      (t.core i.val).loops = { first := nextAddr c.pc.toNat, last := g.toNat, left := n.toNat + 1 } :: c.loops) ∧
    (∀ v, runs s i.val (.loopd v g) e = true → c.loops.length < 4 → ∃ t, exec (.gLoopd i v g e) s = .next t ∧
      coreOnly s t i.val e ∧
      (if c.vr v.val % 65536 = 0 then (t.core i.val).pc = BitVec.ofNat 14 (loopEnd g.toNat c.loops).2 ∧
          (t.core i.val).loops = (loopEnd g.toNat c.loops).1
       else (t.core i.val).pc = c.pc + 1 ∧ (t.core i.val).loops =
          { first := nextAddr c.pc.toNat, last := g.toNat, left := (c.vr v.val % 65536).toNat } :: c.loops)) ∧
    (∀ d x, runs s i.val (.ldil d x) e = true → ∃ t, exec (.gLdil i d x e) s = .next t ∧ coreOnly s t i.val e ∧
      t.core i.val = spend (skip (writeReg (readied c (.ldil d x) e) d.val (toSigned 24 x.toNat)) 2) 2 0) ∧
    (runs s i.val (.waitf g) e = true → (if g = 0 then 16384 else g.toNat) ≤ inboundLen c →
      ∃ t, exec (.gWaitf i g e) s = .next t ∧ coreOnly s t i.val e ∧
      (if (if g = 0 then 16384 else g.toNat) ≤ inboundHeld c then (t.core i.val).pc = c.pc + 1 ∧
        (t.core i.val).waiting = none
       else (t.core i.val).pc = c.pc ∧ ∃ u,
         (t.core i.val).waiting = some (.waitf (if g = 0 then 16384 else g.toNat) u))) ∧
    (∀ n, runs s i.val (.evt n) e = true → ∃ t, exec (.gEvt i n e) s = .next t ∧ (t.core i.val).pc = c.pc + 1 ∧
      (t.core i.val).evt = c.evt ||| BitVec.ofNat 8 (2 ^ n.val)) ∧
    (runs s i.val .halt e = true → ∃ t, exec (.gHalt i e) s = .next t ∧ coreOnly s t i.val e ∧
      (t.core i.val).state = .halted ∧ (t.core i.val).pc = c.pc + 1)

/-- A piece adds n words in its packing to the open record, up to the slot's room, and changes no HBM byte outside that
piece; OPEN without an attachment waits; OPEN with a free slot takes it and its first 20 words are the header.
Completes under conditions on the state and the operands alone: gEmit (R296, R297, R298, R299). -/
def Obligations.GlossEmitPieces : Prop :=
  ∀ (i : Fin 32) (f : EF) (e : Ecc) (s : State) (c : Core), c = s.core i.val → runs s i.val (.emit f) e = true →
    f.mode.val < 5 →
    (∀ a o, c.attach = some a → c.opened = some o → f.opn = false → f.cls = false → 1 ≤ c.vr f.v.val →
      c.vr f.v.val ≤ 32768 →
      ∃ t, exec (.gEmit i f e) s = .next t ∧ (t.core i.val).pc = c.pc + 1 ∧
        (∃ p, (t.core i.val).opened = some p ∧ p.header = o.header ∧ p.slot = o.slot ∧
          p.len = o.len + min (slotRoom a - o.len) (packWidth f.mode.val * (c.vr f.v.val).toNat)) ∧
        ∀ b, (b < slotAddr a o.slot + 64 + o.len ∨
            slotAddr a o.slot + 64 + o.len + min (slotRoom a - o.len) (packWidth f.mode.val * (c.vr f.v.val).toNat) ≤
              b) →
          memGet b t.hbm.mem = memGet b s.hbm.mem) ∧
    (c.attach = none → c.opened = none → f.opn = true →
      ∃ t u, exec (.gEmit i f e) s = .next t ∧
        t.core i.val = { readied c (.emit f) e with waiting := some (.emitOpen f u) }) ∧
    (∀ a, c.attach = some a → a.detaching = false → c.opened = none → f.opn = true → (vget c.slots 0 .opened = .free) →
      f.cls = false → 20 ≤ c.vr f.v.val → c.vr f.v.val ≤ 32768 →
      ∃ t, exec (.gEmit i f e) s = .next t ∧ (t.core i.val).pc = c.pc + 1 ∧
        ∃ p, (t.core i.val).opened = some p ∧ p.slot = 0 ∧ p.header.length = 20 ∧
          p.len = min (slotRoom a) (packWidth f.mode.val * ((c.vr f.v.val).toNat - 20)))

/-- A call on a full call stack, a return on an empty one, a loop on a full loop stack, a WAITF without an attachment, an
EMIT of a reserved mode or out of sequence, and an uncorrectable program word each stop the core before the
instruction completes: it is FAULTED, LAST_TRAP holds the PC and the cause, its open record is discarded, its
accumulators, V registers and memories stay. Completes under conditions on the state and the operands alone: gCall,
gRet, gLoop, gLoopd, gWaitf, gEmit, gBra (R274, R286, R294, R296, R297, R300, R303). -/
def Obligations.GlossTrapsStop : Prop :=
  ∀ (i : Fin 32) (e : Ecc) (s : State) (c : Core), c = s.core i.val → c.attach = none →
    let traps (t : State) (cause : Nat) : Prop := (t.core i.val).state = .faulted ∧ (t.core i.val).opened = none ∧
      (t.core i.val).lastTrap = { pc := c.pc.toNat, cause := cause } ∧ (t.core i.val).v = c.v ∧ (t.core i.val).w = c.w ∧
      (t.core i.val).x = c.x ∧ (t.core i.val).y = c.y
    (∀ g, runs s i.val (.branch .call g) e = true → 8 ≤ c.calls.length → ∃ t, exec (.gCall i g e) s = .next t ∧
      traps t 4) ∧
    (∀ g, runs s i.val (.branch .ret g) e = true → c.calls = [] → ∃ t, exec (.gRet i g e) s = .next t ∧ traps t 5) ∧
    (∀ n l, runs s i.val (.loop n l) e = true → 4 ≤ c.loops.length → ∃ t, exec (.gLoop i n l e) s = .next t ∧
      traps t 3) ∧
    (∀ v l, runs s i.val (.loopd v l) e = true → 4 ≤ c.loops.length → c.vr v.val % 65536 ≠ 0 →
      ∃ t, exec (.gLoopd i v l e) s = .next t ∧ traps t 3) ∧
    (∀ n : BitVec 14, runs s i.val (.waitf n) e = true → ∃ t, exec (.gWaitf i n e) s = .next t ∧ traps t 6) ∧
    (∀ f : EF, runs s i.val (.emit f) e = true → 5 ≤ f.mode.val → ∃ t, exec (.gEmit i f e) s = .next t ∧ traps t 0xB) ∧
    (∀ f : EF, runs s i.val (.emit f) e = true → f.mode.val < 5 → f.opn = c.opened.isSome →
      ∃ t, exec (.gEmit i f e) s = .next t ∧ traps t 7) ∧
    (∀ g, gated s = false → c.state = .running → c.waiting = none → ∃ t, exec (.gBra i g .badP) s = .next t ∧
      traps t 0xA)

/-- A misaligned or wrong-size access and a secure register from F1 read 0, write nothing and record their class C error;
ATTN_MASK takes a write of F0; the clear-on-read peaks keep only what arrives in the same cycle; a low read latches
its high half, NOW_FRAC latches the Plinth of its function, and a TIN_POP read takes the oldest edge of its FIFO.
Completes under conditions on the state and the operands alone: regAlignAccess, registerWrite, rcFieldRead,
hiLatchRead, nowFracRead, tinPopRead (R4, R5, R8, R10, R101, R137, R366, R390, R409). -/
def Obligations.RegisterAccesses : Prop :=
  ∀ (s : State) (f : Fn) (off : Nat) (val : U32) (during : Nat),
    (∀ w, off % 4 = 0 → exec (.regAlignAccess f off 4 w) s = .next s) ∧
    (∀ size w, off % 4 ≠ 0 ∨ size ≠ 4 → ∃ t, exec (.regAlignAccess f off size w) s = .next t ∧ SameData s t ∧
      t.err = (raise s 0x0002 .c (worldOf f) (regRes f off) 0).err ∧
        (w = false → t.out.head? = some (.readData f off 0))) ∧
    (off % 4 ≠ 0 → ∃ t, exec (.registerWrite f off val) s = .next t ∧ SameData s t ∧
      t.err = (raise s 0x0002 .c (worldOf f) (regRes f off) 0).err) ∧
    (off % 4 = 0 → denied s .f1 off = true → ∃ t, exec (.registerWrite .f1 off val) s = .next t ∧ SameData s t ∧
      t.err = (raise s 0x0001 .c .nonsecure (regRes .f1 off) 0).err) ∧
    (∃ t, exec (.registerWrite .f0 0x104 val) s = .next t ∧ t.link.attnMask = BitVec.ofNat 11 val.toNat ∧
      t.link.attnCause = s.link.attnCause) ∧
    (off % 4 = 0 → denied s .f1 off = true → ∃ t, exec (.rcFieldRead .f1 off during) s = .next t ∧ SameData s t ∧
      t.out.head? = some (.readData .f1 off 0) ∧ t.err = (raise s 0x0001 .c .nonsecure (regRes .f1 off) 0).err) ∧
    (∃ t, exec (.rcFieldRead .f0 0x28008 during) s = .next t ∧ t.intake = { s.intake with asmPeak := during % 2 ^ 24 } ∧
      t.out = .readData .f0 0x28008 (BitVec.ofNat 32 (readValue s .f0 0x28008)) :: s.out) ∧
    (∃ t, exec (.rcFieldRead .f0 0x30028 during) s = .next t ∧
      t.relief = { s.relief with stagePeak := during % 2 ^ 7 } ∧
      t.out = .readData .f0 0x30028 (BitVec.ofNat 32 (readValue s .f0 0x30028)) :: s.out) ∧
    (∀ hi, off % 4 = 0 → denied s f off = false → hiOf off = some hi → ∃ t, exec (.hiLatchRead f off) s = .next t ∧
      tabGet (latchKey f hi) t.latches = some (BitVec.ofNat 32 (regValue s f hi)) ∧
      t.out = .readData f off (BitVec.ofNat 32 (readValue s f off)) :: s.out) ∧
    (∃ t, exec (.nowFracRead f) s = .next t ∧
      t.out = .readData f 0xB0004 (BitVec.ofNat 32 (readValue s f 0xB0004)) :: s.out ∧
      t.plinth = (match f with
        | .f0 => { s.plinth with latch0 := some (timeField s.now) }
        | .f1 => { s.plinth with latch1 := some (timeField s.now) })) ∧
    (∀ pin : Fin 4, ∀ e rest, (s.tin f pin.val).fifo = e :: rest → ∃ t, exec (.tinPopRead f pin) s = .next t ∧
      (t.tin f pin.val).fifo = rest ∧ (t.tin f pin.val).latched = e.time ∧
      t.out = .readData f (0xB0300 + 0x20 * pin.val) (BitVec.ofNat 32 (readValue s f (0xB0300 + 0x20 * pin.val))) ::
        s.out)

/-- A tail or head within its range is taken, one outside it is ignored with its error bit; enabling with a valid
configuration starts the pair and with an invalid one sets the error bit; an idle pair disables at once; a ring head
within the tail is taken and one outside changes nothing; the log head likewise. Completes under conditions on the
state and the operands alone: sqTailWrite, cqHeadWrite, qpEnable, qpDisable, ringHeadWrite, logHeadWrite (R343, R346,
R349, R352, R359, R362, R483). -/
def Obligations.QueueRegisterWrites : Prop :=
  ∀ (s : State) (f : Fn) (i : Fin 8) (val : U32) (q : Qp), q = s.qp f i.val →
    (q.state = .running ∨ q.state = .halted → (val.setWidth 16 - q.sqHead).toNat ≤ sqDepth q →
      exec (.sqTailWrite f i val) s = .next (s.setQp f i.val { q with sqTail := val.setWidth 16 })) ∧
    (q.state = .running ∨ q.state = .halted → sqDepth q < (val.setWidth 16 - q.sqHead).toNat →
      ∃ t, exec (.sqTailWrite f i val) s = .next t ∧ SameData s t ∧ t.qp f i.val = { q with tailErr := true }) ∧
    (q.state = .running ∨ q.state = .halted → (val.setWidth 16 - q.cqHead).toNat ≤ cqUsed q → q.owed = [] →
      ∃ t, exec (.cqHeadWrite f i val) s = .next t ∧ SameData s t ∧
        t.qp f i.val = { q with cqHead := val.setWidth 16 }) ∧
    (q.state ≠ .disabled → cqUsed q < (val.setWidth 16 - q.cqHead).toNat →
      ∃ t, exec (.cqHeadWrite f i val) s = .next t ∧ SameData s t ∧ t.qp f i.val = { q with headErr := true }) ∧
    (q.state = .disabled → bitOf val.toNat 0 = true → configOk (ctrlSizes q val) = true →
      exec (.qpEnable f i val) s = .next (s.setQp f i.val (startPair
        { ctrlSizes q val with irqEn := bitOf val.toNat 9 }))) ∧
    (q.state = .disabled → bitOf val.toNat 0 = true → configOk (ctrlSizes q val) = false →
      ∃ t, exec (.qpEnable f i val) s = .next t ∧ SameData s t ∧ t.qp f i.val = { q with cfgErr := true }) ∧
    (q.state = .running ∨ q.state = .halted → bitOf val.toNat 0 = false → q.waiting = none → q.owed = [] →
      unanswered s f i.val = false →
      ∃ t, exec (.qpDisable f i val) s = .next t ∧ SameData s t ∧
        t.qp f i.val = { q with irqEn := bitOf val.toNat 9, enable := false, state := .disabled, retry := none }) ∧
    (∀ n : Fin 64, ∀ r, r = s.ring f n.val → r.state ≠ .undefined → r.declines = [] →
      r.head ≤ r.headLo.toNat + val.toNat * 2 ^ 32 → r.headLo.toNat + val.toNat * 2 ^ 32 ≤ r.tail →
      exec (.ringHeadWrite f n val) s = .next (s.setRing f n.val
        { r with head := r.headLo.toNat + val.toNat * 2 ^ 32 })) ∧
    (∀ n : Fin 64, ∀ r, r = s.ring f n.val → r.state ≠ .undefined →
      r.headLo.toNat + val.toNat * 2 ^ 32 < r.head ∨ r.tail < r.headLo.toNat + val.toNat * 2 ^ 32 →
      ∃ t, exec (.ringHeadWrite f n val) s = .next t ∧ SameData s t) ∧
    (∀ l, l = s.log f → (val.setWidth 16 - l.head).toNat ≤ (l.tail - l.head).toNat → l.lostSince = 0 →
      exec (.logHeadWrite f val) s = .next (s.setLog f { l with head := val.setWidth 16 })) ∧
    (∀ l, l = s.log f → (l.tail - l.head).toNat < (val.setWidth 16 - l.head).toNat →
      exec (.logHeadWrite f val) s = .next (s.setLog f { l with headErr := true }))

/-- A visit reads the slot of the expected number, takes the Clause of that number and moves on to the next queue; a slot
with another number starts the re-reads; a re-read takes it or counts; an owed completion entry is written to host
memory with its phase; a wait that is reached completes; a deferred change settles its demand. Completes under
conditions on the state and the operands alone: queueVisit, clauseReread, followEntryWrite, clauseWaitComplete,
deferredChangeEffect (R25, R346, R348, R350, R351, R352, R353, R354). -/
def Obligations.QueueServiceEvents : Prop :=
  ∀ (s : State) (f : Fn) (i : Fin 8) (q : Qp), q = s.qp f i.val → s.err.service = true →
    (∀ bytes, idleArmature s = true → visitFn s.err.visit = f → s.err.visit % 8 = i.val → eligible s f i.val = true →
      field bytes 4 4 = q.expectSeq.toNat → precheck f bytes = none →
      ∃ t, exec (.queueVisit (some bytes)) s = .next t ∧ SameData s t ∧ .hostRead f (slotAddress q) 64 ∈ t.out ∧
        t.err.visit = (s.err.visit + 1) % 16 ∧
        t.err.taken = some { src := { fn := f, qp := i, seq := q.expectSeq }, bytes := bytes.take 64 } ∧
        t.qp f i.val = { q with sqHead := q.sqHead + 1, expectSeq := q.expectSeq + 1, retry := none }) ∧
    (∀ slot, idleArmature s = true → visitFn s.err.visit = f → s.err.visit % 8 = i.val → eligible s f i.val = true →
      seqMatches q slot = false →
      ∃ t, exec (.queueVisit slot) s = .next t ∧ SameData s t ∧ .hostRead f (slotAddress q) 64 ∈ t.out ∧
        t.err = { s.err with visit := (s.err.visit + 1) % 16 } ∧
        t.qp f i.val = { q with retry := some 0 }) ∧
    (∀ slot n, retrying s = some (f, i) → s.reach f = true → q.retry = some n → seqMatches q slot = false → n < 2 →
      ∃ t, exec (.clauseReread slot) s = .next t ∧ SameData s t ∧ .hostRead f (slotAddress q) 64 ∈ t.out ∧
        t.err = s.err ∧
        t.qp f i.val = { q with rereads := q.rereads + 1, retry := some (n + 1) }) ∧
    (∀ bytes, retrying s = some (f, i) → s.reach f = true → field bytes 4 4 = q.expectSeq.toNat →
      precheck f bytes = none →
      ∃ t, exec (.clauseReread (some bytes)) s = .next t ∧ SameData s t ∧ .hostRead f (slotAddress q) 64 ∈ t.out ∧
        t.err.taken = some { src := { fn := f, qp := i, seq := q.expectSeq }, bytes := bytes.take 64 } ∧
        t.qp f i.val = { q with rereads := q.rereads + 1, sqHead := q.sqHead + 1, expectSeq := q.expectSeq + 1, retry := none }) ∧
    (∀ x, s.world.cuts = [] → q.owed = [x] → q.state = .running ∨ q.state = .halted → s.reach f = true →
      cqUsed q < 2 * sqDepth q →
      ∃ t, exec (.followEntryWrite f i) s = .next t ∧ SameData s t ∧
        .hostWrite f (q.cqBase.toNat + 32 * (q.cqTail.toNat % 2 ^ q.cqLog2.toNat)) (completionBytes x q.phase q.sqHead)
          ∈ t.out ∧
        (t.qp f i.val).owed = [] ∧ (t.qp f i.val).cqTail = q.cqTail + 1) ∧
    (∀ w, q.waiting = some w → w.opcode.toNat ≠ 0x0C01 → waitReached s { fn := f, qp := i, seq := w.seq } w = true →
      ∃ t, exec (.clauseWaitComplete f i) s = .next t ∧ SameData s t ∧ (t.qp f i.val).waiting = none) ∧
    (∀ pid p, s.power.inReset = false → s.product pid = some p → p.kind ≠ .corr →
      ∃ t, exec (.deferredChangeEffect pid) s = .next t ∧ t = s.setProduct pid (settleDemand s.intake.front p))

/-- A module trains at its rate or is held out; the link goes down and comes up; Bus Master Enable changes; a
function-level reset resets the queue pairs, rings, vectors and DMA channels of its function and leaves the products
and HBM. Completes under conditions on the state and the operands alone: ucieLinkTrain, ucieLinkDown, ucieLinkUp,
busMasterEnableChange, functionLevelReset (R337, R339, R342, R384). -/
def Obligations.HostLinkEvents : Prop :=
  ∀ (s : State) (f : Fn) (g0 g1 : Nat),
    (∃ t, exec (.ucieLinkTrain g0 g1) s = .next t ∧ SameData s t ∧ t.link.mod0 = trainedRate g0 ∧
      t.link.mod1 = trainedRate g1 ∧
      t.link.up = decide (trainedRate g0 + trainedRate g1 ≠ 0)) ∧
    (s.link.up = true → ∃ t, exec .ucieLinkDown s = .next t ∧ SameData s t ∧ t.link.up = false ∧
      t.link.mod0 = s.link.mod0 ∧
      t.link.mod1 = s.link.mod1 ∧ ∀ g i, t.qp g i = s.qp g i) ∧
    (s.link.up = false → s.link.mod0 + s.link.mod1 ≠ 0 → ∃ t, exec .ucieLinkUp s = .next t ∧ SameData s t ∧
      t.link.up = true) ∧
    (∀ on, (s.fn f).bme ≠ on → ∃ t, exec (.busMasterEnableChange f on) s = .next t ∧ SameData s t ∧ (t.fn f).bme = on ∧
      t.link.up = s.link.up) ∧
    ((∀ ch, ch < 36 → (s.channel ch).act = none) → s.power.changing = [] → s.power.stacksGoing = none →
      ∃ t, exec (.functionLevelReset f) s = .next t ∧ t.hbm = s.hbm ∧ t.products = s.products ∧
        (∀ i, i < 8 → t.qp f i = resetQp (s.qp f i)) ∧ (∀ i, i < 64 → t.ring f i = resetRing (s.ring f i)) ∧
        (∀ i, i < 64 → t.vec f i = Reset.msix) ∧
        ∀ ch, ch < 36 → t.channel ch = if engineOf ch ≠ 2 ∧
          fnOf (chanWorld s ch) = f then resetChannel s.now (s.channel ch) else s.channel ch)

/-- A read that hits its open row counts a page hit; the refresh debt rises by one and is paid by refreshes; a refresh
closes the banks; a reading sets HOT above 85 and clears it at 83; the activation tables clear; the scrubber moves on;
an idle pseudo-channel powers down; idle stacks enter SELF_REFRESH. None changes a byte: a clean scrub read changes no
word, no count and no record. What a tick and a request stand for is the model's choice (log 9). Completes under
conditions on the state and the operands alone: hbmRequestServe, refreshDebtTick, refreshIssue, hbmTempRead,
actTableClear, patrolScrubRead, pcPowerdownIdle, selfRefreshIdle (R312, R313, R318, R319, R320, R322, R327, R333). -/
def Obligations.HbmServiceEvents : Prop :=
  ∀ (s : State) (stack : Fin 6) (pc : Fin 32) (key : Nat) (c : Pc) (x : Stack),
    key = pcKey stack.val pc.val → c = s.pcAt key → x = s.stack stack.val →
    (∀ r p, s.hbm.serving.contains stack.val = true → s.hbm.rateRunning = false → c.queue = [] → r.kind = .read →
      hbmPlace s r.addr = some p → p.stack = stack.val → p.pc = pc.val → (s.bankAt (bankKey p)).opened = some p.row →
      poisoned s r.addr (r.addr + 1) = false →
      ∃ t, exec (.hbmRequestServe stack pc [r] 0) s = .next t ∧ t.hbm.mem = s.hbm.mem ∧ t.hbm.poison = s.hbm.poison ∧
        (t.stack stack.val).pageHits = x.pageHits + 1 ∧ (t.pcAt key).queue = [] ∧ (t.pcAt key).down = false ∧
          t.err = s.err) ∧
    (x.state = .active → s.hbm.rateRunning = false → ∃ t, exec (.refreshDebtTick stack) s = .next t ∧
      t.hbm.mem = s.hbm.mem ∧
      (∀ k : Fin 32, (t.pcAt (pcKey stack.val k.val)).debt = (payDown x ((s.pcAt (pcKey stack.val k.val)).debt + 1)).2)
        ∧
      (∀ j : Fin 6, j ≠ stack → t.stack j.val = s.stack j.val)) ∧
    (x.state = .active → c.debt ≠ 0 → c.queue = [] → ∃ t, exec (.refreshIssue stack pc) s = .next t ∧
      t.hbm.mem = s.hbm.mem ∧
      (t.pcAt key) = { c with debt := c.debt - refreshUnit x, down := false } ∧
      ∀ b, b ∈ t.hbm.banks → b.1 / 64 = key → b.2.opened = none) ∧
    (∀ temp, x.state = .active → temp ≤ 100 → temp ≤ x.trainTemp + 8 → x.trainTemp ≤ temp + 8 →
      ∃ t, exec (.hbmTempRead stack temp) s = .next t ∧ t.err = s.err ∧ t.hbm.mem = s.hbm.mem ∧
        t.hbm.step = s.hbm.step ∧
        (t.stack stack.val).temp = temp ∧
          (t.stack stack.val).hot = (if temp > 85 then true else if temp ≤ 83 then false else x.hot)) ∧
    (∃ t, exec (.actTableClear stack) s = .next t ∧ t.hbm.mem = s.hbm.mem ∧ t.hbm.stackTab = s.hbm.stackTab ∧
      (∀ b, b ∈ t.hbm.banks → b.1 / 2048 = stack.val → b.2.acts = []) ∧
      ∀ b, b.1 / 2048 ≠ stack.val → (b ∈ t.hbm.banks ↔ b ∈ s.hbm.banks)) ∧
    (∀ ecc n, ecc % 8 = 0 → n = s.hbm.capacity * 32768 → n ≠ 0 → s.hbm.rateRunning = false →
      ∃ t, exec (.patrolScrubRead ecc) s = .next t ∧ t.hbm.scrub = (s.hbm.scrub % n + 1) % n ∧ t.hbm.mem = s.hbm.mem ∧
        t.hbm.poison = s.hbm.poison ∧ t.hbm.eccCorr = s.hbm.eccCorr ∧ t.err = s.err) ∧
    (x.state = .active → c.queue = [] → c.debt = 0 → ∃ t, exec (.pcPowerdownIdle stack pc) s = .next t ∧
      t = s.setPcAt key { c with down := true }) ∧
    (s.hbm.sleeping = true → s.hbm.rateRunning = false → (∀ k, k ∈ s.hbm.pcs → k.2.queue = []) →
      ∃ t, exec .selfRefreshIdle s = .next t ∧ t.hbm.mem = s.hbm.mem ∧ t.hbm.pcs = [] ∧
        (∀ j : Fin 6, (s.stack j.val).state = .active → (t.stack j.val).state = .selfRefresh) ∧
        (∀ b, b ∈ t.hbm.banks → b.2.opened = none))

/-- Retraining gathers the read eye, then the write eye, and applies; a rate change that holds no access back takes the
new rate, counts, starts a retraining and writes the settings; a trained stack becomes ACTIVE with what it reports; a
stack that fails goes OFF and the others go on; a zero fill clears exactly its granules; a domain comes on. Completes
under conditions on the state and the operands alone: retrainTimer, retrainStepDone, hbmRateChangeDone,
stackTrainingDone, granuleZeroFillDone, domainPowerUpDone (R306, R328, R329, R331, R461, R532, R533, R552). -/
def Obligations.HbmMaintenanceEvents : Prop :=
  ∀ (s : State),
    (s.hbm.step = .idle → s.hbm.ready = true → s.hbm.ratePending = none → s.hbm.trainTime + 600 * second ≤ s.now →
      exec .retrainTimer s = .next { s with hbm := { s.hbm with step := .readEye, stepTime := s.now } }) ∧
    (s.hbm.step = .readEye → s.hbm.ratePending = none →
      exec (.retrainStepDone none) s = .next { s with hbm := { s.hbm with step := .writeEye, stepTime := s.now } }) ∧
    (s.hbm.step = .writeEye → s.hbm.ratePending = none → ∃ t, exec (.retrainStepDone none) s = .next t ∧
      t.hbm.step = .idle ∧
      t.hbm.retrains = s.hbm.retrains + 1 ∧ t.hbm.trainTime = s.now ∧ t.hbm.mem = s.hbm.mem ∧
      ∀ j : Fin 6, t.stack j.val = { s.stack j.val with trainTemp := (s.stack j.val).temp }) ∧
    (∀ r, s.hbm.ratePending = some r → s.hbm.rateRunning = true → s.hbm.rateSrc = none → s.hbm.held = [] →
      s.boot.trial = false →
      ∃ t, exec .hbmRateChangeDone s = .next t ∧ t.hbm.rate = r ∧ t.hbm.ratePending = none ∧ t.hbm.rateRunning = false ∧
        t.hbm.rateChanges = s.hbm.rateChanges + 1 ∧ t.hbm.step = .readEye ∧ t.hbm.mem = s.hbm.mem ∧
          t.products = s.products ∧
        (t.boot.set0 = some (settingsBytes s { settingsNow s with rate := r }) ∨
          t.boot.set1 = some (settingsBytes s { settingsNow s with rate := r }))) ∧
    (∀ (stack j : Fin 6) sid rep dense rfm, (s.stack stack.val).state = .training → j ≠ stack →
      (s.stack j.val).state = .training →
      (∀ k : Fin 6, k = stack ∨ (s.stack k.val).state ≠ .active) →
      let y : Stack := { s.stack stack.val with
        nSid := sid, dense := dense, lanesRepaired := min rep 15, rfm := rfm.isSome, rfmThreshold := rfm.getD 4096,
        state := .active }
      configAgrees (s.setStack stack.val y) stack.val y = true →
      exec (.stackTrainingDone stack sid rep dense rfm true) s = .next (s.setStack stack.val y)) ∧
    (∀ (stack : Fin 6) sid rep dense rfm, (s.stack stack.val).state = .training → s.boot.ready = true →
      (∀ k : Fin 6, k = stack ∨ (s.stack k.val).state = .off) → (∀ k, k ∈ s.hbm.pcs → k.2.queue = []) →
      ∃ t, exec (.stackTrainingDone stack sid rep dense rfm false) s = .next t ∧ (t.stack stack.val).state = .off ∧
        t.hbm.ready = true ∧ t.hbm.filled = true ∧ t.hbm.serving = [] ∧ t.hbm.step = .idle) ∧
    (∀ x, s.world.fill = some x → ∃ t, exec .granuleZeroFillDone s = .next t ∧ t.world = { s.world with fill := none } ∧
      ∀ a, memGet a t.hbm.mem = if a / granule ∈ x.granules then 0 else memGet a s.hbm.mem) ∧
    (∀ (d : Fin 8) c, s.power.changing = [c] → c.domain = d.val → c.off = false →
      ∃ t, exec (.domainPowerUpDone d) s = .next t ∧ t.power.changing = [] ∧
        t.power.domainOn = s.power.domainOn ||| BitVec.ofNat 8 (2 ^ d.val) ∧ t.gloss = s.gloss)

/-- CTRL.GO loads the active set from the shadow set or arms it; a second arm is an error; disarm and abort; a completion
head within the entries is taken; another function's channel is denied. A BAR2 read within a region returns the bytes,
one outside zeros; a BAR2 write changes exactly its bytes or nothing; both are held while the data rate changes.
Completes under conditions on the state and the operands alone: dmaGo, dmaDisarm, dmaAbort, dmaCqHeadWrite, bar2Read,
bar2Write (R341, R366, R371, R378, R380, R383, R386). -/
def Obligations.DmaRegisterWrites : Prop :=
  (∀ (s : State) (f : Fn) (ch : Fin 36) (val : U32) (c : Channel), c = s.channel ch.val → engineOf ch.val ≠ 2 →
     chanVisible s f ch.val = true →
     (bitOf val.toNat 9 = false → bitOf val.toNat 10 = false → c.armed = false → c.cqEnable = true → c.act = none →
       ∃ x, x = ctrlFields (val.toNat ||| 0x100) c.shadow ∧ exec (.dmaGo f ch val) s =
         .next (s.setChannel ch.val { c with shadow := x, armed := false, act := some (loaded x) })) ∧
     (∀ a, bitOf val.toNat 9 = false → bitOf val.toNat 10 = false → c.armed = false → c.cqEnable = true →
       c.act = some a →
       exec (.dmaGo f ch val) s = .next (s.setChannel ch.val { c with
         shadow := ctrlFields (val.toNat ||| 0x100) c.shadow, armed := true })) ∧
     (bitOf val.toNat 9 = false → bitOf val.toNat 10 = false → c.armed = true →
       ∃ t, exec (.dmaGo f ch val) s = .next t ∧ t.dma = (s.setChannel ch.val { c with shadowErr := true }).dma ∧
         t.hbm = s.hbm) ∧
     (exec (.dmaDisarm f ch) s = .next (s.setChannel ch.val { c with armed := false })) ∧
     (∀ a, c.act = some a → a.running = true → a.ended = false → a.endAs = none → a.done ≠ a.set.len.toNat →
       s.power.changing = [] → s.power.stacksGoing = none →
       exec (.dmaAbort f ch) s = .next (s.setChannel ch.val { c with act := some { a with endAs := some stAborted } }))
         ∧
     (c.act = none → s.power.changing = [] → s.power.stacksGoing = none →
       (BitVec.ofNat 16 val.toNat - c.cqHead).toNat ≤ dmaUsed c →
       exec (.dmaCqHeadWrite f ch val) s = .next (s.setChannel ch.val { c with cqHead := BitVec.ofNat 16 val.toNat })) ∧
     (dmaUsed c < (BitVec.ofNat 16 val.toNat - c.cqHead).toNat → ∃ t, exec (.dmaCqHeadWrite f ch val) s = .next t ∧
       SameData s t) ∧
     (∀ g, chanVisible s g ch.val = false → ∃ t, exec (.dmaGo g ch val) s = .next t ∧ SameData s t ∧
       exec (.dmaDisarm g ch) s = .next (denyAccess s g (chanOffset ch.val 0x14)))) ∧
  (∀ (s : State) (f : Fn) (addr len : Nat) (bytes : List Byte) (ecc : List (Nat × Nat)), s.hbm.poison = [] →
     (hbmReachable s (worldOf f) addr len = true → s.hbm.rateRunning = false →
       ∃ t, exec (.bar2Read f addr ⟨len, []⟩) s = .next t ∧ t.hbm.mem = s.hbm.mem ∧
         t.out = .bar2Data f addr (s.load addr len) false :: s.out) ∧
     (hbmReachable s (worldOf f) addr len = true → s.hbm.rateRunning = true →
       exec (.bar2Read f addr ⟨len, ecc⟩) s = .next { s with hbm := { s.hbm with
         held := s.hbm.held ++ [{ fn := f, addr := addr, len := len, bytes := none, ecc := ecc }] } }) ∧
     (hbmReachable s (worldOf f) addr len = false → ∃ t, exec (.bar2Read f addr ⟨len, ecc⟩) s = .next t ∧ SameData s t ∧
       t.out.head? = some (.bar2Data f addr (zeros len) false)) ∧
     (hbmReachable s (worldOf f) addr bytes.length = true → inOwnArea s addr bytes.length = false →
       s.hbm.rateRunning = false →
       ∃ t, exec (.bar2Write f addr ⟨bytes, []⟩) s = .next t ∧ t.hbm.mem = memPutBytes addr bytes s.hbm.mem ∧
         t.out = s.out ∧
         t.err = s.err) ∧
     (hbmReachable s (worldOf f) addr bytes.length = true → inOwnArea s addr bytes.length = false →
       s.hbm.rateRunning = true →
       exec (.bar2Write f addr ⟨bytes, ecc⟩) s = .next { s with hbm := { s.hbm with
         held := s.hbm.held ++ [{ fn := f, addr := addr, len := bytes.length, bytes := some bytes, ecc := ecc }] } }) ∧
     (hbmReachable s (worldOf f) addr bytes.length = false ∨ inOwnArea s addr bytes.length = true →
       ∃ t, exec (.bar2Write f addr ⟨bytes, ecc⟩) s = .next t ∧ SameData s t))

/-- An idle engine starts the channel the round robin selects; a burst moves its bytes and extends the CRC, or ends the
transfer with ABORTED; a finished transfer writes its 32-byte record with the time of its last visible byte; at the
power deferral limit a running transfer of the domain is aborted. The deferral time is the model's choice (log 20).
Completes under conditions on the state and the operands alone: dmaChannelStart, dmaBurstDone, dmaTransferDone,
dmaPowerDeferralTimeout (R374, R376, R377, R379, R380, R381, R383, R385). -/
def Obligations.DmaTransferEvents : Prop :=
  (∀ (s : State) (ch : Fin 36) (c : Channel) (a : Active), c = s.channel ch.val → c.act = some a → s.hbm.poison = [] →
     s.power.changing = [] → s.power.stacksGoing = none →
     (∀ e : Fin 7, a.running = false → s.err.fault = false → engineBusy s e.val = false →
       (roundRobin s e.val).find? (fun k => canStart (s.channel k)) = some ch.val →
         transferCheck s ch.val a.set = none →
       ∃ t, exec (.dmaChannelStart e) s = .next t ∧
         t.channel ch.val = { c with act := some { a with running := true } } ∧
         t.hbm = s.hbm ∧ vget t.dma.last (engineOf ch.val) none = some ch.val) ∧
     (∀ bs n, a.running = true → a.ended = false → a.endAs = none → burstHeld s ch.val a.set = false →
       a.set.srcSpace = 0 →
       a.set.dstSpace = 1 → n = burstLen a → a.done ≠ a.set.len.toNat → 
       ∃ t, exec (.dmaBurstDone ch ⟨some bs, []⟩ []) s = .next t ∧
         t.channel ch.val = { c with act := some { a with done := a.done + n, crc := (slice bs 0 n).foldl crcByte a.crc } } ∧
         t.hbm.mem = memPutBytes (a.set.dst.toNat + a.done) (slice bs 0 n) s.hbm.mem) ∧
     (a.running = true → a.ended = false → a.endAs = none → burstHeld s ch.val a.set = false → a.set.srcSpace = 0 →
       a.done ≠ a.set.len.toNat → ∃ t, exec (.dmaBurstDone ch ⟨none, []⟩ []) s = .next t ∧ t.hbm.mem = s.hbm.mem ∧
         t.channel ch.val = { c with act := some { a with
           ended := true, endAs := some stAborted, visible := if a.done = 0 then some s.now else none } }) ∧
     (a.running = true → a.done = a.set.len.toNat → a.silent = false → a.set.irq = false → c.cqHbm = false →
       dmaRoom c = true →
       s.reach (fnOf (chanWorld s ch.val)) = true →
       ∃ t, exec (.dmaTransferDone ch) s = .next t ∧ t.channel ch.val = afterRecord c a ∧ t.hbm = s.hbm ∧
         t.out = .hostWrite (fnOf (chanWorld s ch.val)) (c.cqBase.toNat + 32 * (c.cqTail.toNat % 2 ^ c.cqLog2.toNat))
           (dmaRecord s ch.val c { a with visible := some (a.visible.getD s.now) }) :: s.out)) ∧
  (∀ (s : State) (d : Fin 8) (ch : Fin 36) (c : Channel) (a : Active) (x : DomainChange), c = s.channel ch.val →
    c.act = some a →
     touchesDomain ch.val d.val = true → a.running = true → a.ended = false → a.endAs = none →
     s.power.changing = [x] → x.domain = d.val → x.off = true → x.limit ≤ s.now → s.power.stacksGoing = none →
     ∃ t, exec (.dmaPowerDeferralTimeout (Fin.castLE (by omega) d)) s = .next t ∧ t.power = s.power ∧
       t.channel ch.val = { c with act := some { a with endAs := some stAborted, power := true } })

/-- A frame in search counts a marker or starts again; a locked frame is corrected, descrambled and checked; four markers
lock the lane with the hypothesis under trial; lock loss returns it to search and counts; a hypothesis times out to
the next; a window of 4,096 frames sets the peak and the degraded state; a step limit counts an attempt and a retry
starts from the CDR or from search. Completes under conditions on the state and the operands alone: oslFrameRx,
frameLock, lockLoss, markerHypothesisTimeout, fecWindowEnd, bringupStepTimeout, bringupRetry, bringupStageDone (R49,
R52, R53, R54, R55, R56, R59, R60). -/
def Obligations.LaneReceiveEvents : Prop :=
  ∀ (l : Fin 52) (s : State) (x : Lane), x = s.lane l.val → x.rxOps = [] →
    (∀ levels, s.power.inReset = false → x.loopback = 0 → x.rx = .search → x.locked = false → x.retryDue = false →
      x.tried < 64 →
      x.markers < 4 → x.winFrames < 4096 → exec (.oslFrameRx l levels) s = .next (s.setLane l.val { x with
        rxPrev := levels.getLastD x.rxPrev, tried := x.tried + 1,
        markers := if markerSeen (lineBits x.hyp x.rxPrev levels) then x.markers + 1 else 0 })) ∧
    (∀ levels, s.power.inReset = false → x.loopback = 0 → x.rx = .up → x.locked = true → x.retryDue = false →
      x.tried < 64 →
      dropDue x = false → x.winFrames < 4096 → levels.length = 13600 → exec (.oslFrameRx l levels) s =
        .next (lockedFrame (s.setLane l.val { x with rxPrev := levels.getLastD x.rxPrev }) l.val
          (decodeFrame (lineBits x.hyp x.rxPrev levels)))) ∧
    (x.rx = .search → x.locked = false → x.retryDue = false → 4 ≤ x.markers →
      exec (.frameLock l) s = .next (s.setLane l.val { x with
        locked := true, markers := 0, misses := 0, history := [], disagree := 0, polInv := hypInv x.hyp,
          precode := hypPre x.hyp,
        lastHyp := some x.hyp, peerSleep := false, fails := 0, noLock := false })) ∧
    (x.rx = .up → dropDue x = true → x.peerSleep = false → (s.laneTrim l.val).run = none →
      ∃ t, exec (.lockLoss l) s = .next t ∧
      (t.lane l.val).rx = .search ∧ (t.lane l.val).locked = false ∧ (t.lane l.val).lockLoss = x.lockLoss + 1 ∧
      (t.lane l.val).degLoss = (x.degLoss || (rxGroupOf s l.val).any LaneGroup.up) ∧ (t.lane l.val).member = none ∧
        t.trims = s.trims ∧ t.hbm = s.hbm) ∧
    (x.rx = .search → x.locked = false → x.retryDue = false →
      exec (.markerHypothesisTimeout l) s = .next (s.setLane l.val { x with
        locked := false, markers := 0, misses := 0, history := [], disagree := 0, tried := 0,
          hyp := (x.hyp + 1) % 4 })) ∧
    (4096 ≤ x.winFrames → ∃ t, exec (.fecWindowEnd l) s = .next t ∧ t.osl = (s.setLane l.val { x with
        peak := min 15 x.winPeak,
        degWindow := decide (x.threshold.toNat < x.winSyms) || (x.degWindow && decide (x.threshold.toNat < 2 *
          x.winSyms)),
        threshold := x.nextThreshold.getD x.threshold, nextThreshold := none, winFrames := 0, winSyms := 0,
          winPeak := 0 }).osl ∧
      t.hbm = s.hbm ∧ t.intake = s.intake) ∧
    (bringingUp x = true → x.retryDue = false → (s.laneTrim l.val).run = none →
      ∃ t, exec (.bringupStepTimeout l) s = .next t ∧
      (t.lane l.val).rx = x.rx ∧ (t.lane l.val).fails = x.fails + 1 ∧ (t.lane l.val).retryDue = true ∧
        (t.lane l.val).tried = 0 ∧
      (t.lane l.val).locked = false ∧ t.trims = s.trims) ∧
    (x.retryDue = true → x.bondRetry = false → ∃ t, exec (.bringupRetry l) s = .next t ∧ (t.lane l.val).rx = .cdr ∧
      (t.lane l.val).retryDue = false ∧ (t.lane l.val).locked = false ∧ t.err = s.err) ∧
    (x.retryDue = true → x.bondRetry = true → ∃ t, exec (.bringupRetry l) s = .next t ∧ (t.lane l.val).rx = .search ∧
      (t.lane l.val).retryDue = false ∧ (t.lane l.val).hyp = x.lastHyp.getD 0 ∧ t.err = s.err) ∧
    (x.rx = .pll → x.retryDue = false →
      exec (.bringupStageDone l false) s = .next (s.setLane l.val { x with rx := .cdr }))

/-- An active lane sends its ready frame or an IDLE frame with its frame count; it enters its sleep state once announced;
precoding switches; the row at the front is released when its skew window expires; a stream silent for 64 us is DOWN.
Completes under conditions on the state and the operands alone: bringupStageDone, txFrameSlot, txSleepEnter,
precodeSwitch, skewWindowExpiry, streamDown (R33, R35, R38, R42, R59, R61, R62, R70, R74, R75). -/
def Obligations.LaneTransmitEvents : Prop :=
  ∀ (l : Fin 52) (s : State) (x : Lane), x = s.lane l.val →
    (x.tx = .pll → x.txOps = [] → exec (.bringupStageDone l true) s = .next (s.setLane l.val { x with tx := .active }))
      ∧
    (s.power.inReset = false → x.tx = .active → x.loopback = 0 → x.txSleep = none → x.precodeSwitch = none →
      x.idleOwed = 0 →
      l.val < 48 → takeReady s l.val = none → ∃ t f, exec (.txFrameSlot l) s = .next t ∧ f = idleFrame none ∧
      t.out = .frame l.val (frameLevels x.txPrecode x.txPrev x.txCount.toNat f.header f.payload f.link) :: s.out ∧
      (t.lane l.val).txCount = x.txCount + 1 ∧ (t.lane l.val).txFrames = x.txFrames ∧ t.osl.frames = s.osl.frames) ∧
    (∀ f u, s.power.inReset = false → x.tx = .active → x.loopback = 0 → x.txSleep = none → x.precodeSwitch = none →
      x.idleOwed = 0 → l.val < 48 → takeReady s l.val = some (f, u) → ∃ t, exec (.txFrameSlot l) s = .next t ∧
      t.out = .frame l.val (frameLevels x.txPrecode x.txPrev x.txCount.toNat f.header f.payload f.link) :: s.out ∧
      (t.lane l.val).txCount = x.txCount + 1 ∧ (t.lane l.val).txFrames = x.txFrames + 1 ∧ t.osl.frames = u.osl.frames) ∧
    (∀ k, k ≠ 0 → x.tx = .active → x.txSleep = some 0 → x.txOps = [k] → ∃ t, exec (.txSleepEnter l) s = .next t ∧
      (t.lane l.val).tx = (if k = 1 then .l1 else if k = 2 then .l2 else .off) ∧ (t.lane l.val).txOps = [] ∧
      (t.lane l.val).txDone = x.txDone + 1 ∧ (t.lane l.val).txSleep = none ∧ t.err = s.err) ∧
    (∀ v, x.precodeSwitch = some (v, 0) →
      exec (.precodeSwitch l) s = .next (s.setLane l.val { x with txPrecode := v, precodeSwitch := none })) ∧
    (s.intake.started = true → rowExpired s = true → rowComplete (releaseRow s) = false →
      ∃ t, exec .skewWindowExpiry s = .next t ∧ t = releaseRow s ∧ t.intake.front = s.intake.front + 1) ∧
    (∀ n : Fin 1024, ∀ y u, y = s.stream n.val → y.state = .up → y.last = some u → u + 64 * micros ≤ s.now →
      rowComplete (s.setStream n.val { y with state := .down }) = false →
      exec (.streamDown n) s = .next (s.setStream n.val { y with state := .down }))

/-- A drained half is freed; the next channel-dwell starts in plan order; a stage block loads; a super-tile run ends in a
free accumulator set or stalls; a NARROW run folds; a matching drain goes to the spill with its values; a preemption
point saves the context and names the repair work that starts next; contexts are saved and restored; that work starts
once every context is saved. None touches HBM. When a free set counts as free is the model's choice (log 32).
Completes under conditions on the state and the operands alone: cornerTurnHalfFree, channelDwellFinish,
stageBlockLoadDone, superTileEnd, narrowFold, drainCompare, preemptionPoint, contextSaveDone, contextRestoreDone,
repairWorkStart (R16, R107, R109, R113, R117, R127, R131, R132, R133, R175, R181). -/
def Obligations.GridEvents : Prop :=
  ∀ (s : State), gated s = false →
    (∀ id x h d, s.intake.sets.find? (fun y => y.id == id) = some x →
      (vget x.halves h.val { dwell := none, full := false }) = { dwell := some d, full := true } →
      dwellBusy s x.id d = false →
      exec (.cornerTurnHalfFree id h) s = .next (setSet s
        { x with halves := vset x.halves h.val { dwell := none, full := false } })) ∧
    (∀ cd, s.relief.acc = none → slotsUsed s = 0 → s.relief.cur = none → s.trims.restoring = none →
      nextReady s = some cd →
      ∃ t, exec .channelDwellFinish s = .next t ∧ t.relief.cur = some (cd, 0) ∧
        t.relief.ready = s.relief.ready.filter (fun y => y != cd) ∧ t.hbm = s.hbm ∧ t.err = s.err) ∧
    (∀ col b x rest, s.relief.cur = none → s.relief.stage = x :: rest → x.loaded = false → x.col = col → x.block = b →
      exec (.stageBlockLoadDone col b) s = .next (s.setRelief
        { s.relief with stage := { x with loaded := true } :: rest })) ∧
    (∀ run c, s.relief.acc = some run → s.corr run.tile.pid = some c → setFree s run = true →
      ∃ t, exec .superTileEnd s = .next t ∧ t.relief.drain = s.relief.drain ++ [runEnd c.td run] ∧
        t.relief.tileDwells = s.relief.tileDwells + 1 ∧
        t.relief.busyCycles = s.relief.busyCycles + BitVec.ofNat 64 (tileCycles c.td run.mode) ∧ t.hbm = s.hbm) ∧
    (∀ run c, s.relief.acc = some run → s.corr run.tile.pid = some c → setFree s run = false →
      s.relief.drainStall = none →
      exec .superTileEnd s = .next (s.setRelief
        { s.relief with acc := some (runEnd c.td run), drainStall := some s.now })) ∧
    (∀ run c, s.relief.acc = some run → s.corr run.tile.pid = some c → run.mode = 1 → run.folded < c.td →
      exec .narrowFold s = .next (s.setRelief { s.relief with acc := some { run with
        folded := run.folded + 512, offset := max run.offset (run.folded + 512) } })) ∧
    (∀ run rest, s.relief.drain = run :: rest → run.kind = .first → runPoisoned s run = false →
      s.relief.incidents = [] →
      s.relief.injects = [] → s.relief.acc = none → s.relief.cur = none →
      exec (.drainCompare [] true false) s = .next (s.setRelief { s.relief with
        drain := rest, spill := s.relief.spill ++
          [{ tile := run.tile, matched := true, fenced := fencedCells s, vals := drainedVals s run.tile true [] }] })) ∧
    (∀ run c, s.relief.acc = some run → s.corr run.tile.pid = some c → run.offset < c.td → s.relief.incidents = [] →
      exec .preemptionPoint s = .next (s.setRelief { s.relief with acc := some (atPoint c.td run) })) ∧
    (∀ run c i n, s.relief.acc = some run → s.corr run.tile.pid = some c → c.td ≤ run.offset →
      s.relief.drainStall = none →
      (waitingRepairs s).find? (preempts s run) = some i → freeSlot s = some n →
      exec .preemptionPoint s = .next (s.setRelief { s.relief with
        acc := none, slots := vset s.relief.slots n (some { run := run, saved := false }),
          preempts := s.relief.preempts + 1,
        starter := some i.id })) ∧
    (∀ (k : Fin 2) x, vget s.relief.slots k.val none = some x → s.relief.incidents = [] →
      exec (.contextSaveDone k) s =
        .next (s.setRelief { s.relief with slots := vset s.relief.slots k.val (some { x with saved := true }) })) ∧
    (∀ x c, vget s.relief.slots 1 none = some x → x.saved = true → s.relief.acc = none →
      s.corr x.run.tile.pid = some c →
      x.run.offset < c.td → s.relief.starter = none → exec (.contextRestoreDone 1) s =
        .next (s.setRelief { s.relief with acc := some x.run, slots := vset s.relief.slots 1 none })) ∧
    (∀ i, s.relief.acc = none → (s.relief.slots.toList.all fun o => o.all CtxSlot.saved) = true →
      (slotsUsed s = 0 ∧ s.relief.starter = none) ∨ s.relief.starter = some i.id →
      s.relief.incidents = [i] → i.working = false → i.phase = .retry → s.relief.stageStall = none →
      exec .repairWorkStart s = .next (s.setRelief { s.relief with
        acc := some (repairRun s i), starter := none, incidents := [{ i with working := true }] }))

/-- A ring with room takes the record, moves its tail and writes it back; a ring without room or past 2 ms declines it and
counts; a coalescing time sends; a spill of an instance whose place does not end its integration commits; a snapshot
whose groups are all copied ends and frees its area. Completes under conditions on the state and the operands alone:
ringRecordOffer, ringDeclineTimeout, ringCoalesceTimeout, spillCommit, snapshotWriteDone (R135, R147, R157, R158,
R171, R172, R358, R360, R361, R364). -/
def Obligations.DeliveryEvents : Prop :=
  ∀ (s : State),
    (∀ (f : Fn) (n : Fin 64) o rest r, nextOffer s (.ring f n) = some (o, rest) → r = s.ring f n.val →
      s.err.fault = false →
      ringOpen s f n.val = true → r.declines = [] → o.bytes.length + 96 ≤ ringFree r →
      ∃ t, exec (.ringRecordOffer (.ring f n)) s = .next t ∧ (t.ring f n.val).tail = r.tail + o.bytes.length ∧
        (t.ring f n.val).declining = false ∧ (t.ring f n.val).declined = r.declined ∧
        t.offers = startNext rest (.ring f n) o.pid s.now ∧ t.hbm = s.hbm ∧
        .hostWrite f r.wbAddr.toNat (leBytes 8 (r.tail + o.bytes.length)) ∈ t.out) ∧
    (∀ (f : Fn) (n : Fin 64) o rest r, nextOffer s (.ring f n) = some (o, rest) → r = s.ring f n.val →
      s.err.fault = false → r.declines = [] →
      ringOpen s f n.val = false ∨ ringFree r < o.bytes.length + 96 →
      ∃ t, exec (.ringRecordOffer (.ring f n)) s = .next t ∧ (t.ring f n.val).tail = r.tail ∧
        (t.ring f n.val).declining = true ∧
        (t.ring f n.val).declined = r.declined + 1 ∧
          (t.ring f n.val).declines = addDecline [] o (s.worldOfProduct o.pid) ∧
        t.out = s.out) ∧
    (∀ (f : Fn) (n : Fin 64) o rest r, expiredOffer s (.ring f n) = some (o, rest) → r = s.ring f n.val →
      ∃ t, exec (.ringDeclineTimeout (.ring f n)) s = .next t ∧ (t.ring f n.val).declining = true ∧
        (t.ring f n.val).declined = r.declined + 1 ∧ (t.ring f n.val).tail = r.tail ∧
        t.offers = startNext rest (.ring f n) o.pid s.now ∧ t.out = s.out) ∧
    (∀ (f : Fn) (n : Fin 64) r u, r = s.ring f n.val → r.sinceTime = some u → 0 < r.since →
      u + r.timeUs * micros ≤ s.now →
      ∃ t, exec (.ringCoalesceTimeout f n) s = .next t ∧ t.ring f n.val = { r with since := 0, sinceTime := none } ∧
        t.products = s.products ∧ t.offers = s.offers) ∧
    (∀ sp p, gated s = false → s.relief.acc = none → s.relief.cur = none →
      s.relief.spill.find? (fun x => !earlierHeld s x.tile) = some sp → placeOf s sp.tile = some p → p.last = false →
      ∃ t, exec .spillCommit s = .next t ∧
        t.relief = { s.relief with spill := s.relief.spill.filter (fun y => y != sp) } ∧
        t.err = s.err ∧ t.offers = s.offers) ∧
    (∀ pid c pr sn, s.corr pid = some c → s.product pid = some pr → c.snap = some sn → sn.settled = true →
      gated s = false →
      (sn.dwell + 1) * c.td ≤ s.intake.front → (∀ a, a ∈ sn.parts →
        snapGroupDone (corrInputs s c).length c sn a = true) →
      (∃ g, g ∈ c.groups ∧ g.stopped = false) → (∀ g, g ∈ c.groups → groupDone g = false) →
      ∃ t, exec (.snapshotWriteDone pid) s = .next t ∧ t.corr pid = some { c with snap := none } ∧
        ∀ a, a ∈ t.hbm.allocs ↔ a ∈ s.hbm.allocs ∧ a.kind ≠ .snapshot pid)

/-- A settled row is taken in order; a swap writes exactly its beam's entries; a replaced gain area is released; a record
with a bad CRC counts a mismatch and a matching one adds its partial sums row by row; an expired import window counts
the late rows; a chain takes its next row from its inbox, or a zero row of a silent beam; a due interval is decided; a
copied capture takes a sequence number. Completes under conditions on the state and the operands alone:
friezeRowProcess, delaySwapCopyDone, gainAreaReleased, psumRecordRx, importWindowExpiry, chainRowProcess,
detectIntervalEnd, captureCopyDone (R202, R210, R214, R219, R220, R221, R234, R249, R260). -/
def Obligations.RowEvents : Prop :=
  ∀ (s : State), gated s = false →
    (∀ r rest bad res, s.intake.settled = r :: rest → ∃ t, exec (.friezeRowProcess bad res) s = .next t ∧
      t.intake.settled = rest ∧
      t.intake.front = s.intake.front) ∧
    (∀ x p, s.frieze.swap = some x → s.frieze.swaps = [] → rowsBefore s x.row = false → s.fzProd x.pid = some p →
      ∃ t, exec .delaySwapCopyDone s = .next t ∧ t.frieze.swap = none ∧ t.frieze.prods = s.frieze.prods ∧
        t.frieze.entriesA = (beamEntries p (fzInputs s p).length x.beam (x.entries.map BitVec.toNat)).foldl
          (fun l e => wordPut e.1 e.2 l) (bankEntries s false)) ∧
    (∀ pid p c, s.fzProd pid = some p → p.gainChange = some c → (p.gains.any fun x => x.1 ≥ c.boundary / 256) = true →
      ∃ t, exec (.gainAreaReleased pid) s = .next t ∧
        t.fzProd pid = some { p with area := c.area, gainChange := none } ∧
        t.hbm.mem = s.hbm.mem ∧ ∀ a, a ∈ t.hbm.allocs → a.kind = .namedGain pid → a.base = c.area) ∧
    (∀ g serial record, recordCrcOk record = false → exec (.psumRecordRx g serial record) s =
      .next { s with frieze := { s.frieze with importMismatch := s.frieze.importMismatch + 1 } }) ∧
    (∀ g serial record p, recordCrcOk record = true → s.frieze.prods.find? (psumMatches g serial record) = some p →
      exec (.psumRecordRx g serial record) s =
        .next (emitBeams ((List.range p.tr).foldl (fun t k => takePartial t p.pid (psumRow p record k)) s) p.pid)) ∧
    (∀ pid p im, s.fzProd pid = some p → p.imp = some im → ∃ t, exec (.importWindowExpiry pid) s = .next t ∧
      t.frieze.importLate = s.frieze.importLate + BitVec.ofNat 32
        (im.waiting.filter fun w => decide (w.1 + im.window * (100 * nanos) ≤ s.now)).length) ∧
    (∀ (i : Fin 64) c r res, c = s.chain i.val → c.state = .run → c.inbox.find? (fun r => r.counter == c.row) = some r →
      exec (.chainRowProcess i res) s =
        .next (takeRow s i.val res { c with inbox := c.inbox.filter fun r => c.row < r.counter } (chainSums s c r))) ∧
    (∀ (i : Fin 64) c, c = s.chain i.val → c.state = .run → c.inbox = [] → beamSilent s c c.row = true →
      exec (.chainRowProcess i []) s = .next (takeRow s i.val [] c (noSums c))) ∧
    (∀ (i : Fin 64) c x rest, c = s.chain i.val → c.dueIntervals = x :: rest →
      exec (.detectIntervalEnd i) s = .next (decideInterval (s.setChain i.val { c with dueIntervals := rest }) i.val x
        none)) ∧
    (∀ (i : Fin 64) c x rest pid, c = s.chain i.val → c.copying = x :: rest → c.capture = some pid →
      ∃ t, exec (.captureCopyDone i) s = .next t ∧ (t.chain i.val).copying = rest ∧
        ∃ seq, (t.chain i.val).capSlots = vset c.capSlots x.slot (some { id := x.id, seq := some seq }))

/-- A WAITF goes on once its words are held; an OPEN takes a freed slot; the feed copies words until the area is full or
the record ends, then counts the frame and frees the buffer; a closed record leaves in order when the rate allows and
its bytes hold no poison. Completes under conditions on the state and the operands alone: waitfSatisfied,
emitOpenWaitEnd, feedFrameCopy, derivedRecordRelease (R278, R293, R294, R295, R298, R299). -/
def Obligations.GlossFeedEvents : Prop :=
  ∀ (i : Fin 32) (s : State) (c : Core), c = s.core i.val → gated s = false →
    (∀ n u, c.waiting = some (.waitf n u) → c.state = .running → n ≤ inboundHeld c →
      exec (.waitfSatisfied i) s =
        .next (s.setCore i.val (spend (skip (spend { c with waiting := none } 0 (waitCycles s u)) 1) 1 0))) ∧
    (∀ f u a k, c.waiting = some (.emitOpen f u) → c.attach = some a → c.state = .running → a.detaching = false →
      freeCoreSlot s c a = some k → exec (.emitOpenWaitEnd i) s =
        .next (emitNow (s.setCore i.val (spend { c with waiting := none } 0 (waitCycles s u))) i.val a f (some k))) ∧
    (∀ f a, c.frame = some f → c.attach = some a → (copyWords a.inBase (2 ^ a.inLog2) f.words c).2.1 ≠ [] →
      ∃ t r, exec (.feedFrameCopy i []) s = .next t ∧ r = copyWords a.inBase (2 ^ a.inLog2) f.words c ∧
        t.core i.val = { r.1 with frame := some { f with words := r.2.1 } } ∧ t.hbm = s.hbm) ∧
    (∀ f a, c.frame = some f → c.attach = some a → a.declines = [] → a.detaching = false →
      (copyWords a.inBase (2 ^ a.inLog2) f.words c).2.1 = [] →
      ∃ t r, exec (.feedFrameCopy i []) s = .next t ∧ r = copyWords a.inBase (2 ^ a.inLog2) f.words c ∧
        t.core i.val = { r.1 with frame := none, feedFrames := c.feedFrames + 1, attach := some { a with head := a.head + f.free } }) ∧
    (∀ a x k, c.attach = some a → c.closed = [x] → x.slot = some k → a.detaching = false → rateAllows s c a = true →
      poisoned s (slotAddr a k + 64) (slotAddr a k + 64 + x.len) = false →
      ∃ t, exec (.derivedRecordRelease i) s = .next t ∧ (t.core i.val).closed = [] ∧
        (t.core i.val).slots = vset c.slots k (.leaving x.seq) ∧ t.hbm.mem = s.hbm.mem)

/-- A pulse starts at its due time rounded to the PCLK edge and counts; an enabled edge enters its function's FIFO with
its stamp of the 6.4 GHz sampling, a glitch only counts; a frame with a good FCS is forwarded to the other port with
its residence time added where both ports forward; a port's link changes alone. That counters stand at the ingress
port is the model's choice (log 52). Completes under conditions on the state and the operands alone: timeOutPulse,
timeInEdge, ethFrameForward, tportLinkChange (R404, R406, R407, R408, R409, R410). -/
def Obligations.PinAndPortEvents : Prop :=
  ∀ (s : State),
    (∀ (pin : Fin 4) o r rest, o = outPin s pin.val → s.pair.role ≠ .standby → o.mode = 0 → o.queue = r :: rest →
      r.time ≤ s.now →
      ∃ t e, exec (.timeOutPulse pin) s = .next t ∧ e = (roundHE r.time 10240).toNat * 10240 ∧
        outPin t pin.val = { o with queue := rest, pulses := o.pulses + 1, highUntil := some (e + o.width * nanos) } ∧
        t.out = .pulse pin.val e o.width :: s.out) ∧
    (∀ (pin : Fin 4) o, o = outPin s pin.val → s.pair.role ≠ .standby → o.mode = 1 → o.sent = 0 → o.start ≤ s.now →
      ∃ t e, exec (.timeOutPulse pin) s = .next t ∧ e = (roundHE o.start 10240).toNat * 10240 ∧
        outPin t pin.val = { o with sent := 1, pulses := o.pulses + 1, highUntil := some (e + o.width * nanos) } ∧
        t.out = .pulse pin.val e o.width :: s.out) ∧
    (∀ (pin : Fin 4) o, o = outPin s pin.val → s.pair.role ≠ .standby → o.mode = 2 →
      o.start + o.sent * o.period ≤ s.now →
      ∃ t e, exec (.timeOutPulse pin) s = .next t ∧
        e = (roundHE ((o.start + o.sent * o.period : Nat) : Int) 10240).toNat * 10240 ∧
        outPin t pin.val = { o with sent := o.sent + 1, pulses := o.pulses + 1, highUntil := some (e + o.width * nanos) } ∧
        t.out = .pulse pin.val e o.width :: s.out) ∧
    (∀ (pin : Fin 4) (falling : Bool) time e (x : TimeIn) f, x = s.tin f pin.val → e = edgeStamp time →
      x.enabled = true →
      bitOf x.edges (b2n falling) = true → (∀ l, x.last = some l → timeOf e < l ∨ l + 20 * nanos ≤ timeOf e) →
        x.fifo.length < 64 →
      ∃ t, exec (.timeInEdge pin falling false time) s = .next t ∧ t.tin f pin.val =
        { x with fifo := x.fifo ++ [{ falling := falling, gen := s.net.stepGen, time := e }], last := some (timeOf e) }
          ∧
        t.plinth = s.plinth) ∧
    (∀ (pin : Fin 4) (falling : Bool) time (x : TimeIn) f, x = s.tin f pin.val → x.enabled = true →
      ∃ t, exec (.timeInEdge pin falling true time) s = .next t ∧ t.tin f pin.val = { x with glitch := x.glitch + 1 }) ∧
    (∀ (p : Fin 2) frame residence, (s.tport p.val).link = true → fcsOk frame = true → forwarding s = true →
      (s.tport (1 - p.val)).link = true →
      ∃ t, exec (.ethFrameForward p frame residence false) s = .next t ∧
        t.out = .eth (1 - p.val) (forwarded frame residence) :: s.out ∧
        t.tport p.val = { s.tport p.val with
          tcFwd := (s.tport p.val).tcFwd + 1,
          resPeak := min 65535 (max (s.tport p.val).resPeak (residence / nanos))
            } ∧ t.tport (1 - p.val) = s.tport (1 - p.val)) ∧
    (∀ (p : Fin 2) up, domainUp s 7 = true → ∃ t, exec (.tportLinkChange p up) s = .next t ∧
      t.tport p.val = { s.tport p.val with link := up } ∧ t.tport (1 - p.val) = s.tport (1 - p.val))

/-- A Sync of the master starts an exchange, its Follow_Up completes the origin, an Announce enters the foreign list and
the best master is chosen again; a Delay_Resp whose path delay is 1 us above the filter is discarded; the first offset
is a step that validates the time; a Delay_Req is due at its interval and is sent with the port's transport, addresses
and domain and the next sequence number; without master the servo holds over. The message layout, the foreign-master
window and the delay interval are presumed from IEEE 1588 (log 15). Completes under conditions on the state and the
operands alone: ptpSyncRx, ptpFollowUpRx, ptpAnnounceRx, ptpDelayRespRx, delayReqSend, ptpMasterTimeout (R391, R393,
R394, R397, R399). -/
def Obligations.PtpMessages : Prop :=
  (∀ (s : State) (p : Fin 2) (f m : List Byte) (best : List Foreign → Option Announce),
     best = (fun l => bestMaster { s with net := { s.net with foreign := l } }) →
     (∀ ingress, takes s p.val 0 f m = true → fromMaster s p.val m = true → s.net.servo ≠ .holdover →
       ∃ t, exec (.ptpSyncRx p f ingress) s = .next t ∧ t.net.twoStep = ptpTwoStep m ∧
         t.net.sync = some {
           port := p.val, identity := BitVec.ofNat 64 (ptpIdentity m), seq := ptpSeq m, ingress := portStamp ingress,
           origin := if ptpTwoStep m = true then none else some (ptpTime m 34), correction := ptpCorrection m } ∧
         t.tport p.val = { s.tport p.val with rxSync := (s.tport p.val).rxSync + 1 } ∧ t.plinth = s.plinth) ∧
     (∀ q, takes s p.val 8 f m = true → s.net.sync = some q → fromMaster s p.val m = true → q.origin = none →
       q.port = p.val →
       q.seq = ptpSeq m →
       exec (.ptpFollowUpRx p f) s = .next { s with net := { s.net with
         sync := some { q with origin := some (ptpTime m 34), correction := q.correction + ptpCorrection m } } }) ∧
     (takes s p.val 0xB f m = true → ∃ t, exec (.ptpAnnounceRx p f) s = .next t ∧ t.plinth.sec = s.plinth.sec ∧
       (t.tport p.val).rxAnnounce = (s.tport p.val).rxAnnounce + 1 ∧
       (∃ x, x ∈ t.net.foreign ∧ x.data = readAnnounce p.val m ∧ x.heard.head? = some s.now) ∧
         t.net.master = best t.net.foreign) ∧
     (∀ q origin d g, takes s p.val 9 f m = true → s.net.sync = some q → s.net.delay = some d → q.origin = some origin →
       s.net.meanPath = some g → fromMaster s p.val m = true → d.port = p.val → d.seq = ptpSeq m →
       ((q.ingress : Int) - origin - q.correction + ((ptpTime m 34 : Nat) - d.egress - ptpCorrection m)) / 2 > g + 1000
         * nanos →
       ∃ t, exec (.ptpDelayRespRx p f) s = .next t ∧ t.net.sync = none ∧ t.net.delay = none ∧ t.net.meanPath = some g ∧
         t.plinth = s.plinth ∧ (t.tport p.val).rxDiscard = (s.tport p.val).rxDiscard + 1) ∧
     (∀ q origin d, takes s p.val 9 f m = true → s.net.sync = some q → s.net.delay = some d → q.origin = some origin →
       s.net.meanPath = none → fromMaster s p.val m = true → d.port = p.val → d.seq = ptpSeq m → disciplining s = true →
       s.net.valid = false →
       ∃ t, exec (.ptpDelayRespRx p f) s = .next t ∧ t.net.valid = true ∧ t.net.stepGen = s.net.stepGen + 1 ∧
         t.net.steps = s.net.steps + 1 ∧ t.net.servo = s.net.servo)) ∧
  (∀ (s : State) (a : Announce), s.net.master = some a → disciplining s = true →
     (∀ egress x, x = s.tport a.port → x.enabled = true → x.link = true → a.port < 2 → delayReqDue s = true →
       ∃ t, exec (.delayReqSend egress) s = .next t ∧
         t.out = .delayReq a.port { udp := x.udp, ip := x.ip, mac := x.mac, domain := x.domain, seq := s.net.delaySeq }
           :: s.out ∧
         t.net.delay = some { port := a.port, seq := s.net.delaySeq, egress := portStamp egress } ∧
           t.net.delayAt = some s.now ∧
         t.net.delaySeq = (s.net.delaySeq + 1) % 65536 ∧ t.tport a.port = { x with txDelayReq := x.txDelayReq + 1 }) ∧
     (s.net.servo = .acquire ∨ s.net.servo = .locked →
       ∃ t, exec (.ptpMasterTimeout false) s = .next t ∧ t.net.servo = .holdover ∧ t.net.master = some a ∧
         t.plinth.sec = s.plinth.sec ∧ t.plinth.ns = s.plinth.ns) ∧
     ∃ t, exec (.ptpMasterTimeout true) s = .next t ∧ (∀ f, f ∈ t.net.foreign → sameMaster f.data a = false) ∧
       t.net.master = bestMaster { s with net := { s.net with foreign := t.net.foreign } })

/-- A gate gives its reading and counts towards requalification; a failed activity monitor disqualifies and deselects; a
phase pull ends once nothing of it is left at the slope; the DPLL settles to LOCKED with a phase error within its
window; 60 s of lock make the history valid; a lost XO_IN is recorded. The phase error at lock is free within the
limit (log 53). Completes under conditions on the state and the operands alone: refMonitorGateEnd, refActivityFail,
phasePullEnd, dpllSettled, holdoverHistoryValid, xoLost (R416, R419, R420, R421, R426, R428, R430, R431). -/
def Obligations.ReferenceEvents : Prop :=
  ∀ (s : State),
    (∀ (r : Fin 5), (s.ref r.val).rank ≠ 0 → (r.val = 4 → s.net.servo = .locked) →
      ∀ reading, reading.natAbs ≤ 1000000 * 1024 →
      (s.ref r.val).qualified = false → within reading (s.ref r.val).accept = true →
      gateMs r.val + ((s.ref r.val).requalFor.getD 0) < (s.ref r.val).requalMs →
      ∃ t, exec (.refMonitorGateEnd r reading) s = .next t ∧ (t.ref r.val).reading = reading ∧
        (t.ref r.val).active = true ∧ (t.ref r.val).qualified = false ∧
        (t.ref r.val).requalFor = some ((s.ref r.val).requalFor.getD 0 + gateMs r.val)) ∧
    (∀ (r : Fin 5), (s.ref r.val).rank ≠ 0 → ∃ t, exec (.refActivityFail r) s = .next t ∧ (t.ref r.val).active = false ∧
      (t.ref r.val).qualified = false ∧ (t.ref r.val).requalFor = none ∧ t.clock.selected ≠ some r.val) ∧
    (∀ p, s.clock.pull = some p → pullLeft s p = 0 →
      exec .phasePullEnd s = .next { s with clock := { s.clock with pull := none } }) ∧
    (s.clock.state = .acquire → s.clock.pull = none → ∃ t, exec .dpllSettled s = .next t ∧ t.clock.state = .locked ∧
      t.clock.lockedAt = some s.now ∧ -320 ≤ t.clock.phaseErr ∧ t.clock.phaseErr ≤ 320 ∧ t.clock.freq = s.clock.freq) ∧
    (∀ u, s.clock.lockedAt = some u → 60 * second ≤ s.clock.lockedTime + (s.now - u) →
      ∃ t, exec .holdoverHistoryValid s = .next t ∧ t.clock.histValid = true ∧ t.clock.state = s.clock.state) ∧
    ∃ t, exec .xoLost s = .next t ∧ t.clock.xoOk = false

/-- A lane trim keeps a trial only if it lowers the count, steps on, and ends after its eleventh value; a level trim's
sums give gains with a boundary; a grid test instance that matches, with the injected faults added, goes on to the
next and after the last one counts a run; a mismatch that the retry clears counts and trims nothing; a temperature
reading is stored. Completes under conditions on the state and the operands alone: laneTrimWindowEnd,
levelTrimComputeDone, gridTestInstance, dieTempRead (R437, R438, R440, R441, R447, R448, R449). -/
def Obligations.TrimEvents : Prop :=
  ∀ (s : State),
    (∀ (l : Fin 52) (x : LaneTrim) r n, x = s.laneTrim l.val → x.run = some r → r.trial = false → r.steps < 4 →
      stepFits x r = true →
      ∃ t, exec (.laneTrimWindowEnd l n) s = .next t ∧
        t.laneTrim l.val = { x with run := some { r with best := some n, trial := true } }) ∧
    (∀ (l : Fin 52) (x y : LaneTrim) r n m, x = s.laneTrim l.val → x.run = some r → r.trial = true → r.best = some m →
      n < m →
      y = { x with codes := x.codes.set r.index (laneCode x r.index + r.dir) } → r.steps < 3 → stepFits y r = true →
      ∃ t, exec (.laneTrimWindowEnd l n) s = .next t ∧
        t.laneTrim l.val = { y with run := some { r with best := some n, steps := r.steps + 1, trial := true } }) ∧
    (∀ (l : Fin 52) (x : LaneTrim) r n m, x = s.laneTrim l.val → x.run = some r → r.trial = true → r.best = some m →
      m ≤ n →
      0 < r.steps → r.index = 10 →
      ∃ t, exec (.laneTrimWindowEnd l n) s = .next t ∧ t.trims.laneRuns = s.trims.laneRuns + 1 ∧
        t.laneTrim l.val = { x with run := none, index := 10, refTemp := s.trims.dieTemp, valid := true }) ∧
    (∀ (n : Fin 1024) l, s.err.service = true → gated s = false →
      s.trims.levels.find? (fun l => l.stream == n.val && l.ended && l.boundary.isNone) = some l →
      ∃ t, exec (.levelTrimComputeDone n) s = .next t ∧ t.trims.levelRuns = s.trims.levelRuns + 1 ∧
        t.trims.levelRef = s.trims.dieTemp ∧
        t.trims.levels = s.trims.levels.map fun x =>
          if x.stream = n.val then { x with boundary := some (gainBoundary s (l.sums.map Prod.fst)) } else x) ∧
    (∀ p first retry again b c, s.trims.gridTest = some p → testMayStart s = true →
      testErrs s p (first ++ injectCells s true) = [] →
      ∃ t, exec (.gridTestInstance first retry again true b c) s = .next t ∧ t.relief = (spendTest s p).relief ∧
        t.err = s.err ∧
        (p < 32 → t.trims = { s.trims with gridTest := some (p + 1) }) ∧
        (32 ≤ p → t.trims = { s.trims with gridTest := none, cellRuns := s.trims.cellRuns + 1, cellRef := s.trims.dieTemp })) ∧
    (∀ p first retry again b c, s.trims.gridTest = some p → testMayStart s = true →
      testErrs s p (first ++ injectCells s true) ≠ [] →
      testErrs s p (retry ++ injectCells s false) = [] →
      ∃ t, exec (.gridTestInstance first retry again b true c) s = .next t ∧
        t.relief.mismatches = s.relief.mismatches + 1 ∧
        t.relief.retriesOk = s.relief.retriesOk + 1 ∧ t.relief.bypass = s.relief.bypass ∧
          t.relief.fences = s.relief.fences) ∧
    (∀ temp, s.power.inReset = false → ∃ t, exec (.dieTempRead temp) s = .next t ∧ t.trims.dieTemp = temp) ∧
    (∀ temp, s.power.inReset = false → s.trims.laneStep = 0 → s.trims.levelStep = 0 → s.trims.cellStep = 0 →
      exec (.dieTempRead temp) s = .next { s with trims := { s.trims with dieTemp := temp } })

/-- A record enters log 0 and, where its class allows, log 1; a first lockstep mismatch or hang opens the incident and
stops service, a second one restarts again as class L, a third fails into class F; a restart that boots readable
firmware returns to service, and one with the recovery strap or without an owner key ends in recovery mode, memory
unchanged; an outvoted sequencer counts, and a second disagreement is a class F fault. Completes under conditions on
the state and the operands alone: logRecordWrite, armLockstep, armHang, armRestartStepTimeout, armRestarted,
seqOutvoted (R481, R486, R488, R490, R491, R492, R527, R544). -/
def Obligations.ErrorEvents : Prop :=
  ∀ (s : State), s.power.inReset = false →
    (∀ e, ∃ t, exec (.logRecordWrite e) s = .next t ∧ t.log .f0 = (logOffer (s.log .f0) (timeField s.now) e).1 ∧
      t.log .f1 = if inLog1 e = true then (logOffer (s.log .f1) (timeField s.now) e).1 else s.log .f1) ∧
    (s.err.seqState ≠ .failed → s.err.arm = none →
      (∃ t, exec .armLockstep s = .next t ∧ t.err.service = false ∧ t.err.seqState = .restart ∧ t.boot.download = none ∧
        t.err.arm = some { id := s.err.nextIncident, cause := 0x0E01, cls := .t, failures := 1 }) ∧
      ∃ t, exec .armHang s = .next t ∧ t.err.service = false ∧ t.err.seqState = .restart ∧ t.boot.download = none ∧
        t.err.arm = some { id := s.err.nextIncident, cause := 0x0E02, cls := .t, failures := 1 }) ∧
    (∀ a i, i = Instr.armLockstep ∨ i = Instr.armHang ∨ i = Instr.armRestartStepTimeout → s.err.seqState ≠ .failed →
      s.err.arm = some a → a.failures < 2 →
      ∃ t, exec i s = .next t ∧ t.err.service = false ∧ t.err.seqState = .secondRestart ∧
        t.err.arm = some { a with failures := a.failures + 1, cls := .l }) ∧
    (∀ a i, i = Instr.armLockstep ∨ i = Instr.armHang ∨ i = Instr.armRestartStepTimeout → s.err.seqState ≠ .failed →
      s.err.arm = some a → 2 ≤ a.failures →
      ∃ t, exec i s = .next t ∧ t.err.service = false ∧ t.err.seqState = .failed ∧ t.err.arm = none ∧
        t.err.fault = true) ∧
    (∀ u v n trial, restarting s = true → romChoose s s.boot.strapRecovery = (u, .image n trial) →
      v = bootInto u n trial →
      reads v v.boot.maqFormat = true → reads v (storedFormat v) = true → v.boot.ready = true →
        v.boot.svcWaiting = none →
      v.boot.activation = none → v.commitHold = [] →
      ∃ t, exec (.armRestarted true) s = .next t ∧ t.err.service = true ∧ t.err.seqState = .normal ∧ t.err.arm = none ∧
        t.err.activating = false ∧ t.err.armRestarts = v.err.armRestarts + 1) ∧
    (∀ ok, restarting s = true → s.boot.strapRecovery = true ∨ s.boot.keyHash = none →
      ∃ t, exec (.armRestarted ok) s = .next t ∧ t.boot.mode = .recovery ∧ t.boot.boots = s.boot.boots + 1 ∧
        t.err.service = false ∧ t.err.activating = false ∧ t.hbm = s.hbm) ∧
    (∃ t, exec (.seqOutvoted true) s = .next t ∧ t.err.seqOutvotes = s.err.seqOutvotes + 1 ∧ t.pair = s.pair ∧
      t.err.service = s.err.service) ∧
    ∃ t, exec (.seqOutvoted false) s = .next t ∧ t.err.fault = true ∧ t.pair.role = .faulted

/-- An active unit goes on unguarded at a peer fault and a synchronised standby takes over; the input high again clears
the fault; a takeover completes and counts; five windows against the state change ALIVE; a mirror frame updates what
is known of the peer, and a foreign serial number is a mismatch; a lost path is counted; a timeout sends the
unacknowledged messages again. Completes under conditions on the state and the operands alone: peerFault,
peerFaultNHigh, takeoverComplete, aliveWindowEnd, mirrorFrameRx, mirrorPathTimeout, mirrorRetransmit (R497, R498,
R499, R500, R502, R503, R512, R514, R515, R516). -/
def Obligations.PairLinkEvents : Prop :=
  ∀ (s : State), s.power.inReset = false →
    (s.pair.peerFault = false → s.pair.role = .active → ∃ t, exec .peerFault s = .next t ∧ t.pair.peerFault = true ∧
      t.pair.role = .active ∧ t.pair.guarded = false ∧ t.pair.resync = none ∧ t.pair.swap = none) ∧
    (s.pair.peerFault = false → s.pair.role = .standby → s.pair.synced = true →
      ∃ t, exec .peerFault s = .next t ∧ t.pair.peerFault = true ∧ t.pair.role = .active ∧
        t.pair.takeover.isSome = true ∧
        t.pair.guarded = false ∧ t.pair.lastRow = some (s.counterIn 5900)) ∧
    (s.pair.role ≠ .active → exec .peerFaultNHigh s = .next { s with pair := { s.pair with peerFault := false } }) ∧
    (∀ x, s.pair.takeover = some x → ∃ t, exec .takeoverComplete s = .next t ∧ t.pair = { s.pair with
      takeover := none, takeovers := s.pair.takeovers + 1 }) ∧
    (s.pair.role ≠ .disabled → s.pair.peerFault = false →
      (∀ n, decide (5 ≤ n ∧ n ≤ 20) = s.pair.aliveOk →
        exec (.aliveWindowEnd n) s = .next { s with pair := { s.pair with aliveRun := 0 } }) ∧
      (∀ n, decide (5 ≤ n ∧ n ≤ 20) ≠ s.pair.aliveOk → s.pair.aliveRun < 4 →
        exec (.aliveWindowEnd n) s = .next { s with pair := { s.pair with aliveRun := s.pair.aliveRun + 1 } }) ∧
      (∀ n, 5 ≤ n → n ≤ 20 → s.pair.aliveOk = false → 4 ≤ s.pair.aliveRun →
        exec (.aliveWindowEnd n) s = .next
          { s with pair := { s.pair with aliveRun := 0, aliveOk := true, split := false } }) ∧
      (∀ n, n < 5 ∨ 20 < n → s.pair.aliveOk = true → 4 ≤ s.pair.aliveRun →
        ∃ t, exec (.aliveWindowEnd n) s = .next t ∧ t.pair.aliveOk = false ∧
          t.pair.aliveLosses = s.pair.aliveLosses + 1 ∧
          t.pair.role = s.pair.role)) ∧
    (∀ (l : Fin 52) f h v, 48 ≤ l.val → h = f.drop 8 → v = BitVec.ofNat 32 (field h 28 4) → s.pair.role ≠ .disabled →
      s.pair.role ≠ .faulted → field h 2 1 = 3 →
      (v ≠ s.pair.partner → exec (.mirrorFrameRx l f) s =
        .next { s with pair := { s.pair with peerSerial := v, mismatch := 5 } }) ∧
      (v = s.pair.partner → ∃ t, exec (.mirrorFrameRx l f) s = .next t ∧ t.pair.peerSerial = v ∧
        t.pair.peer = some (senderRole (field h 0 2), bitOf (field h 0 2) 2, bitOf (field h 0 2) 3) ∧
        t.pair.peerVersion = field h 16 4)) ∧
    (s.pair.mirrorOk = true → ∃ t, exec .mirrorPathTimeout s = .next t ∧ t.pair.mirrorOk = false ∧
      t.pair.guarded = false ∧
      t.pair.synced = false ∧ t.pair.mirrorLosses = s.pair.mirrorLosses + 1 ∧ t.pair.role = s.pair.role) ∧
    (s.pair.out ≠ [] → exec .mirrorRetransmit s = .next { s with pair := { s.pair with
      retx := s.pair.retx + 1, txBytes := s.pair.out.flatMap msgBytes } })

/-- PAD changes nothing; a COMMIT, RESERVE, CHAIN, HBM, BULK, SYNC_DONE, SWAP, YIELD or LEAVE with the next number has its
effect in the role it is for; with another number it changes nothing. While the Armature restarts a COMMIT is held
where it fits and is not acknowledged where it does not (log 88). The payload layouts are the model's (log 27).
Completes under conditions on the state and the operands alone: pad, commit, reserve, chainMsg, hbmCopy, bulk,
syncDone, swap, yieldMsg, leave (R500, R501, R507, R508, R511, R520, R521, R522). -/
def Obligations.MirrorMessages : Prop :=
  (∀ (s u : State) (n : U32), s.power.inReset = false → s.pair.role ≠ .disabled →
     (∀ k, s.pair.lastRx = some k → (k + 1) % 2 ^ 32 = n.toNat) →
     u = { s with pair := { s.pair with lastRx := some n.toNat } } →
     exec .pad s = .next s ∧
     exec (.commit n none) s = .next u ∧
     (∀ x, restarting s = true → exec (.commit n (some x)) s =
       if holdFits s x.1 = true then .next { u with commitHold := s.commitHold ++ [x] } else .next s) ∧
     (∀ m c, restarting s = false → s.pair.role = .standby → commitKnown s c = false →
       ∃ t, exec (.commit n (some (m, c))) s = .next t ∧
       t.pair.commitCount = s.pair.commitCount + 1 ∧ c ∈ t.pair.peerCommits ∧ t.pair.lastRx = some n.toNat) ∧
     (∀ pid k e p, s.pair.role = .standby → s.product pid = some p → exec (.reserve n pid k e) s =
       .next (u.setProduct pid { p with spNext := max p.spNext (k.toNat + 1), ep := e.toNat })) ∧
     (∀ c, exec (.chainMsg n c) s = .next { u with pair := { u.pair with
       chains := (s.pair.chains.filter fun x => x.chain != c.chain) ++ [c] } }) ∧
     (∀ a bs, s.pair.role = .standby → a + bs.length ≤ s.hbm.capacity * granule →
       exec (.hbmCopy n a bs) s = .next (u.store a bs)) ∧
     (s.pair.role = .standby → exec (.bulk n none) s = .next { u with pair := { u.pair with synced := false } }) ∧
     (∀ m, s.pair.role = .standby → ∃ t, exec (.bulk n (some m)) s = .next t ∧ t.pair.synced = false ∧
       t.pair.image = some (m.capacity, m.rate, m.format) ∧ t.pair.lastRx = some n.toNat) ∧
     (∀ k crc, s.pair.role = .standby → syncMismatch s = 0 → exec (.syncDone n k crc) s =
       .next { u with pair := { u.pair with synced := true, commitCount := k } }) ∧
     (∀ k crc, s.pair.role = .standby → syncMismatch s ≠ 0 → ∃ t, exec (.syncDone n k crc) s = .next t ∧
       t.pair = { u.pair with synced := false, mismatch := syncMismatch s }) ∧
     (∀ k, s.pair.role = .standby → s.pair.synced = true → exec (.swap n k) s =
       .next { u with pair := { u.pair with swap := some { counter := k.toNat, msg := n.toNat, acked := true } } }) ∧
     (∀ l, s.pair.role = .active → ∃ t, exec (.yieldMsg n l) s = .next t ∧ t.pair.resync = some { phase := 0 } ∧
       t.pair.guarded = false ∧ t.pair.role = .active) ∧
     (s.pair.role = .active ∨ s.pair.role = .standby → ∃ t, exec (.leave n) s = .next t ∧ t.pair.role = .forming ∧
       t.pair.peer = none ∧ t.pair.synced = false ∧ t.pair.guarded = false ∧
       t.pair.stillGated = (s.pair.role == .standby))) ∧
  (∀ (s : State) (n : U32) (k : Nat), s.pair.lastRx = some k → (k + 1) % 2 ^ 32 ≠ n.toNat →
     (∀ x, exec (.commit n x) s = .next s) ∧ (∀ p a e, exec (.reserve n p a e) s = .next s) ∧
     (∀ c, exec (.chainMsg n c) s = .next s) ∧ (∀ a b, exec (.hbmCopy n a b) s = .next s) ∧
     (∀ x, exec (.bulk n x) s = .next s) ∧ (∀ x c, exec (.syncDone n x c) s = .next s) ∧
       (∀ x, exec (.swap n x) s = .next s) ∧
     (∀ l, exec (.yieldMsg n l) s = .next s) ∧ exec (.leave n) s = .next s)

/-- A unit without partner becomes ACTIVE if its peer is at fault or it has rank 0, and waits otherwise; at an
acknowledged swap row the active unit becomes the standby and the synchronised standby the active one; an
unacknowledged swap is dropped 100 us before its row. Completes under conditions on the state and the operands alone:
formingTimeout, plannedSwapRow, swapAckDeadline (R502, R503, R520). -/
def Obligations.PairTimers : Prop :=
  ∀ (s : State),
    (s.power.inReset = false → s.pair.role = .forming → s.pair.peer = none →
      (s.pair.peerFault = true ∨ s.pair.rank = false → ∃ t, exec .formingTimeout s = .next t ∧ t.pair.role = .active ∧
        t.pair.guarded = false ∧ t.pair.stillGated = false) ∧
      (s.pair.peerFault = false → s.pair.rank = true → ∃ t, exec .formingTimeout s = .next t ∧ t.pair = s.pair ∧
        t.products = s.products)) ∧
    (∀ w, s.pair.swap = some w → w.acked = true → gated s = false → s.pair.role = .active → w.counter ≤ s.intake.front →
      ∃ t, exec .plannedSwapRow s = .next t ∧ t.pair.role = .standby ∧ t.pair.swap = none ∧ t.pair.synced = false) ∧
    (∀ w, s.pair.swap = some w → w.acked = true → s.pair.role = .standby → s.pair.synced = true →
      w.counter ≤ s.counterIn 10000 →
      ∃ t, exec .plannedSwapRow s = .next t ∧ t.pair.role = .active ∧ t.pair.swap = none ∧
        t.pair.lastRow = some (max w.counter s.intake.front) ∧ t.pair.takeover = some { incident := none }) ∧
    ∀ w, s.pair.swap = some w → w.acked = false → s.pair.role = .active → s.timeAt w.counter ≤ s.now + 100 * micros →
      ∃ t, exec .swapAckDeadline s = .next t ∧ t.pair = { s.pair with swap := none }

/-- Release latches the straps, boots and counts; assertion, loss of PWR_GOOD and a thermal trip put the die in reset with
FAULT_N low, everything at its reset values but the flash contents and the fuses; a VID step moves by at most one;
VDD_IO rising requests code 0x10; at its time an activation restarts the Armature. The VID wanted is free (log 4).
Completes under conditions on the state and the operands alone: resetRelease, resetAssert, pwrGoodFall, thermalTrip,
vidStep, vddIoRise, updateActivationTime (R525, R526, R527, R538, R549, R554). -/
def Obligations.ResetEvents : Prop :=
  ∀ (s : State),
    (∀ r f k, s.power.inReset = true ∨ s.boot.mode = .rom → ∃ t, exec (.resetRelease r f k) s = .next t ∧
      t.power.inReset = false ∧ t.pair.strapRank = k ∧ t.boot.strapRecovery = !r ∧ t.boot.strapQuad = !f ∧
      t.err.faultN = true ∧ t.boot.boots = s.boot.boots + 1 ∧ (r = false → t.boot.mode = .recovery)) ∧
    (∀ i, i = Instr.resetAssert ∨ i = Instr.pwrGoodFall ∨ i = Instr.thermalTrip → ∃ t, exec i s = .next t ∧
      t.power.inReset = true ∧ t.err.faultN = false ∧ t.hbm = State.reset.hbm ∧ t.products = [] ∧
        t.intake = State.reset.intake ∧
      t.gloss = State.reset.gloss ∧ t.pair = State.reset.pair ∧ t.boot.mode = .rom ∧ t.boot.rec0 = s.boot.rec0 ∧
      t.boot.rec1 = s.boot.rec1 ∧ t.boot.set0 = s.boot.set0 ∧ t.boot.set1 = s.boot.set1 ∧ t.boot.slotA = s.boot.slotA ∧
      t.boot.slotB = s.boot.slotB ∧ t.boot.keyHash = s.boot.keyHash) ∧
    (s.power.inReset = false → s.boot.mode = .firmware → (∀ u, s.power.vidTime = some u → u + 10 * micros ≤ s.now) →
      ∃ t, exec .vidStep s = .next t ∧ t.fresh = s.fresh + 1 ∧ t.power.vid.toNat ≤ s.power.vid.toNat + 1 ∧
        s.power.vid.toNat ≤ t.power.vid.toNat + 1 ∧ t.power.domainOn = s.power.domainOn) ∧
    (∃ t, exec .vddIoRise s = .next t ∧ t.out = .vid 0x10 :: s.out ∧
      t.power = { s.power with vddIo := true, vid := 0x10, vidTime := none }) ∧
    (∀ n u, s.power.inReset = false → s.boot.activation = some (n, u) → u ≤ s.now → restarting s = false →
      s.err.seqState ≠ .failed → ∃ t, exec .updateActivationTime s = .next t ∧ t.boot.activation = none ∧
        t.err.activating = true ∧ t.err.service = false ∧ t.err.seqState = .restart ∧ t.boot.download = none)

/-- A read returns the pending answer; STATUS, IDENTIFY, DL_BEGIN, DL_DATA, DL_END, DL_ABORT, RECOVERY_BOOT and
KEY_PROGRAM with a good CRC and valid parameters have their effect and make their answer pending with DONE and their
tag. Completes under conditions on the state and the operands alone: svcRead, svcStatus, svcIdentify, dlBegin, dlData,
dlEnd, dlAbort, recoveryBoot, keyProgram (R530, R531, R534, R535, R536, R544). -/
def Obligations.ServicePort : Prop :=
  ∀ (s : State), s.power.inReset = false →
    (∃ t, exec .svcRead s = .next t ∧ t.boot.svcPending = none ∧ t.boot.svcAttnN = true ∧
      .svc (s.boot.svcPending.getD (svcBytes 0 0 stDone [])) ∈ t.out) ∧
    (s.boot.svcPending = none → s.boot.svcWaiting = none → restarting s = false → ∀ c : SvcCmd,
      (svcCrcOk 0x01 c = true → c.params = [] → ∃ t, exec (.svcStatus c) s = .next t ∧
        (∃ bs, t.boot.svcPending = some (svcBytes 0x01 c.tag.toNat stDone bs) ∧ bs.length = 32) ∧
        t.boot.svcCmds = s.boot.svcCmds + 1 ∧ t.boot.svcAttnN = false) ∧
      (svcCrcOk 0x02 c = true → c.params = [] → ∃ t, exec (.svcIdentify c) s = .next t ∧
        (∃ bs, t.boot.svcPending = some (svcBytes 0x02 c.tag.toNat stDone bs)) ∧ t.boot.svcCmds = s.boot.svcCmds + 1) ∧
      (∀ n, svcCrcOk 0x10 c = true → c.params.length = 5 → field c.params 0 1 = n → n ≤ 1 → field c.params 1 4 % 4 = 0 →
        4096 ≤ field c.params 1 4 → field c.params 1 4 ≤ 1048576 → downloadBusy s n = false →
        ∃ t, exec (.dlBegin c) s = .next t ∧ t.slot n = { header := none, chunks := [] } ∧
          t.slot (1 - n) = s.slot (1 - n) ∧
          t.boot.download = some { slot := n, length := field c.params 1 4, next := 0 } ∧
          t.boot.svcPending = some (svcBytes 0x10 c.tag.toNat stDone [])) ∧
      (∀ d, svcCrcOk 0x11 c = true → s.boot.download = some d → field c.params 0 4 = d.next → d.next < d.length →
        (c.params.drop 4).length = min 4096 (d.length - d.next) →
        ∃ t, exec (.dlData c) s = .next t ∧ tabGet d.next (t.slot d.slot).chunks = some (c.params.drop 4) ∧
          (t.slot d.slot).header = (s.slot d.slot).header ∧
          t.boot.download = some { d with next := d.next + (c.params.drop 4).length } ∧
          t.boot.svcPending = some (svcBytes 0x11 c.tag.toNat stDone [])) ∧
      (∀ d, svcCrcOk 0x12 c = true → s.boot.download = some d → c.params.length = 512 → crcOk c.params = true →
        field c.params 8 4 = d.length → d.length ≤ d.next →
        ∃ t, exec (.dlEnd c) s = .next t ∧ t.slot d.slot = { s.slot d.slot with header := some c.params } ∧
          t.boot.download = none ∧ t.boot.svcPending = some (svcBytes 0x12 c.tag.toNat stDone [])) ∧
      (svcCrcOk 0x13 c = true → c.params = [] → ∃ t, exec (.dlAbort c) s = .next t ∧ t.boot.download = none ∧
        t.boot.svcPending = some (svcBytes 0x13 c.tag.toNat stDone [])) ∧
      (svcCrcOk 0x20 c = true → s.boot.mode = .recovery → c.params.length = 1 → field c.params 0 1 ≤ 1 →
        ∃ t, exec (.recoveryBoot c) s = .next t ∧ t.boot.boots = s.boot.boots + 1 ∧
          t.boot.svcPending = some (svcBytes 0x20 c.tag.toNat stDone [])) ∧
      (svcCrcOk 0x30 c = true → s.boot.mode = .recovery → s.boot.keyHash = none → c.params.length = 48 →
        ∃ t, exec (.keyProgram c) s = .next t ∧ t.boot.keyHash = some c.params ∧
          t.boot.svcPending = some (svcBytes 0x30 c.tag.toNat stDone [])))

/-- What a lane event leaves unchanged: HBM, products, the Intake, the grid, the Frieze, the chains, the cores, time,
clock, DMA, boot, power, pair and worlds (R57, R58, R59, R68, R438). -/
def Obligations.LaneEventFrame : Prop :=
  ∀ (c : Instr) (s t : State), laneEvent c = true → exec c s = .next t →
      t.fresh = s.fresh ∧ t.latches = s.latches ∧ t.world = s.world ∧ t.products = s.products ∧ t.intake = s.intake ∧
      t.maps = s.maps ∧ t.corrs = s.corrs ∧ t.relief = s.relief ∧ t.istore = s.istore ∧ t.offers = s.offers ∧
      t.hbm = s.hbm ∧ t.pair = s.pair ∧ t.plinth = s.plinth ∧ t.net = s.net ∧ t.clock = s.clock ∧ t.dma = s.dma ∧
      t.boot = s.boot ∧ t.power = s.power ∧ t.frieze = s.frieze ∧ t.chisel = s.chisel ∧ t.gloss = s.gloss ∧
      t.commitHold = s.commitHold ∧ t.pending = s.pending

/-- A grid event leaves HBM, time, clock, boot, power, Frieze, chains and cores. An event of the HBM controller leaves
every unit but its own and the host side; those that move no data leave every byte; a request or scrub read changes no
byte whose word is not poisoned after it; the end of a rate change changes beside those only the bytes of the writes
it held, and of the pair only the completions held (R134, R178, R319, R323, R325, R326, R327, R329). -/
def Obligations.GridAndMemoryFrame : Prop :=
  ∀ (c : Instr) (s t : State), exec c s = .next t →
    (gridEvent c = true →
      t.fresh = s.fresh ∧ t.latches = s.latches ∧ t.world = s.world ∧ t.maps = s.maps ∧ t.istore = s.istore ∧
      t.hbm = s.hbm ∧ t.plinth = s.plinth ∧ t.net = s.net ∧ t.clock = s.clock ∧ t.boot = s.boot ∧ t.power = s.power ∧
      t.frieze = s.frieze ∧ t.chisel = s.chisel ∧ t.gloss = s.gloss ∧ t.commitHold = s.commitHold ∧
        t.pending = s.pending) ∧
    (memoryEvent c = true →
      t.fresh = s.fresh ∧ t.latches = s.latches ∧ t.products = s.products ∧ t.intake = s.intake ∧ t.maps = s.maps ∧
      t.corrs = s.corrs ∧ t.relief = s.relief ∧ t.istore = s.istore ∧ t.offers = s.offers ∧
      t.pair = { s.pair with heldCompletions := t.pair.heldCompletions } ∧ (c ≠ .hbmRateChangeDone → t.pair = s.pair) ∧
      t.osl = s.osl ∧ t.plinth = s.plinth ∧ t.net = s.net ∧ t.clock = s.clock ∧ t.trims = s.trims ∧ t.dma = s.dma ∧
      t.power = s.power ∧ t.frieze = s.frieze ∧ t.chisel = s.chisel ∧ t.gloss = s.gloss ∧ t.commitHold = s.commitHold ∧
        t.pending = s.pending ∧
      (keepsBytes c = true → t.hbm.mem = s.hbm.mem) ∧
      (poisonsWords c = true → Memory.wf s.hbm.mem = true →
        ∀ a, memGet a t.hbm.mem = memGet a s.hbm.mem ∨ poisoned t a (a + 1) = true) ∧
      (c = .hbmRateChangeDone → Memory.wf s.hbm.mem = true →
        ∀ a, (∀ x ∈ s.hbm.held, ∀ b, x.bytes = some b → a < x.addr ∨ x.addr + b.length ≤ a) →
          memGet a t.hbm.mem = memGet a s.hbm.mem ∨ poisoned t a (a + 1) = true))

/-- Such an event leaves worlds, products, the Intake, the grid, deliveries, HBM, lanes, trims, DMA, boot, power, pair,
Frieze, chains and cores (R402, R412, R417, R433). -/
def Obligations.TimeEventFrame : Prop :=
  ∀ (c : Instr) (s t : State), timeEvent c = true → exec c s = .next t →
      t.latches = s.latches ∧ t.world = s.world ∧ t.products = s.products ∧ t.intake = s.intake ∧ t.maps = s.maps ∧
      t.corrs = s.corrs ∧ t.relief = s.relief ∧ t.istore = s.istore ∧ t.offers = s.offers ∧ t.hbm = s.hbm ∧
      t.pair = s.pair ∧ t.osl = s.osl ∧ t.trims = s.trims ∧ t.dma = s.dma ∧ t.boot = s.boot ∧ t.power = s.power ∧
      t.frieze = s.frieze ∧ t.chisel = s.chisel ∧ t.gloss = s.gloss ∧ t.commitHold = s.commitHold ∧
        t.pending = s.pending

/-- A service port command, a supply step or an activation leaves the data path, time and the role; a fault event leaves
the data path and HBM; a pair message or timer of this group leaves everything but the pair, the products'
reservations and the queues, and the role (R481, R486, R488, R501, R510, R534). -/
def Obligations.ServiceAndFaultFrame : Prop :=
  ∀ (c : Instr) (s t : State), exec c s = .next t →
    (portCommand c = true →
      t.latches = s.latches ∧ t.world = s.world ∧ t.products = s.products ∧ t.intake = s.intake ∧ t.maps = s.maps ∧
      t.corrs = s.corrs ∧ t.relief = s.relief ∧ t.istore = s.istore ∧ t.offers = s.offers ∧ t.pair = s.pair ∧
      t.osl = s.osl ∧ t.plinth = s.plinth ∧ t.net = s.net ∧ t.clock = s.clock ∧ t.frieze = s.frieze ∧
        t.gloss = s.gloss ∧
      t.commitHold = s.commitHold ∧ t.pending = s.pending ∧
      t.hbm.mem = s.hbm.mem ∧ t.pair.role = s.pair.role) ∧
    (errorEvent c = true →
      t.fresh = s.fresh ∧ t.latches = s.latches ∧ t.world = s.world ∧ t.products = s.products ∧ t.intake = s.intake ∧
      t.maps = s.maps ∧ t.corrs = s.corrs ∧ t.relief = s.relief ∧ t.istore = s.istore ∧ t.offers = s.offers ∧
      t.hbm = s.hbm ∧ t.osl = s.osl ∧ t.plinth = s.plinth ∧ t.net = s.net ∧ t.power = s.power ∧ t.frieze = s.frieze ∧
      t.gloss = s.gloss ∧ t.commitHold = s.commitHold ∧ t.pending = s.pending) ∧
    (pairEvent c = true →
      t.fresh = s.fresh ∧ t.latches = s.latches ∧ t.world = s.world ∧ t.intake = s.intake ∧ t.maps = s.maps ∧
      t.corrs = s.corrs ∧ t.relief = s.relief ∧ t.istore = s.istore ∧ t.offers = s.offers ∧ t.hbm = s.hbm ∧
      t.osl = s.osl ∧ t.plinth = s.plinth ∧ t.net = s.net ∧ t.clock = s.clock ∧ t.trims = s.trims ∧ t.dma = s.dma ∧
      t.boot = s.boot ∧ t.power = s.power ∧ t.frieze = s.frieze ∧ t.chisel = s.chisel ∧ t.gloss = s.gloss ∧
      t.commitHold = s.commitHold ∧ t.pending = s.pending ∧ t.pair.role = s.pair.role)

/-- Such a command leaves products, the Intake, the grid, deliveries, HBM, lanes, time, clock, trims, DMA, boot, power,
Frieze, chains, cores and the role (R339, R343, R349, R350, R353). -/
def Obligations.QueueCommandFrame : Prop :=
  ∀ (c : Instr) (s t : State), queueCommand c = true → exec c s = .next t →
      t.latches = s.latches ∧ t.products = s.products ∧ t.intake = s.intake ∧ t.maps = s.maps ∧ t.corrs = s.corrs ∧
      t.relief = s.relief ∧ t.istore = s.istore ∧ t.offers = s.offers ∧ t.hbm = s.hbm ∧ t.osl = s.osl ∧
      t.plinth = s.plinth ∧ t.net = s.net ∧ t.clock = s.clock ∧ t.trims = s.trims ∧ t.dma = s.dma ∧ t.boot = s.boot ∧
      t.power = s.power ∧ t.frieze = s.frieze ∧ t.chisel = s.chisel ∧ t.gloss = s.gloss ∧ t.commitHold = s.commitHold ∧
        t.pending = s.pending ∧
      t.pair.role = s.pair.role

/-- The events of Frieze rows, chains and record delivery leave maps, correlation products, the grid, the Plinth, the
clock, DMA, boot, power and the role (R14, R171, R172, R202, R234). -/
def Obligations.RowEventFrame : Prop :=
  ∀ (c : Instr) (s t : State), rowEvent c = true → exec c s = .next t →
      t.fresh = s.fresh ∧ t.latches = s.latches ∧ t.maps = s.maps ∧ t.corrs = s.corrs ∧ t.relief = s.relief ∧
      t.istore = s.istore ∧ t.plinth = s.plinth ∧ t.clock = s.clock ∧ t.dma = s.dma ∧ t.boot = s.boot ∧
      t.power = s.power ∧ t.commitHold = s.commitHold ∧ t.pending = s.pending ∧
      t.pair.role = s.pair.role

/-- An instruction or engine event of core i leaves every other core, the Intake, the grid, time, trims, DMA, boot, power,
Frieze, chains and the role (R272, R277, R300). -/
def Obligations.GlossFrame : Prop :=
  ∀ (c : Instr) (i : Fin 32) (s t : State), coreOf c = some i → exec c s = .next t →
      t.latches = s.latches ∧ t.intake = s.intake ∧ t.maps = s.maps ∧ t.corrs = s.corrs ∧ t.relief = s.relief ∧
      t.istore = s.istore ∧ t.plinth = s.plinth ∧ t.net = s.net ∧ t.clock = s.clock ∧ t.trims = s.trims ∧
        t.dma = s.dma ∧
      t.boot = s.boot ∧ t.power = s.power ∧ t.frieze = s.frieze ∧ t.chisel = s.chisel ∧ t.commitHold = s.commitHold ∧
        t.pending = s.pending ∧
      t.pair.role = s.pair.role ∧ ∀ j : Fin 32, j ≠ i → t.core j.val = s.core j.val

/-- Every Clause leaves the read latches and the queue; maps, DMA, power, the Plinth, the clock, the role, the correlation
products and the cores change only by the opcodes listed for each (R4, R354, R368, R489). -/
def Obligations.ClauseFrame : Prop :=
  ∀ (c : Instr) cl op (s t : State), clauseOf c = some cl → op = cl.opcode → exec c s = .next t →
    t.latches = s.latches ∧ t.commitHold = s.commitHold ∧ t.pending = s.pending ∧
    (op ∉ [0x0300, 0x0301, 0x0B00] → t.maps = s.maps) ∧
    (op ∉ [0x0A01, 0x0B00, 0x0D02, 0x0D03] → t.dma = s.dma) ∧
    (op ∉ [0x0B00, 0x0D02, 0x0D03] → t.power = s.power) ∧
    (op ∉ [0x0700, 0x0701, 0x0703, 0x0800, 0x0801, 0x0B00] → t.plinth = s.plinth) ∧
    (op ∉ [0x0700, 0x0701, 0x0703, 0x0800, 0x0801, 0x0802, 0x0B00] → t.clock = s.clock) ∧
    (op ∉ [0x0B00] → t.pair.role = s.pair.role) ∧
    (op ∉ [0x0302, 0x0303, 0x0304, 0x0305, 0x0306, 0x0310, 0x0312, 0x0A02, 0x0B00] → t.corrs = s.corrs) ∧
    (op ∉ [0x0600, 0x0601, 0x0602, 0x0603, 0x0604, 0x0607, 0x0A01, 0x0B00, 0x0D02, 0x0D03] → t.gloss = s.gloss)
end

