-- ==== Sys2Proof/Laws/State.lean ====
section
/-! SUPPORT. What each update of a part of the state leaves as it was, one lemma per field and update, and what a read gives
after an update of the same part. -/

namespace Sys2Proof.Machine

@[simp] theorem State.emit_fresh (s : State) (e : Emission) : (s.emit e).fresh = s.fresh := rfl
@[simp] theorem State.emit_latches (s : State) (e : Emission) : (s.emit e).latches = s.latches := rfl
@[simp] theorem State.emit_commitHold (s : State) (e : Emission) : (s.emit e).commitHold = s.commitHold := rfl
@[simp] theorem State.emit_link (s : State) (e : Emission) : (s.emit e).link = s.link := rfl
@[simp] theorem State.emit_world (s : State) (e : Emission) : (s.emit e).world = s.world := rfl
@[simp] theorem State.emit_err (s : State) (e : Emission) : (s.emit e).err = s.err := rfl
@[simp] theorem State.emit_products (s : State) (e : Emission) : (s.emit e).products = s.products := rfl
@[simp] theorem State.emit_intake (s : State) (e : Emission) : (s.emit e).intake = s.intake := rfl
@[simp] theorem State.emit_maps (s : State) (e : Emission) : (s.emit e).maps = s.maps := rfl
@[simp] theorem State.emit_corrs (s : State) (e : Emission) : (s.emit e).corrs = s.corrs := rfl
@[simp] theorem State.emit_relief (s : State) (e : Emission) : (s.emit e).relief = s.relief := rfl
@[simp] theorem State.emit_istore (s : State) (e : Emission) : (s.emit e).istore = s.istore := rfl
@[simp] theorem State.emit_offers (s : State) (e : Emission) : (s.emit e).offers = s.offers := rfl
@[simp] theorem State.emit_hbm (s : State) (e : Emission) : (s.emit e).hbm = s.hbm := rfl
@[simp] theorem State.emit_pair (s : State) (e : Emission) : (s.emit e).pair = s.pair := rfl
@[simp] theorem State.emit_osl (s : State) (e : Emission) : (s.emit e).osl = s.osl := rfl
@[simp] theorem State.emit_plinth (s : State) (e : Emission) : (s.emit e).plinth = s.plinth := rfl
@[simp] theorem State.emit_net (s : State) (e : Emission) : (s.emit e).net = s.net := rfl
@[simp] theorem State.emit_clock (s : State) (e : Emission) : (s.emit e).clock = s.clock := rfl
@[simp] theorem State.emit_trims (s : State) (e : Emission) : (s.emit e).trims = s.trims := rfl
@[simp] theorem State.emit_dma (s : State) (e : Emission) : (s.emit e).dma = s.dma := rfl
@[simp] theorem State.emit_boot (s : State) (e : Emission) : (s.emit e).boot = s.boot := rfl
@[simp] theorem State.emit_power (s : State) (e : Emission) : (s.emit e).power = s.power := rfl
@[simp] theorem State.emit_frieze (s : State) (e : Emission) : (s.emit e).frieze = s.frieze := rfl
@[simp] theorem State.emit_chisel (s : State) (e : Emission) : (s.emit e).chisel = s.chisel := rfl
@[simp] theorem State.emit_gloss (s : State) (e : Emission) : (s.emit e).gloss = s.gloss := rfl
@[simp] theorem State.emit_pending (s : State) (e : Emission) : (s.emit e).pending = s.pending := rfl

@[simp] theorem State.setFn_out (s : State) (f : Fn) (x : FnState) : (s.setFn f x).out = s.out := by cases f <;> rfl
@[simp] theorem State.setFn_fresh (s : State) (f : Fn) (x : FnState) : (s.setFn f x).fresh = s.fresh := by cases f <;> rfl
@[simp] theorem State.setFn_latches (s : State) (f : Fn) (x : FnState) : (s.setFn f x).latches = s.latches := by cases f <;> rfl
@[simp] theorem State.setFn_commitHold (s : State) (f : Fn) (x : FnState) : (s.setFn f x).commitHold = s.commitHold := by cases f <;> rfl
@[simp] theorem State.setFn_world (s : State) (f : Fn) (x : FnState) : (s.setFn f x).world = s.world := by cases f <;> rfl
@[simp] theorem State.setFn_err (s : State) (f : Fn) (x : FnState) : (s.setFn f x).err = s.err := by cases f <;> rfl
@[simp] theorem State.setFn_products (s : State) (f : Fn) (x : FnState) : (s.setFn f x).products = s.products := by cases f <;> rfl
@[simp] theorem State.setFn_intake (s : State) (f : Fn) (x : FnState) : (s.setFn f x).intake = s.intake := by cases f <;> rfl
@[simp] theorem State.setFn_maps (s : State) (f : Fn) (x : FnState) : (s.setFn f x).maps = s.maps := by cases f <;> rfl
@[simp] theorem State.setFn_corrs (s : State) (f : Fn) (x : FnState) : (s.setFn f x).corrs = s.corrs := by cases f <;> rfl
@[simp] theorem State.setFn_relief (s : State) (f : Fn) (x : FnState) : (s.setFn f x).relief = s.relief := by cases f <;> rfl
@[simp] theorem State.setFn_istore (s : State) (f : Fn) (x : FnState) : (s.setFn f x).istore = s.istore := by cases f <;> rfl
@[simp] theorem State.setFn_offers (s : State) (f : Fn) (x : FnState) : (s.setFn f x).offers = s.offers := by cases f <;> rfl
@[simp] theorem State.setFn_hbm (s : State) (f : Fn) (x : FnState) : (s.setFn f x).hbm = s.hbm := by cases f <;> rfl
@[simp] theorem State.setFn_pair (s : State) (f : Fn) (x : FnState) : (s.setFn f x).pair = s.pair := by cases f <;> rfl
@[simp] theorem State.setFn_osl (s : State) (f : Fn) (x : FnState) : (s.setFn f x).osl = s.osl := by cases f <;> rfl
@[simp] theorem State.setFn_plinth (s : State) (f : Fn) (x : FnState) : (s.setFn f x).plinth = s.plinth := by cases f <;> rfl
@[simp] theorem State.setFn_net (s : State) (f : Fn) (x : FnState) : (s.setFn f x).net = s.net := by cases f <;> rfl
@[simp] theorem State.setFn_clock (s : State) (f : Fn) (x : FnState) : (s.setFn f x).clock = s.clock := by cases f <;> rfl
@[simp] theorem State.setFn_trims (s : State) (f : Fn) (x : FnState) : (s.setFn f x).trims = s.trims := by cases f <;> rfl
@[simp] theorem State.setFn_dma (s : State) (f : Fn) (x : FnState) : (s.setFn f x).dma = s.dma := by cases f <;> rfl
@[simp] theorem State.setFn_boot (s : State) (f : Fn) (x : FnState) : (s.setFn f x).boot = s.boot := by cases f <;> rfl
@[simp] theorem State.setFn_power (s : State) (f : Fn) (x : FnState) : (s.setFn f x).power = s.power := by cases f <;> rfl
@[simp] theorem State.setFn_frieze (s : State) (f : Fn) (x : FnState) : (s.setFn f x).frieze = s.frieze := by cases f <;> rfl
@[simp] theorem State.setFn_chisel (s : State) (f : Fn) (x : FnState) : (s.setFn f x).chisel = s.chisel := by cases f <;> rfl
@[simp] theorem State.setFn_gloss (s : State) (f : Fn) (x : FnState) : (s.setFn f x).gloss = s.gloss := by cases f <;> rfl
@[simp] theorem State.setFn_pending (s : State) (f : Fn) (x : FnState) : (s.setFn f x).pending = s.pending := by cases f <;> rfl

@[simp] theorem State.setQp_out (s : State) (f : Fn) (i : Nat) (q : Qp) : (s.setQp f i q).out = s.out := by cases f <;> rfl
@[simp] theorem State.setQp_fresh (s : State) (f : Fn) (i : Nat) (q : Qp) : (s.setQp f i q).fresh = s.fresh := by cases f <;> rfl
@[simp] theorem State.setQp_latches (s : State) (f : Fn) (i : Nat) (q : Qp) : (s.setQp f i q).latches = s.latches := by cases f <;> rfl
@[simp] theorem State.setQp_commitHold (s : State) (f : Fn) (i : Nat) (q : Qp) : (s.setQp f i q).commitHold = s.commitHold := by cases f <;> rfl
@[simp] theorem State.setQp_world (s : State) (f : Fn) (i : Nat) (q : Qp) : (s.setQp f i q).world = s.world := by cases f <;> rfl
@[simp] theorem State.setQp_err (s : State) (f : Fn) (i : Nat) (q : Qp) : (s.setQp f i q).err = s.err := by cases f <;> rfl
@[simp] theorem State.setQp_products (s : State) (f : Fn) (i : Nat) (q : Qp) : (s.setQp f i q).products = s.products := by cases f <;> rfl
@[simp] theorem State.setQp_intake (s : State) (f : Fn) (i : Nat) (q : Qp) : (s.setQp f i q).intake = s.intake := by cases f <;> rfl
@[simp] theorem State.setQp_maps (s : State) (f : Fn) (i : Nat) (q : Qp) : (s.setQp f i q).maps = s.maps := by cases f <;> rfl
@[simp] theorem State.setQp_corrs (s : State) (f : Fn) (i : Nat) (q : Qp) : (s.setQp f i q).corrs = s.corrs := by cases f <;> rfl
@[simp] theorem State.setQp_relief (s : State) (f : Fn) (i : Nat) (q : Qp) : (s.setQp f i q).relief = s.relief := by cases f <;> rfl
@[simp] theorem State.setQp_istore (s : State) (f : Fn) (i : Nat) (q : Qp) : (s.setQp f i q).istore = s.istore := by cases f <;> rfl
@[simp] theorem State.setQp_offers (s : State) (f : Fn) (i : Nat) (q : Qp) : (s.setQp f i q).offers = s.offers := by cases f <;> rfl
@[simp] theorem State.setQp_hbm (s : State) (f : Fn) (i : Nat) (q : Qp) : (s.setQp f i q).hbm = s.hbm := by cases f <;> rfl
@[simp] theorem State.setQp_pair (s : State) (f : Fn) (i : Nat) (q : Qp) : (s.setQp f i q).pair = s.pair := by cases f <;> rfl
@[simp] theorem State.setQp_osl (s : State) (f : Fn) (i : Nat) (q : Qp) : (s.setQp f i q).osl = s.osl := by cases f <;> rfl
@[simp] theorem State.setQp_plinth (s : State) (f : Fn) (i : Nat) (q : Qp) : (s.setQp f i q).plinth = s.plinth := by cases f <;> rfl
@[simp] theorem State.setQp_net (s : State) (f : Fn) (i : Nat) (q : Qp) : (s.setQp f i q).net = s.net := by cases f <;> rfl
@[simp] theorem State.setQp_clock (s : State) (f : Fn) (i : Nat) (q : Qp) : (s.setQp f i q).clock = s.clock := by cases f <;> rfl
@[simp] theorem State.setQp_trims (s : State) (f : Fn) (i : Nat) (q : Qp) : (s.setQp f i q).trims = s.trims := by cases f <;> rfl
@[simp] theorem State.setQp_dma (s : State) (f : Fn) (i : Nat) (q : Qp) : (s.setQp f i q).dma = s.dma := by cases f <;> rfl
@[simp] theorem State.setQp_boot (s : State) (f : Fn) (i : Nat) (q : Qp) : (s.setQp f i q).boot = s.boot := by cases f <;> rfl
@[simp] theorem State.setQp_power (s : State) (f : Fn) (i : Nat) (q : Qp) : (s.setQp f i q).power = s.power := by cases f <;> rfl
@[simp] theorem State.setQp_frieze (s : State) (f : Fn) (i : Nat) (q : Qp) : (s.setQp f i q).frieze = s.frieze := by cases f <;> rfl
@[simp] theorem State.setQp_chisel (s : State) (f : Fn) (i : Nat) (q : Qp) : (s.setQp f i q).chisel = s.chisel := by cases f <;> rfl
@[simp] theorem State.setQp_gloss (s : State) (f : Fn) (i : Nat) (q : Qp) : (s.setQp f i q).gloss = s.gloss := by cases f <;> rfl
@[simp] theorem State.setQp_pending (s : State) (f : Fn) (i : Nat) (q : Qp) : (s.setQp f i q).pending = s.pending := by cases f <;> rfl

@[simp] theorem State.setRing_out (s : State) (f : Fn) (i : Nat) (x : Ring) : (s.setRing f i x).out = s.out := by cases f <;> rfl
@[simp] theorem State.setRing_fresh (s : State) (f : Fn) (i : Nat) (x : Ring) : (s.setRing f i x).fresh = s.fresh := by cases f <;> rfl
@[simp] theorem State.setRing_latches (s : State) (f : Fn) (i : Nat) (x : Ring) : (s.setRing f i x).latches = s.latches := by cases f <;> rfl
@[simp] theorem State.setRing_commitHold (s : State) (f : Fn) (i : Nat) (x : Ring) : (s.setRing f i x).commitHold = s.commitHold := by cases f <;> rfl
@[simp] theorem State.setRing_world (s : State) (f : Fn) (i : Nat) (x : Ring) : (s.setRing f i x).world = s.world := by cases f <;> rfl
@[simp] theorem State.setRing_err (s : State) (f : Fn) (i : Nat) (x : Ring) : (s.setRing f i x).err = s.err := by cases f <;> rfl
@[simp] theorem State.setRing_products (s : State) (f : Fn) (i : Nat) (x : Ring) : (s.setRing f i x).products = s.products := by cases f <;> rfl
@[simp] theorem State.setRing_intake (s : State) (f : Fn) (i : Nat) (x : Ring) : (s.setRing f i x).intake = s.intake := by cases f <;> rfl
@[simp] theorem State.setRing_maps (s : State) (f : Fn) (i : Nat) (x : Ring) : (s.setRing f i x).maps = s.maps := by cases f <;> rfl
@[simp] theorem State.setRing_corrs (s : State) (f : Fn) (i : Nat) (x : Ring) : (s.setRing f i x).corrs = s.corrs := by cases f <;> rfl
@[simp] theorem State.setRing_relief (s : State) (f : Fn) (i : Nat) (x : Ring) : (s.setRing f i x).relief = s.relief := by cases f <;> rfl
@[simp] theorem State.setRing_istore (s : State) (f : Fn) (i : Nat) (x : Ring) : (s.setRing f i x).istore = s.istore := by cases f <;> rfl
@[simp] theorem State.setRing_offers (s : State) (f : Fn) (i : Nat) (x : Ring) : (s.setRing f i x).offers = s.offers := by cases f <;> rfl
@[simp] theorem State.setRing_hbm (s : State) (f : Fn) (i : Nat) (x : Ring) : (s.setRing f i x).hbm = s.hbm := by cases f <;> rfl
@[simp] theorem State.setRing_pair (s : State) (f : Fn) (i : Nat) (x : Ring) : (s.setRing f i x).pair = s.pair := by cases f <;> rfl
@[simp] theorem State.setRing_osl (s : State) (f : Fn) (i : Nat) (x : Ring) : (s.setRing f i x).osl = s.osl := by cases f <;> rfl
@[simp] theorem State.setRing_plinth (s : State) (f : Fn) (i : Nat) (x : Ring) : (s.setRing f i x).plinth = s.plinth := by cases f <;> rfl
@[simp] theorem State.setRing_net (s : State) (f : Fn) (i : Nat) (x : Ring) : (s.setRing f i x).net = s.net := by cases f <;> rfl
@[simp] theorem State.setRing_clock (s : State) (f : Fn) (i : Nat) (x : Ring) : (s.setRing f i x).clock = s.clock := by cases f <;> rfl
@[simp] theorem State.setRing_trims (s : State) (f : Fn) (i : Nat) (x : Ring) : (s.setRing f i x).trims = s.trims := by cases f <;> rfl
@[simp] theorem State.setRing_dma (s : State) (f : Fn) (i : Nat) (x : Ring) : (s.setRing f i x).dma = s.dma := by cases f <;> rfl
@[simp] theorem State.setRing_boot (s : State) (f : Fn) (i : Nat) (x : Ring) : (s.setRing f i x).boot = s.boot := by cases f <;> rfl
@[simp] theorem State.setRing_power (s : State) (f : Fn) (i : Nat) (x : Ring) : (s.setRing f i x).power = s.power := by cases f <;> rfl
@[simp] theorem State.setRing_frieze (s : State) (f : Fn) (i : Nat) (x : Ring) : (s.setRing f i x).frieze = s.frieze := by cases f <;> rfl
@[simp] theorem State.setRing_chisel (s : State) (f : Fn) (i : Nat) (x : Ring) : (s.setRing f i x).chisel = s.chisel := by cases f <;> rfl
@[simp] theorem State.setRing_gloss (s : State) (f : Fn) (i : Nat) (x : Ring) : (s.setRing f i x).gloss = s.gloss := by cases f <;> rfl
@[simp] theorem State.setRing_pending (s : State) (f : Fn) (i : Nat) (x : Ring) : (s.setRing f i x).pending = s.pending := by cases f <;> rfl

@[simp] theorem State.setVec_out (s : State) (f : Fn) (i : Nat) (x : Msix) : (s.setVec f i x).out = s.out := by cases f <;> rfl
@[simp] theorem State.setVec_fresh (s : State) (f : Fn) (i : Nat) (x : Msix) : (s.setVec f i x).fresh = s.fresh := by cases f <;> rfl
@[simp] theorem State.setVec_latches (s : State) (f : Fn) (i : Nat) (x : Msix) : (s.setVec f i x).latches = s.latches := by cases f <;> rfl
@[simp] theorem State.setVec_commitHold (s : State) (f : Fn) (i : Nat) (x : Msix) : (s.setVec f i x).commitHold = s.commitHold := by cases f <;> rfl
@[simp] theorem State.setVec_world (s : State) (f : Fn) (i : Nat) (x : Msix) : (s.setVec f i x).world = s.world := by cases f <;> rfl
@[simp] theorem State.setVec_err (s : State) (f : Fn) (i : Nat) (x : Msix) : (s.setVec f i x).err = s.err := by cases f <;> rfl
@[simp] theorem State.setVec_products (s : State) (f : Fn) (i : Nat) (x : Msix) : (s.setVec f i x).products = s.products := by cases f <;> rfl
@[simp] theorem State.setVec_intake (s : State) (f : Fn) (i : Nat) (x : Msix) : (s.setVec f i x).intake = s.intake := by cases f <;> rfl
@[simp] theorem State.setVec_maps (s : State) (f : Fn) (i : Nat) (x : Msix) : (s.setVec f i x).maps = s.maps := by cases f <;> rfl
@[simp] theorem State.setVec_corrs (s : State) (f : Fn) (i : Nat) (x : Msix) : (s.setVec f i x).corrs = s.corrs := by cases f <;> rfl
@[simp] theorem State.setVec_relief (s : State) (f : Fn) (i : Nat) (x : Msix) : (s.setVec f i x).relief = s.relief := by cases f <;> rfl
@[simp] theorem State.setVec_istore (s : State) (f : Fn) (i : Nat) (x : Msix) : (s.setVec f i x).istore = s.istore := by cases f <;> rfl
@[simp] theorem State.setVec_offers (s : State) (f : Fn) (i : Nat) (x : Msix) : (s.setVec f i x).offers = s.offers := by cases f <;> rfl
@[simp] theorem State.setVec_hbm (s : State) (f : Fn) (i : Nat) (x : Msix) : (s.setVec f i x).hbm = s.hbm := by cases f <;> rfl
@[simp] theorem State.setVec_pair (s : State) (f : Fn) (i : Nat) (x : Msix) : (s.setVec f i x).pair = s.pair := by cases f <;> rfl
@[simp] theorem State.setVec_osl (s : State) (f : Fn) (i : Nat) (x : Msix) : (s.setVec f i x).osl = s.osl := by cases f <;> rfl
@[simp] theorem State.setVec_plinth (s : State) (f : Fn) (i : Nat) (x : Msix) : (s.setVec f i x).plinth = s.plinth := by cases f <;> rfl
@[simp] theorem State.setVec_net (s : State) (f : Fn) (i : Nat) (x : Msix) : (s.setVec f i x).net = s.net := by cases f <;> rfl
@[simp] theorem State.setVec_clock (s : State) (f : Fn) (i : Nat) (x : Msix) : (s.setVec f i x).clock = s.clock := by cases f <;> rfl
@[simp] theorem State.setVec_trims (s : State) (f : Fn) (i : Nat) (x : Msix) : (s.setVec f i x).trims = s.trims := by cases f <;> rfl
@[simp] theorem State.setVec_dma (s : State) (f : Fn) (i : Nat) (x : Msix) : (s.setVec f i x).dma = s.dma := by cases f <;> rfl
@[simp] theorem State.setVec_boot (s : State) (f : Fn) (i : Nat) (x : Msix) : (s.setVec f i x).boot = s.boot := by cases f <;> rfl
@[simp] theorem State.setVec_power (s : State) (f : Fn) (i : Nat) (x : Msix) : (s.setVec f i x).power = s.power := by cases f <;> rfl
@[simp] theorem State.setVec_frieze (s : State) (f : Fn) (i : Nat) (x : Msix) : (s.setVec f i x).frieze = s.frieze := by cases f <;> rfl
@[simp] theorem State.setVec_chisel (s : State) (f : Fn) (i : Nat) (x : Msix) : (s.setVec f i x).chisel = s.chisel := by cases f <;> rfl
@[simp] theorem State.setVec_gloss (s : State) (f : Fn) (i : Nat) (x : Msix) : (s.setVec f i x).gloss = s.gloss := by cases f <;> rfl
@[simp] theorem State.setVec_pending (s : State) (f : Fn) (i : Nat) (x : Msix) : (s.setVec f i x).pending = s.pending := by cases f <;> rfl

@[simp] theorem State.setLane_out (s : State) (i : Nat) (x : Lane) : (s.setLane i x).out = s.out := rfl
@[simp] theorem State.setLane_fresh (s : State) (i : Nat) (x : Lane) : (s.setLane i x).fresh = s.fresh := rfl
@[simp] theorem State.setLane_latches (s : State) (i : Nat) (x : Lane) : (s.setLane i x).latches = s.latches := rfl
@[simp] theorem State.setLane_commitHold (s : State) (i : Nat) (x : Lane) : (s.setLane i x).commitHold = s.commitHold := rfl
@[simp] theorem State.setLane_link (s : State) (i : Nat) (x : Lane) : (s.setLane i x).link = s.link := rfl
@[simp] theorem State.setLane_world (s : State) (i : Nat) (x : Lane) : (s.setLane i x).world = s.world := rfl
@[simp] theorem State.setLane_err (s : State) (i : Nat) (x : Lane) : (s.setLane i x).err = s.err := rfl
@[simp] theorem State.setLane_products (s : State) (i : Nat) (x : Lane) : (s.setLane i x).products = s.products := rfl
@[simp] theorem State.setLane_intake (s : State) (i : Nat) (x : Lane) : (s.setLane i x).intake = s.intake := rfl
@[simp] theorem State.setLane_maps (s : State) (i : Nat) (x : Lane) : (s.setLane i x).maps = s.maps := rfl
@[simp] theorem State.setLane_corrs (s : State) (i : Nat) (x : Lane) : (s.setLane i x).corrs = s.corrs := rfl
@[simp] theorem State.setLane_relief (s : State) (i : Nat) (x : Lane) : (s.setLane i x).relief = s.relief := rfl
@[simp] theorem State.setLane_istore (s : State) (i : Nat) (x : Lane) : (s.setLane i x).istore = s.istore := rfl
@[simp] theorem State.setLane_offers (s : State) (i : Nat) (x : Lane) : (s.setLane i x).offers = s.offers := rfl
@[simp] theorem State.setLane_hbm (s : State) (i : Nat) (x : Lane) : (s.setLane i x).hbm = s.hbm := rfl
@[simp] theorem State.setLane_pair (s : State) (i : Nat) (x : Lane) : (s.setLane i x).pair = s.pair := rfl
@[simp] theorem State.setLane_plinth (s : State) (i : Nat) (x : Lane) : (s.setLane i x).plinth = s.plinth := rfl
@[simp] theorem State.setLane_net (s : State) (i : Nat) (x : Lane) : (s.setLane i x).net = s.net := rfl
@[simp] theorem State.setLane_clock (s : State) (i : Nat) (x : Lane) : (s.setLane i x).clock = s.clock := rfl
@[simp] theorem State.setLane_trims (s : State) (i : Nat) (x : Lane) : (s.setLane i x).trims = s.trims := rfl
@[simp] theorem State.setLane_dma (s : State) (i : Nat) (x : Lane) : (s.setLane i x).dma = s.dma := rfl
@[simp] theorem State.setLane_boot (s : State) (i : Nat) (x : Lane) : (s.setLane i x).boot = s.boot := rfl
@[simp] theorem State.setLane_power (s : State) (i : Nat) (x : Lane) : (s.setLane i x).power = s.power := rfl
@[simp] theorem State.setLane_frieze (s : State) (i : Nat) (x : Lane) : (s.setLane i x).frieze = s.frieze := rfl
@[simp] theorem State.setLane_chisel (s : State) (i : Nat) (x : Lane) : (s.setLane i x).chisel = s.chisel := rfl
@[simp] theorem State.setLane_gloss (s : State) (i : Nat) (x : Lane) : (s.setLane i x).gloss = s.gloss := rfl
@[simp] theorem State.setLane_pending (s : State) (i : Nat) (x : Lane) : (s.setLane i x).pending = s.pending := rfl

@[simp] theorem State.setChain_out (s : State) (i : Nat) (x : Chain) : (s.setChain i x).out = s.out := rfl
@[simp] theorem State.setChain_fresh (s : State) (i : Nat) (x : Chain) : (s.setChain i x).fresh = s.fresh := rfl
@[simp] theorem State.setChain_latches (s : State) (i : Nat) (x : Chain) : (s.setChain i x).latches = s.latches := rfl
@[simp] theorem State.setChain_commitHold (s : State) (i : Nat) (x : Chain) : (s.setChain i x).commitHold = s.commitHold := rfl
@[simp] theorem State.setChain_link (s : State) (i : Nat) (x : Chain) : (s.setChain i x).link = s.link := rfl
@[simp] theorem State.setChain_world (s : State) (i : Nat) (x : Chain) : (s.setChain i x).world = s.world := rfl
@[simp] theorem State.setChain_err (s : State) (i : Nat) (x : Chain) : (s.setChain i x).err = s.err := rfl
@[simp] theorem State.setChain_products (s : State) (i : Nat) (x : Chain) : (s.setChain i x).products = s.products := rfl
@[simp] theorem State.setChain_intake (s : State) (i : Nat) (x : Chain) : (s.setChain i x).intake = s.intake := rfl
@[simp] theorem State.setChain_maps (s : State) (i : Nat) (x : Chain) : (s.setChain i x).maps = s.maps := rfl
@[simp] theorem State.setChain_corrs (s : State) (i : Nat) (x : Chain) : (s.setChain i x).corrs = s.corrs := rfl
@[simp] theorem State.setChain_relief (s : State) (i : Nat) (x : Chain) : (s.setChain i x).relief = s.relief := rfl
@[simp] theorem State.setChain_istore (s : State) (i : Nat) (x : Chain) : (s.setChain i x).istore = s.istore := rfl
@[simp] theorem State.setChain_offers (s : State) (i : Nat) (x : Chain) : (s.setChain i x).offers = s.offers := rfl
@[simp] theorem State.setChain_hbm (s : State) (i : Nat) (x : Chain) : (s.setChain i x).hbm = s.hbm := rfl
@[simp] theorem State.setChain_pair (s : State) (i : Nat) (x : Chain) : (s.setChain i x).pair = s.pair := rfl
@[simp] theorem State.setChain_osl (s : State) (i : Nat) (x : Chain) : (s.setChain i x).osl = s.osl := rfl
@[simp] theorem State.setChain_plinth (s : State) (i : Nat) (x : Chain) : (s.setChain i x).plinth = s.plinth := rfl
@[simp] theorem State.setChain_net (s : State) (i : Nat) (x : Chain) : (s.setChain i x).net = s.net := rfl
@[simp] theorem State.setChain_clock (s : State) (i : Nat) (x : Chain) : (s.setChain i x).clock = s.clock := rfl
@[simp] theorem State.setChain_trims (s : State) (i : Nat) (x : Chain) : (s.setChain i x).trims = s.trims := rfl
@[simp] theorem State.setChain_dma (s : State) (i : Nat) (x : Chain) : (s.setChain i x).dma = s.dma := rfl
@[simp] theorem State.setChain_boot (s : State) (i : Nat) (x : Chain) : (s.setChain i x).boot = s.boot := rfl
@[simp] theorem State.setChain_power (s : State) (i : Nat) (x : Chain) : (s.setChain i x).power = s.power := rfl
@[simp] theorem State.setChain_frieze (s : State) (i : Nat) (x : Chain) : (s.setChain i x).frieze = s.frieze := rfl
@[simp] theorem State.setChain_gloss (s : State) (i : Nat) (x : Chain) : (s.setChain i x).gloss = s.gloss := rfl
@[simp] theorem State.setChain_pending (s : State) (i : Nat) (x : Chain) : (s.setChain i x).pending = s.pending := rfl

@[simp] theorem State.setCore_out (s : State) (i : Nat) (x : Core) : (s.setCore i x).out = s.out := rfl
@[simp] theorem State.setCore_fresh (s : State) (i : Nat) (x : Core) : (s.setCore i x).fresh = s.fresh := rfl
@[simp] theorem State.setCore_latches (s : State) (i : Nat) (x : Core) : (s.setCore i x).latches = s.latches := rfl
@[simp] theorem State.setCore_commitHold (s : State) (i : Nat) (x : Core) : (s.setCore i x).commitHold = s.commitHold := rfl
@[simp] theorem State.setCore_link (s : State) (i : Nat) (x : Core) : (s.setCore i x).link = s.link := rfl
@[simp] theorem State.setCore_world (s : State) (i : Nat) (x : Core) : (s.setCore i x).world = s.world := rfl
@[simp] theorem State.setCore_err (s : State) (i : Nat) (x : Core) : (s.setCore i x).err = s.err := rfl
@[simp] theorem State.setCore_products (s : State) (i : Nat) (x : Core) : (s.setCore i x).products = s.products := rfl
@[simp] theorem State.setCore_intake (s : State) (i : Nat) (x : Core) : (s.setCore i x).intake = s.intake := rfl
@[simp] theorem State.setCore_maps (s : State) (i : Nat) (x : Core) : (s.setCore i x).maps = s.maps := rfl
@[simp] theorem State.setCore_corrs (s : State) (i : Nat) (x : Core) : (s.setCore i x).corrs = s.corrs := rfl
@[simp] theorem State.setCore_relief (s : State) (i : Nat) (x : Core) : (s.setCore i x).relief = s.relief := rfl
@[simp] theorem State.setCore_istore (s : State) (i : Nat) (x : Core) : (s.setCore i x).istore = s.istore := rfl
@[simp] theorem State.setCore_offers (s : State) (i : Nat) (x : Core) : (s.setCore i x).offers = s.offers := rfl
@[simp] theorem State.setCore_hbm (s : State) (i : Nat) (x : Core) : (s.setCore i x).hbm = s.hbm := rfl
@[simp] theorem State.setCore_pair (s : State) (i : Nat) (x : Core) : (s.setCore i x).pair = s.pair := rfl
@[simp] theorem State.setCore_osl (s : State) (i : Nat) (x : Core) : (s.setCore i x).osl = s.osl := rfl
@[simp] theorem State.setCore_plinth (s : State) (i : Nat) (x : Core) : (s.setCore i x).plinth = s.plinth := rfl
@[simp] theorem State.setCore_net (s : State) (i : Nat) (x : Core) : (s.setCore i x).net = s.net := rfl
@[simp] theorem State.setCore_clock (s : State) (i : Nat) (x : Core) : (s.setCore i x).clock = s.clock := rfl
@[simp] theorem State.setCore_trims (s : State) (i : Nat) (x : Core) : (s.setCore i x).trims = s.trims := rfl
@[simp] theorem State.setCore_dma (s : State) (i : Nat) (x : Core) : (s.setCore i x).dma = s.dma := rfl
@[simp] theorem State.setCore_boot (s : State) (i : Nat) (x : Core) : (s.setCore i x).boot = s.boot := rfl
@[simp] theorem State.setCore_power (s : State) (i : Nat) (x : Core) : (s.setCore i x).power = s.power := rfl
@[simp] theorem State.setCore_frieze (s : State) (i : Nat) (x : Core) : (s.setCore i x).frieze = s.frieze := rfl
@[simp] theorem State.setCore_chisel (s : State) (i : Nat) (x : Core) : (s.setCore i x).chisel = s.chisel := rfl
@[simp] theorem State.setCore_pending (s : State) (i : Nat) (x : Core) : (s.setCore i x).pending = s.pending := rfl

@[simp] theorem State.setChannel_out (s : State) (i : Nat) (x : Channel) : (s.setChannel i x).out = s.out := rfl
@[simp] theorem State.setChannel_fresh (s : State) (i : Nat) (x : Channel) : (s.setChannel i x).fresh = s.fresh := rfl
@[simp] theorem State.setChannel_latches (s : State) (i : Nat) (x : Channel) : (s.setChannel i x).latches = s.latches := rfl
@[simp] theorem State.setChannel_commitHold (s : State) (i : Nat) (x : Channel) : (s.setChannel i x).commitHold = s.commitHold := rfl
@[simp] theorem State.setChannel_link (s : State) (i : Nat) (x : Channel) : (s.setChannel i x).link = s.link := rfl
@[simp] theorem State.setChannel_world (s : State) (i : Nat) (x : Channel) : (s.setChannel i x).world = s.world := rfl
@[simp] theorem State.setChannel_err (s : State) (i : Nat) (x : Channel) : (s.setChannel i x).err = s.err := rfl
@[simp] theorem State.setChannel_products (s : State) (i : Nat) (x : Channel) : (s.setChannel i x).products = s.products := rfl
@[simp] theorem State.setChannel_intake (s : State) (i : Nat) (x : Channel) : (s.setChannel i x).intake = s.intake := rfl
@[simp] theorem State.setChannel_maps (s : State) (i : Nat) (x : Channel) : (s.setChannel i x).maps = s.maps := rfl
@[simp] theorem State.setChannel_corrs (s : State) (i : Nat) (x : Channel) : (s.setChannel i x).corrs = s.corrs := rfl
@[simp] theorem State.setChannel_relief (s : State) (i : Nat) (x : Channel) : (s.setChannel i x).relief = s.relief := rfl
@[simp] theorem State.setChannel_istore (s : State) (i : Nat) (x : Channel) : (s.setChannel i x).istore = s.istore := rfl
@[simp] theorem State.setChannel_offers (s : State) (i : Nat) (x : Channel) : (s.setChannel i x).offers = s.offers := rfl
@[simp] theorem State.setChannel_hbm (s : State) (i : Nat) (x : Channel) : (s.setChannel i x).hbm = s.hbm := rfl
@[simp] theorem State.setChannel_pair (s : State) (i : Nat) (x : Channel) : (s.setChannel i x).pair = s.pair := rfl
@[simp] theorem State.setChannel_osl (s : State) (i : Nat) (x : Channel) : (s.setChannel i x).osl = s.osl := rfl
@[simp] theorem State.setChannel_plinth (s : State) (i : Nat) (x : Channel) : (s.setChannel i x).plinth = s.plinth := rfl
@[simp] theorem State.setChannel_net (s : State) (i : Nat) (x : Channel) : (s.setChannel i x).net = s.net := rfl
@[simp] theorem State.setChannel_clock (s : State) (i : Nat) (x : Channel) : (s.setChannel i x).clock = s.clock := rfl
@[simp] theorem State.setChannel_trims (s : State) (i : Nat) (x : Channel) : (s.setChannel i x).trims = s.trims := rfl
@[simp] theorem State.setChannel_boot (s : State) (i : Nat) (x : Channel) : (s.setChannel i x).boot = s.boot := rfl
@[simp] theorem State.setChannel_power (s : State) (i : Nat) (x : Channel) : (s.setChannel i x).power = s.power := rfl
@[simp] theorem State.setChannel_frieze (s : State) (i : Nat) (x : Channel) : (s.setChannel i x).frieze = s.frieze := rfl
@[simp] theorem State.setChannel_chisel (s : State) (i : Nat) (x : Channel) : (s.setChannel i x).chisel = s.chisel := rfl
@[simp] theorem State.setChannel_gloss (s : State) (i : Nat) (x : Channel) : (s.setChannel i x).gloss = s.gloss := rfl
@[simp] theorem State.setChannel_pending (s : State) (i : Nat) (x : Channel) : (s.setChannel i x).pending = s.pending := rfl

@[simp] theorem State.setStream_out (s : State) (i : Nat) (x : Stream) : (s.setStream i x).out = s.out := rfl
@[simp] theorem State.setStream_fresh (s : State) (i : Nat) (x : Stream) : (s.setStream i x).fresh = s.fresh := rfl
@[simp] theorem State.setStream_latches (s : State) (i : Nat) (x : Stream) : (s.setStream i x).latches = s.latches := rfl
@[simp] theorem State.setStream_commitHold (s : State) (i : Nat) (x : Stream) : (s.setStream i x).commitHold = s.commitHold := rfl
@[simp] theorem State.setStream_link (s : State) (i : Nat) (x : Stream) : (s.setStream i x).link = s.link := rfl
@[simp] theorem State.setStream_world (s : State) (i : Nat) (x : Stream) : (s.setStream i x).world = s.world := rfl
@[simp] theorem State.setStream_err (s : State) (i : Nat) (x : Stream) : (s.setStream i x).err = s.err := rfl
@[simp] theorem State.setStream_products (s : State) (i : Nat) (x : Stream) : (s.setStream i x).products = s.products := rfl
@[simp] theorem State.setStream_maps (s : State) (i : Nat) (x : Stream) : (s.setStream i x).maps = s.maps := rfl
@[simp] theorem State.setStream_corrs (s : State) (i : Nat) (x : Stream) : (s.setStream i x).corrs = s.corrs := rfl
@[simp] theorem State.setStream_relief (s : State) (i : Nat) (x : Stream) : (s.setStream i x).relief = s.relief := rfl
@[simp] theorem State.setStream_istore (s : State) (i : Nat) (x : Stream) : (s.setStream i x).istore = s.istore := rfl
@[simp] theorem State.setStream_offers (s : State) (i : Nat) (x : Stream) : (s.setStream i x).offers = s.offers := rfl
@[simp] theorem State.setStream_hbm (s : State) (i : Nat) (x : Stream) : (s.setStream i x).hbm = s.hbm := rfl
@[simp] theorem State.setStream_pair (s : State) (i : Nat) (x : Stream) : (s.setStream i x).pair = s.pair := rfl
@[simp] theorem State.setStream_osl (s : State) (i : Nat) (x : Stream) : (s.setStream i x).osl = s.osl := rfl
@[simp] theorem State.setStream_plinth (s : State) (i : Nat) (x : Stream) : (s.setStream i x).plinth = s.plinth := rfl
@[simp] theorem State.setStream_net (s : State) (i : Nat) (x : Stream) : (s.setStream i x).net = s.net := rfl
@[simp] theorem State.setStream_clock (s : State) (i : Nat) (x : Stream) : (s.setStream i x).clock = s.clock := rfl
@[simp] theorem State.setStream_trims (s : State) (i : Nat) (x : Stream) : (s.setStream i x).trims = s.trims := rfl
@[simp] theorem State.setStream_dma (s : State) (i : Nat) (x : Stream) : (s.setStream i x).dma = s.dma := rfl
@[simp] theorem State.setStream_boot (s : State) (i : Nat) (x : Stream) : (s.setStream i x).boot = s.boot := rfl
@[simp] theorem State.setStream_power (s : State) (i : Nat) (x : Stream) : (s.setStream i x).power = s.power := rfl
@[simp] theorem State.setStream_frieze (s : State) (i : Nat) (x : Stream) : (s.setStream i x).frieze = s.frieze := rfl
@[simp] theorem State.setStream_chisel (s : State) (i : Nat) (x : Stream) : (s.setStream i x).chisel = s.chisel := rfl
@[simp] theorem State.setStream_gloss (s : State) (i : Nat) (x : Stream) : (s.setStream i x).gloss = s.gloss := rfl
@[simp] theorem State.setStream_pending (s : State) (i : Nat) (x : Stream) : (s.setStream i x).pending = s.pending := rfl

@[simp] theorem State.setStack_out (s : State) (i : Nat) (x : Stack) : (s.setStack i x).out = s.out := rfl
@[simp] theorem State.setStack_fresh (s : State) (i : Nat) (x : Stack) : (s.setStack i x).fresh = s.fresh := rfl
@[simp] theorem State.setStack_latches (s : State) (i : Nat) (x : Stack) : (s.setStack i x).latches = s.latches := rfl
@[simp] theorem State.setStack_commitHold (s : State) (i : Nat) (x : Stack) : (s.setStack i x).commitHold = s.commitHold := rfl
@[simp] theorem State.setStack_link (s : State) (i : Nat) (x : Stack) : (s.setStack i x).link = s.link := rfl
@[simp] theorem State.setStack_world (s : State) (i : Nat) (x : Stack) : (s.setStack i x).world = s.world := rfl
@[simp] theorem State.setStack_err (s : State) (i : Nat) (x : Stack) : (s.setStack i x).err = s.err := rfl
@[simp] theorem State.setStack_products (s : State) (i : Nat) (x : Stack) : (s.setStack i x).products = s.products := rfl
@[simp] theorem State.setStack_intake (s : State) (i : Nat) (x : Stack) : (s.setStack i x).intake = s.intake := rfl
@[simp] theorem State.setStack_maps (s : State) (i : Nat) (x : Stack) : (s.setStack i x).maps = s.maps := rfl
@[simp] theorem State.setStack_corrs (s : State) (i : Nat) (x : Stack) : (s.setStack i x).corrs = s.corrs := rfl
@[simp] theorem State.setStack_relief (s : State) (i : Nat) (x : Stack) : (s.setStack i x).relief = s.relief := rfl
@[simp] theorem State.setStack_istore (s : State) (i : Nat) (x : Stack) : (s.setStack i x).istore = s.istore := rfl
@[simp] theorem State.setStack_offers (s : State) (i : Nat) (x : Stack) : (s.setStack i x).offers = s.offers := rfl
@[simp] theorem State.setStack_pair (s : State) (i : Nat) (x : Stack) : (s.setStack i x).pair = s.pair := rfl
@[simp] theorem State.setStack_osl (s : State) (i : Nat) (x : Stack) : (s.setStack i x).osl = s.osl := rfl
@[simp] theorem State.setStack_plinth (s : State) (i : Nat) (x : Stack) : (s.setStack i x).plinth = s.plinth := rfl
@[simp] theorem State.setStack_net (s : State) (i : Nat) (x : Stack) : (s.setStack i x).net = s.net := rfl
@[simp] theorem State.setStack_clock (s : State) (i : Nat) (x : Stack) : (s.setStack i x).clock = s.clock := rfl
@[simp] theorem State.setStack_trims (s : State) (i : Nat) (x : Stack) : (s.setStack i x).trims = s.trims := rfl
@[simp] theorem State.setStack_dma (s : State) (i : Nat) (x : Stack) : (s.setStack i x).dma = s.dma := rfl
@[simp] theorem State.setStack_boot (s : State) (i : Nat) (x : Stack) : (s.setStack i x).boot = s.boot := rfl
@[simp] theorem State.setStack_power (s : State) (i : Nat) (x : Stack) : (s.setStack i x).power = s.power := rfl
@[simp] theorem State.setStack_frieze (s : State) (i : Nat) (x : Stack) : (s.setStack i x).frieze = s.frieze := rfl
@[simp] theorem State.setStack_chisel (s : State) (i : Nat) (x : Stack) : (s.setStack i x).chisel = s.chisel := rfl
@[simp] theorem State.setStack_gloss (s : State) (i : Nat) (x : Stack) : (s.setStack i x).gloss = s.gloss := rfl
@[simp] theorem State.setStack_pending (s : State) (i : Nat) (x : Stack) : (s.setStack i x).pending = s.pending := rfl

@[simp] theorem clearPoison_out (s : State) (lo hi : Nat) : (clearPoison s lo hi).out = s.out := rfl
@[simp] theorem clearPoison_fresh (s : State) (lo hi : Nat) : (clearPoison s lo hi).fresh = s.fresh := rfl
@[simp] theorem clearPoison_latches (s : State) (lo hi : Nat) : (clearPoison s lo hi).latches = s.latches := rfl
@[simp] theorem clearPoison_commitHold (s : State) (lo hi : Nat) : (clearPoison s lo hi).commitHold = s.commitHold := rfl
@[simp] theorem clearPoison_link (s : State) (lo hi : Nat) : (clearPoison s lo hi).link = s.link := rfl
@[simp] theorem clearPoison_world (s : State) (lo hi : Nat) : (clearPoison s lo hi).world = s.world := rfl
@[simp] theorem clearPoison_err (s : State) (lo hi : Nat) : (clearPoison s lo hi).err = s.err := rfl
@[simp] theorem clearPoison_products (s : State) (lo hi : Nat) : (clearPoison s lo hi).products = s.products := rfl
@[simp] theorem clearPoison_intake (s : State) (lo hi : Nat) : (clearPoison s lo hi).intake = s.intake := rfl
@[simp] theorem clearPoison_maps (s : State) (lo hi : Nat) : (clearPoison s lo hi).maps = s.maps := rfl
@[simp] theorem clearPoison_corrs (s : State) (lo hi : Nat) : (clearPoison s lo hi).corrs = s.corrs := rfl
@[simp] theorem clearPoison_relief (s : State) (lo hi : Nat) : (clearPoison s lo hi).relief = s.relief := rfl
@[simp] theorem clearPoison_istore (s : State) (lo hi : Nat) : (clearPoison s lo hi).istore = s.istore := rfl
@[simp] theorem clearPoison_offers (s : State) (lo hi : Nat) : (clearPoison s lo hi).offers = s.offers := rfl
@[simp] theorem clearPoison_pair (s : State) (lo hi : Nat) : (clearPoison s lo hi).pair = s.pair := rfl
@[simp] theorem clearPoison_osl (s : State) (lo hi : Nat) : (clearPoison s lo hi).osl = s.osl := rfl
@[simp] theorem clearPoison_plinth (s : State) (lo hi : Nat) : (clearPoison s lo hi).plinth = s.plinth := rfl
@[simp] theorem clearPoison_net (s : State) (lo hi : Nat) : (clearPoison s lo hi).net = s.net := rfl
@[simp] theorem clearPoison_clock (s : State) (lo hi : Nat) : (clearPoison s lo hi).clock = s.clock := rfl
@[simp] theorem clearPoison_trims (s : State) (lo hi : Nat) : (clearPoison s lo hi).trims = s.trims := rfl
@[simp] theorem clearPoison_dma (s : State) (lo hi : Nat) : (clearPoison s lo hi).dma = s.dma := rfl
@[simp] theorem clearPoison_boot (s : State) (lo hi : Nat) : (clearPoison s lo hi).boot = s.boot := rfl
@[simp] theorem clearPoison_power (s : State) (lo hi : Nat) : (clearPoison s lo hi).power = s.power := rfl
@[simp] theorem clearPoison_frieze (s : State) (lo hi : Nat) : (clearPoison s lo hi).frieze = s.frieze := rfl
@[simp] theorem clearPoison_chisel (s : State) (lo hi : Nat) : (clearPoison s lo hi).chisel = s.chisel := rfl
@[simp] theorem clearPoison_gloss (s : State) (lo hi : Nat) : (clearPoison s lo hi).gloss = s.gloss := rfl
@[simp] theorem clearPoison_pending (s : State) (lo hi : Nat) : (clearPoison s lo hi).pending = s.pending := rfl

/-- A store changes the HBM alone. -/
theorem State.store_hbmOnly (s : State) (a : Nat) (bs : List Byte) : s.store a bs = { s with hbm := (s.store a bs).hbm } := by
  unfold State.store
  dsimp only
  generalize b2n _ + b2n _ = n
  by_cases h : n = 0
  · rw [if_pos h]; rfl
  · rw [if_neg h]; rfl

@[simp] theorem State.store_out (s : State) (a : Nat) (bs : List Byte) : (s.store a bs).out = s.out := by rw [State.store_hbmOnly]
@[simp] theorem State.store_fresh (s : State) (a : Nat) (bs : List Byte) : (s.store a bs).fresh = s.fresh := by rw [State.store_hbmOnly]
@[simp] theorem State.store_latches (s : State) (a : Nat) (bs : List Byte) : (s.store a bs).latches = s.latches := by rw [State.store_hbmOnly]
@[simp] theorem State.store_commitHold (s : State) (a : Nat) (bs : List Byte) : (s.store a bs).commitHold = s.commitHold := by rw [State.store_hbmOnly]
@[simp] theorem State.store_link (s : State) (a : Nat) (bs : List Byte) : (s.store a bs).link = s.link := by rw [State.store_hbmOnly]
@[simp] theorem State.store_world (s : State) (a : Nat) (bs : List Byte) : (s.store a bs).world = s.world := by rw [State.store_hbmOnly]
@[simp] theorem State.store_err (s : State) (a : Nat) (bs : List Byte) : (s.store a bs).err = s.err := by rw [State.store_hbmOnly]
@[simp] theorem State.store_products (s : State) (a : Nat) (bs : List Byte) : (s.store a bs).products = s.products := by rw [State.store_hbmOnly]
@[simp] theorem State.store_intake (s : State) (a : Nat) (bs : List Byte) : (s.store a bs).intake = s.intake := by rw [State.store_hbmOnly]
@[simp] theorem State.store_maps (s : State) (a : Nat) (bs : List Byte) : (s.store a bs).maps = s.maps := by rw [State.store_hbmOnly]
@[simp] theorem State.store_corrs (s : State) (a : Nat) (bs : List Byte) : (s.store a bs).corrs = s.corrs := by rw [State.store_hbmOnly]
@[simp] theorem State.store_relief (s : State) (a : Nat) (bs : List Byte) : (s.store a bs).relief = s.relief := by rw [State.store_hbmOnly]
@[simp] theorem State.store_istore (s : State) (a : Nat) (bs : List Byte) : (s.store a bs).istore = s.istore := by rw [State.store_hbmOnly]
@[simp] theorem State.store_offers (s : State) (a : Nat) (bs : List Byte) : (s.store a bs).offers = s.offers := by rw [State.store_hbmOnly]
@[simp] theorem State.store_pair (s : State) (a : Nat) (bs : List Byte) : (s.store a bs).pair = s.pair := by rw [State.store_hbmOnly]
@[simp] theorem State.store_osl (s : State) (a : Nat) (bs : List Byte) : (s.store a bs).osl = s.osl := by rw [State.store_hbmOnly]
@[simp] theorem State.store_plinth (s : State) (a : Nat) (bs : List Byte) : (s.store a bs).plinth = s.plinth := by rw [State.store_hbmOnly]
@[simp] theorem State.store_net (s : State) (a : Nat) (bs : List Byte) : (s.store a bs).net = s.net := by rw [State.store_hbmOnly]
@[simp] theorem State.store_clock (s : State) (a : Nat) (bs : List Byte) : (s.store a bs).clock = s.clock := by rw [State.store_hbmOnly]
@[simp] theorem State.store_trims (s : State) (a : Nat) (bs : List Byte) : (s.store a bs).trims = s.trims := by rw [State.store_hbmOnly]
@[simp] theorem State.store_dma (s : State) (a : Nat) (bs : List Byte) : (s.store a bs).dma = s.dma := by rw [State.store_hbmOnly]
@[simp] theorem State.store_boot (s : State) (a : Nat) (bs : List Byte) : (s.store a bs).boot = s.boot := by rw [State.store_hbmOnly]
@[simp] theorem State.store_power (s : State) (a : Nat) (bs : List Byte) : (s.store a bs).power = s.power := by rw [State.store_hbmOnly]
@[simp] theorem State.store_frieze (s : State) (a : Nat) (bs : List Byte) : (s.store a bs).frieze = s.frieze := by rw [State.store_hbmOnly]
@[simp] theorem State.store_chisel (s : State) (a : Nat) (bs : List Byte) : (s.store a bs).chisel = s.chisel := by rw [State.store_hbmOnly]
@[simp] theorem State.store_gloss (s : State) (a : Nat) (bs : List Byte) : (s.store a bs).gloss = s.gloss := by rw [State.store_hbmOnly]
@[simp] theorem State.store_pending (s : State) (a : Nat) (bs : List Byte) : (s.store a bs).pending = s.pending := by rw [State.store_hbmOnly]

@[simp] theorem State.setProduct_out (s : State) (i : Nat) (x : Product) : (s.setProduct i x).out = s.out := rfl
@[simp] theorem State.setProduct_fresh (s : State) (i : Nat) (x : Product) : (s.setProduct i x).fresh = s.fresh := rfl
@[simp] theorem State.setProduct_latches (s : State) (i : Nat) (x : Product) : (s.setProduct i x).latches = s.latches := rfl
@[simp] theorem State.setProduct_commitHold (s : State) (i : Nat) (x : Product) : (s.setProduct i x).commitHold = s.commitHold := rfl
@[simp] theorem State.setProduct_link (s : State) (i : Nat) (x : Product) : (s.setProduct i x).link = s.link := rfl
@[simp] theorem State.setProduct_world (s : State) (i : Nat) (x : Product) : (s.setProduct i x).world = s.world := rfl
@[simp] theorem State.setProduct_err (s : State) (i : Nat) (x : Product) : (s.setProduct i x).err = s.err := rfl
@[simp] theorem State.setProduct_intake (s : State) (i : Nat) (x : Product) : (s.setProduct i x).intake = s.intake := rfl
@[simp] theorem State.setProduct_maps (s : State) (i : Nat) (x : Product) : (s.setProduct i x).maps = s.maps := rfl
@[simp] theorem State.setProduct_corrs (s : State) (i : Nat) (x : Product) : (s.setProduct i x).corrs = s.corrs := rfl
@[simp] theorem State.setProduct_relief (s : State) (i : Nat) (x : Product) : (s.setProduct i x).relief = s.relief := rfl
@[simp] theorem State.setProduct_istore (s : State) (i : Nat) (x : Product) : (s.setProduct i x).istore = s.istore := rfl
@[simp] theorem State.setProduct_offers (s : State) (i : Nat) (x : Product) : (s.setProduct i x).offers = s.offers := rfl
@[simp] theorem State.setProduct_hbm (s : State) (i : Nat) (x : Product) : (s.setProduct i x).hbm = s.hbm := rfl
@[simp] theorem State.setProduct_pair (s : State) (i : Nat) (x : Product) : (s.setProduct i x).pair = s.pair := rfl
@[simp] theorem State.setProduct_osl (s : State) (i : Nat) (x : Product) : (s.setProduct i x).osl = s.osl := rfl
@[simp] theorem State.setProduct_plinth (s : State) (i : Nat) (x : Product) : (s.setProduct i x).plinth = s.plinth := rfl
@[simp] theorem State.setProduct_net (s : State) (i : Nat) (x : Product) : (s.setProduct i x).net = s.net := rfl
@[simp] theorem State.setProduct_clock (s : State) (i : Nat) (x : Product) : (s.setProduct i x).clock = s.clock := rfl
@[simp] theorem State.setProduct_trims (s : State) (i : Nat) (x : Product) : (s.setProduct i x).trims = s.trims := rfl
@[simp] theorem State.setProduct_dma (s : State) (i : Nat) (x : Product) : (s.setProduct i x).dma = s.dma := rfl
@[simp] theorem State.setProduct_boot (s : State) (i : Nat) (x : Product) : (s.setProduct i x).boot = s.boot := rfl
@[simp] theorem State.setProduct_power (s : State) (i : Nat) (x : Product) : (s.setProduct i x).power = s.power := rfl
@[simp] theorem State.setProduct_frieze (s : State) (i : Nat) (x : Product) : (s.setProduct i x).frieze = s.frieze := rfl
@[simp] theorem State.setProduct_chisel (s : State) (i : Nat) (x : Product) : (s.setProduct i x).chisel = s.chisel := rfl
@[simp] theorem State.setProduct_gloss (s : State) (i : Nat) (x : Product) : (s.setProduct i x).gloss = s.gloss := rfl
@[simp] theorem State.setProduct_pending (s : State) (i : Nat) (x : Product) : (s.setProduct i x).pending = s.pending := rfl

@[simp] theorem State.delProduct_out (s : State) (i : Nat) : (s.delProduct i).out = s.out := rfl
@[simp] theorem State.delProduct_fresh (s : State) (i : Nat) : (s.delProduct i).fresh = s.fresh := rfl
@[simp] theorem State.delProduct_latches (s : State) (i : Nat) : (s.delProduct i).latches = s.latches := rfl
@[simp] theorem State.delProduct_commitHold (s : State) (i : Nat) : (s.delProduct i).commitHold = s.commitHold := rfl
@[simp] theorem State.delProduct_link (s : State) (i : Nat) : (s.delProduct i).link = s.link := rfl
@[simp] theorem State.delProduct_world (s : State) (i : Nat) : (s.delProduct i).world = s.world := rfl
@[simp] theorem State.delProduct_err (s : State) (i : Nat) : (s.delProduct i).err = s.err := rfl
@[simp] theorem State.delProduct_intake (s : State) (i : Nat) : (s.delProduct i).intake = s.intake := rfl
@[simp] theorem State.delProduct_maps (s : State) (i : Nat) : (s.delProduct i).maps = s.maps := rfl
@[simp] theorem State.delProduct_corrs (s : State) (i : Nat) : (s.delProduct i).corrs = s.corrs := rfl
@[simp] theorem State.delProduct_relief (s : State) (i : Nat) : (s.delProduct i).relief = s.relief := rfl
@[simp] theorem State.delProduct_istore (s : State) (i : Nat) : (s.delProduct i).istore = s.istore := rfl
@[simp] theorem State.delProduct_offers (s : State) (i : Nat) : (s.delProduct i).offers = s.offers := rfl
@[simp] theorem State.delProduct_hbm (s : State) (i : Nat) : (s.delProduct i).hbm = s.hbm := rfl
@[simp] theorem State.delProduct_pair (s : State) (i : Nat) : (s.delProduct i).pair = s.pair := rfl
@[simp] theorem State.delProduct_osl (s : State) (i : Nat) : (s.delProduct i).osl = s.osl := rfl
@[simp] theorem State.delProduct_plinth (s : State) (i : Nat) : (s.delProduct i).plinth = s.plinth := rfl
@[simp] theorem State.delProduct_net (s : State) (i : Nat) : (s.delProduct i).net = s.net := rfl
@[simp] theorem State.delProduct_clock (s : State) (i : Nat) : (s.delProduct i).clock = s.clock := rfl
@[simp] theorem State.delProduct_trims (s : State) (i : Nat) : (s.delProduct i).trims = s.trims := rfl
@[simp] theorem State.delProduct_dma (s : State) (i : Nat) : (s.delProduct i).dma = s.dma := rfl
@[simp] theorem State.delProduct_boot (s : State) (i : Nat) : (s.delProduct i).boot = s.boot := rfl
@[simp] theorem State.delProduct_power (s : State) (i : Nat) : (s.delProduct i).power = s.power := rfl
@[simp] theorem State.delProduct_frieze (s : State) (i : Nat) : (s.delProduct i).frieze = s.frieze := rfl
@[simp] theorem State.delProduct_chisel (s : State) (i : Nat) : (s.delProduct i).chisel = s.chisel := rfl
@[simp] theorem State.delProduct_gloss (s : State) (i : Nat) : (s.delProduct i).gloss = s.gloss := rfl
@[simp] theorem State.delProduct_pending (s : State) (i : Nat) : (s.delProduct i).pending = s.pending := rfl

@[simp] theorem State.setCorr_out (s : State) (x : Corr) : (s.setCorr x).out = s.out := rfl
@[simp] theorem State.setCorr_fresh (s : State) (x : Corr) : (s.setCorr x).fresh = s.fresh := rfl
@[simp] theorem State.setCorr_latches (s : State) (x : Corr) : (s.setCorr x).latches = s.latches := rfl
@[simp] theorem State.setCorr_commitHold (s : State) (x : Corr) : (s.setCorr x).commitHold = s.commitHold := rfl
@[simp] theorem State.setCorr_link (s : State) (x : Corr) : (s.setCorr x).link = s.link := rfl
@[simp] theorem State.setCorr_world (s : State) (x : Corr) : (s.setCorr x).world = s.world := rfl
@[simp] theorem State.setCorr_err (s : State) (x : Corr) : (s.setCorr x).err = s.err := rfl
@[simp] theorem State.setCorr_products (s : State) (x : Corr) : (s.setCorr x).products = s.products := rfl
@[simp] theorem State.setCorr_intake (s : State) (x : Corr) : (s.setCorr x).intake = s.intake := rfl
@[simp] theorem State.setCorr_maps (s : State) (x : Corr) : (s.setCorr x).maps = s.maps := rfl
@[simp] theorem State.setCorr_relief (s : State) (x : Corr) : (s.setCorr x).relief = s.relief := rfl
@[simp] theorem State.setCorr_istore (s : State) (x : Corr) : (s.setCorr x).istore = s.istore := rfl
@[simp] theorem State.setCorr_offers (s : State) (x : Corr) : (s.setCorr x).offers = s.offers := rfl
@[simp] theorem State.setCorr_hbm (s : State) (x : Corr) : (s.setCorr x).hbm = s.hbm := rfl
@[simp] theorem State.setCorr_pair (s : State) (x : Corr) : (s.setCorr x).pair = s.pair := rfl
@[simp] theorem State.setCorr_osl (s : State) (x : Corr) : (s.setCorr x).osl = s.osl := rfl
@[simp] theorem State.setCorr_plinth (s : State) (x : Corr) : (s.setCorr x).plinth = s.plinth := rfl
@[simp] theorem State.setCorr_net (s : State) (x : Corr) : (s.setCorr x).net = s.net := rfl
@[simp] theorem State.setCorr_clock (s : State) (x : Corr) : (s.setCorr x).clock = s.clock := rfl
@[simp] theorem State.setCorr_trims (s : State) (x : Corr) : (s.setCorr x).trims = s.trims := rfl
@[simp] theorem State.setCorr_dma (s : State) (x : Corr) : (s.setCorr x).dma = s.dma := rfl
@[simp] theorem State.setCorr_boot (s : State) (x : Corr) : (s.setCorr x).boot = s.boot := rfl
@[simp] theorem State.setCorr_power (s : State) (x : Corr) : (s.setCorr x).power = s.power := rfl
@[simp] theorem State.setCorr_frieze (s : State) (x : Corr) : (s.setCorr x).frieze = s.frieze := rfl
@[simp] theorem State.setCorr_chisel (s : State) (x : Corr) : (s.setCorr x).chisel = s.chisel := rfl
@[simp] theorem State.setCorr_gloss (s : State) (x : Corr) : (s.setCorr x).gloss = s.gloss := rfl
@[simp] theorem State.setCorr_pending (s : State) (x : Corr) : (s.setCorr x).pending = s.pending := rfl

@[simp] theorem State.setFzProd_out (s : State) (x : FzProd) : (s.setFzProd x).out = s.out := rfl
@[simp] theorem State.setFzProd_fresh (s : State) (x : FzProd) : (s.setFzProd x).fresh = s.fresh := rfl
@[simp] theorem State.setFzProd_latches (s : State) (x : FzProd) : (s.setFzProd x).latches = s.latches := rfl
@[simp] theorem State.setFzProd_commitHold (s : State) (x : FzProd) : (s.setFzProd x).commitHold = s.commitHold := rfl
@[simp] theorem State.setFzProd_link (s : State) (x : FzProd) : (s.setFzProd x).link = s.link := rfl
@[simp] theorem State.setFzProd_world (s : State) (x : FzProd) : (s.setFzProd x).world = s.world := rfl
@[simp] theorem State.setFzProd_err (s : State) (x : FzProd) : (s.setFzProd x).err = s.err := rfl
@[simp] theorem State.setFzProd_products (s : State) (x : FzProd) : (s.setFzProd x).products = s.products := rfl
@[simp] theorem State.setFzProd_intake (s : State) (x : FzProd) : (s.setFzProd x).intake = s.intake := rfl
@[simp] theorem State.setFzProd_maps (s : State) (x : FzProd) : (s.setFzProd x).maps = s.maps := rfl
@[simp] theorem State.setFzProd_corrs (s : State) (x : FzProd) : (s.setFzProd x).corrs = s.corrs := rfl
@[simp] theorem State.setFzProd_relief (s : State) (x : FzProd) : (s.setFzProd x).relief = s.relief := rfl
@[simp] theorem State.setFzProd_istore (s : State) (x : FzProd) : (s.setFzProd x).istore = s.istore := rfl
@[simp] theorem State.setFzProd_offers (s : State) (x : FzProd) : (s.setFzProd x).offers = s.offers := rfl
@[simp] theorem State.setFzProd_hbm (s : State) (x : FzProd) : (s.setFzProd x).hbm = s.hbm := rfl
@[simp] theorem State.setFzProd_pair (s : State) (x : FzProd) : (s.setFzProd x).pair = s.pair := rfl
@[simp] theorem State.setFzProd_osl (s : State) (x : FzProd) : (s.setFzProd x).osl = s.osl := rfl
@[simp] theorem State.setFzProd_plinth (s : State) (x : FzProd) : (s.setFzProd x).plinth = s.plinth := rfl
@[simp] theorem State.setFzProd_net (s : State) (x : FzProd) : (s.setFzProd x).net = s.net := rfl
@[simp] theorem State.setFzProd_clock (s : State) (x : FzProd) : (s.setFzProd x).clock = s.clock := rfl
@[simp] theorem State.setFzProd_trims (s : State) (x : FzProd) : (s.setFzProd x).trims = s.trims := rfl
@[simp] theorem State.setFzProd_dma (s : State) (x : FzProd) : (s.setFzProd x).dma = s.dma := rfl
@[simp] theorem State.setFzProd_boot (s : State) (x : FzProd) : (s.setFzProd x).boot = s.boot := rfl
@[simp] theorem State.setFzProd_power (s : State) (x : FzProd) : (s.setFzProd x).power = s.power := rfl
@[simp] theorem State.setFzProd_chisel (s : State) (x : FzProd) : (s.setFzProd x).chisel = s.chisel := rfl
@[simp] theorem State.setFzProd_gloss (s : State) (x : FzProd) : (s.setFzProd x).gloss = s.gloss := rfl
@[simp] theorem State.setFzProd_pending (s : State) (x : FzProd) : (s.setFzProd x).pending = s.pending := rfl

@[simp] theorem State.setRef_out (s : State) (i : Nat) (x : Ref) : (s.setRef i x).out = s.out := rfl
@[simp] theorem State.setRef_fresh (s : State) (i : Nat) (x : Ref) : (s.setRef i x).fresh = s.fresh := rfl
@[simp] theorem State.setRef_latches (s : State) (i : Nat) (x : Ref) : (s.setRef i x).latches = s.latches := rfl
@[simp] theorem State.setRef_commitHold (s : State) (i : Nat) (x : Ref) : (s.setRef i x).commitHold = s.commitHold := rfl
@[simp] theorem State.setRef_link (s : State) (i : Nat) (x : Ref) : (s.setRef i x).link = s.link := rfl
@[simp] theorem State.setRef_world (s : State) (i : Nat) (x : Ref) : (s.setRef i x).world = s.world := rfl
@[simp] theorem State.setRef_err (s : State) (i : Nat) (x : Ref) : (s.setRef i x).err = s.err := rfl
@[simp] theorem State.setRef_products (s : State) (i : Nat) (x : Ref) : (s.setRef i x).products = s.products := rfl
@[simp] theorem State.setRef_intake (s : State) (i : Nat) (x : Ref) : (s.setRef i x).intake = s.intake := rfl
@[simp] theorem State.setRef_maps (s : State) (i : Nat) (x : Ref) : (s.setRef i x).maps = s.maps := rfl
@[simp] theorem State.setRef_corrs (s : State) (i : Nat) (x : Ref) : (s.setRef i x).corrs = s.corrs := rfl
@[simp] theorem State.setRef_relief (s : State) (i : Nat) (x : Ref) : (s.setRef i x).relief = s.relief := rfl
@[simp] theorem State.setRef_istore (s : State) (i : Nat) (x : Ref) : (s.setRef i x).istore = s.istore := rfl
@[simp] theorem State.setRef_offers (s : State) (i : Nat) (x : Ref) : (s.setRef i x).offers = s.offers := rfl
@[simp] theorem State.setRef_hbm (s : State) (i : Nat) (x : Ref) : (s.setRef i x).hbm = s.hbm := rfl
@[simp] theorem State.setRef_pair (s : State) (i : Nat) (x : Ref) : (s.setRef i x).pair = s.pair := rfl
@[simp] theorem State.setRef_osl (s : State) (i : Nat) (x : Ref) : (s.setRef i x).osl = s.osl := rfl
@[simp] theorem State.setRef_plinth (s : State) (i : Nat) (x : Ref) : (s.setRef i x).plinth = s.plinth := rfl
@[simp] theorem State.setRef_net (s : State) (i : Nat) (x : Ref) : (s.setRef i x).net = s.net := rfl
@[simp] theorem State.setRef_trims (s : State) (i : Nat) (x : Ref) : (s.setRef i x).trims = s.trims := rfl
@[simp] theorem State.setRef_dma (s : State) (i : Nat) (x : Ref) : (s.setRef i x).dma = s.dma := rfl
@[simp] theorem State.setRef_boot (s : State) (i : Nat) (x : Ref) : (s.setRef i x).boot = s.boot := rfl
@[simp] theorem State.setRef_power (s : State) (i : Nat) (x : Ref) : (s.setRef i x).power = s.power := rfl
@[simp] theorem State.setRef_frieze (s : State) (i : Nat) (x : Ref) : (s.setRef i x).frieze = s.frieze := rfl
@[simp] theorem State.setRef_chisel (s : State) (i : Nat) (x : Ref) : (s.setRef i x).chisel = s.chisel := rfl
@[simp] theorem State.setRef_gloss (s : State) (i : Nat) (x : Ref) : (s.setRef i x).gloss = s.gloss := rfl
@[simp] theorem State.setRef_pending (s : State) (i : Nat) (x : Ref) : (s.setRef i x).pending = s.pending := rfl

@[simp] theorem State.setLog_out (s : State) (f : Fn) (x : ErrLog) : (s.setLog f x).out = s.out := by cases f <;> rfl
@[simp] theorem State.setLog_fresh (s : State) (f : Fn) (x : ErrLog) : (s.setLog f x).fresh = s.fresh := by cases f <;> rfl
@[simp] theorem State.setLog_latches (s : State) (f : Fn) (x : ErrLog) : (s.setLog f x).latches = s.latches := by cases f <;> rfl
@[simp] theorem State.setLog_commitHold (s : State) (f : Fn) (x : ErrLog) : (s.setLog f x).commitHold = s.commitHold := by cases f <;> rfl
@[simp] theorem State.setLog_link (s : State) (f : Fn) (x : ErrLog) : (s.setLog f x).link = s.link := by cases f <;> rfl
@[simp] theorem State.setLog_world (s : State) (f : Fn) (x : ErrLog) : (s.setLog f x).world = s.world := by cases f <;> rfl
@[simp] theorem State.setLog_products (s : State) (f : Fn) (x : ErrLog) : (s.setLog f x).products = s.products := by cases f <;> rfl
@[simp] theorem State.setLog_intake (s : State) (f : Fn) (x : ErrLog) : (s.setLog f x).intake = s.intake := by cases f <;> rfl
@[simp] theorem State.setLog_maps (s : State) (f : Fn) (x : ErrLog) : (s.setLog f x).maps = s.maps := by cases f <;> rfl
@[simp] theorem State.setLog_corrs (s : State) (f : Fn) (x : ErrLog) : (s.setLog f x).corrs = s.corrs := by cases f <;> rfl
@[simp] theorem State.setLog_relief (s : State) (f : Fn) (x : ErrLog) : (s.setLog f x).relief = s.relief := by cases f <;> rfl
@[simp] theorem State.setLog_istore (s : State) (f : Fn) (x : ErrLog) : (s.setLog f x).istore = s.istore := by cases f <;> rfl
@[simp] theorem State.setLog_offers (s : State) (f : Fn) (x : ErrLog) : (s.setLog f x).offers = s.offers := by cases f <;> rfl
@[simp] theorem State.setLog_hbm (s : State) (f : Fn) (x : ErrLog) : (s.setLog f x).hbm = s.hbm := by cases f <;> rfl
@[simp] theorem State.setLog_pair (s : State) (f : Fn) (x : ErrLog) : (s.setLog f x).pair = s.pair := by cases f <;> rfl
@[simp] theorem State.setLog_osl (s : State) (f : Fn) (x : ErrLog) : (s.setLog f x).osl = s.osl := by cases f <;> rfl
@[simp] theorem State.setLog_plinth (s : State) (f : Fn) (x : ErrLog) : (s.setLog f x).plinth = s.plinth := by cases f <;> rfl
@[simp] theorem State.setLog_net (s : State) (f : Fn) (x : ErrLog) : (s.setLog f x).net = s.net := by cases f <;> rfl
@[simp] theorem State.setLog_clock (s : State) (f : Fn) (x : ErrLog) : (s.setLog f x).clock = s.clock := by cases f <;> rfl
@[simp] theorem State.setLog_trims (s : State) (f : Fn) (x : ErrLog) : (s.setLog f x).trims = s.trims := by cases f <;> rfl
@[simp] theorem State.setLog_dma (s : State) (f : Fn) (x : ErrLog) : (s.setLog f x).dma = s.dma := by cases f <;> rfl
@[simp] theorem State.setLog_boot (s : State) (f : Fn) (x : ErrLog) : (s.setLog f x).boot = s.boot := by cases f <;> rfl
@[simp] theorem State.setLog_power (s : State) (f : Fn) (x : ErrLog) : (s.setLog f x).power = s.power := by cases f <;> rfl
@[simp] theorem State.setLog_frieze (s : State) (f : Fn) (x : ErrLog) : (s.setLog f x).frieze = s.frieze := by cases f <;> rfl
@[simp] theorem State.setLog_chisel (s : State) (f : Fn) (x : ErrLog) : (s.setLog f x).chisel = s.chisel := by cases f <;> rfl
@[simp] theorem State.setLog_gloss (s : State) (f : Fn) (x : ErrLog) : (s.setLog f x).gloss = s.gloss := by cases f <;> rfl
@[simp] theorem State.setLog_pending (s : State) (f : Fn) (x : ErrLog) : (s.setLog f x).pending = s.pending := by cases f <;> rfl

@[simp] theorem State.setSlot_out (s : State) (i : Nat) (x : Slot) : (s.setSlot i x).out = s.out := by unfold State.setSlot; split <;> rfl
@[simp] theorem State.setSlot_fresh (s : State) (i : Nat) (x : Slot) : (s.setSlot i x).fresh = s.fresh := by unfold State.setSlot; split <;> rfl
@[simp] theorem State.setSlot_latches (s : State) (i : Nat) (x : Slot) : (s.setSlot i x).latches = s.latches := by unfold State.setSlot; split <;> rfl
@[simp] theorem State.setSlot_commitHold (s : State) (i : Nat) (x : Slot) : (s.setSlot i x).commitHold = s.commitHold := by unfold State.setSlot; split <;> rfl
@[simp] theorem State.setSlot_link (s : State) (i : Nat) (x : Slot) : (s.setSlot i x).link = s.link := by unfold State.setSlot; split <;> rfl
@[simp] theorem State.setSlot_world (s : State) (i : Nat) (x : Slot) : (s.setSlot i x).world = s.world := by unfold State.setSlot; split <;> rfl
@[simp] theorem State.setSlot_err (s : State) (i : Nat) (x : Slot) : (s.setSlot i x).err = s.err := by unfold State.setSlot; split <;> rfl
@[simp] theorem State.setSlot_products (s : State) (i : Nat) (x : Slot) : (s.setSlot i x).products = s.products := by unfold State.setSlot; split <;> rfl
@[simp] theorem State.setSlot_intake (s : State) (i : Nat) (x : Slot) : (s.setSlot i x).intake = s.intake := by unfold State.setSlot; split <;> rfl
@[simp] theorem State.setSlot_maps (s : State) (i : Nat) (x : Slot) : (s.setSlot i x).maps = s.maps := by unfold State.setSlot; split <;> rfl
@[simp] theorem State.setSlot_corrs (s : State) (i : Nat) (x : Slot) : (s.setSlot i x).corrs = s.corrs := by unfold State.setSlot; split <;> rfl
@[simp] theorem State.setSlot_relief (s : State) (i : Nat) (x : Slot) : (s.setSlot i x).relief = s.relief := by unfold State.setSlot; split <;> rfl
@[simp] theorem State.setSlot_istore (s : State) (i : Nat) (x : Slot) : (s.setSlot i x).istore = s.istore := by unfold State.setSlot; split <;> rfl
@[simp] theorem State.setSlot_offers (s : State) (i : Nat) (x : Slot) : (s.setSlot i x).offers = s.offers := by unfold State.setSlot; split <;> rfl
@[simp] theorem State.setSlot_hbm (s : State) (i : Nat) (x : Slot) : (s.setSlot i x).hbm = s.hbm := by unfold State.setSlot; split <;> rfl
@[simp] theorem State.setSlot_pair (s : State) (i : Nat) (x : Slot) : (s.setSlot i x).pair = s.pair := by unfold State.setSlot; split <;> rfl
@[simp] theorem State.setSlot_osl (s : State) (i : Nat) (x : Slot) : (s.setSlot i x).osl = s.osl := by unfold State.setSlot; split <;> rfl
@[simp] theorem State.setSlot_plinth (s : State) (i : Nat) (x : Slot) : (s.setSlot i x).plinth = s.plinth := by unfold State.setSlot; split <;> rfl
@[simp] theorem State.setSlot_net (s : State) (i : Nat) (x : Slot) : (s.setSlot i x).net = s.net := by unfold State.setSlot; split <;> rfl
@[simp] theorem State.setSlot_clock (s : State) (i : Nat) (x : Slot) : (s.setSlot i x).clock = s.clock := by unfold State.setSlot; split <;> rfl
@[simp] theorem State.setSlot_trims (s : State) (i : Nat) (x : Slot) : (s.setSlot i x).trims = s.trims := by unfold State.setSlot; split <;> rfl
@[simp] theorem State.setSlot_dma (s : State) (i : Nat) (x : Slot) : (s.setSlot i x).dma = s.dma := by unfold State.setSlot; split <;> rfl
@[simp] theorem State.setSlot_power (s : State) (i : Nat) (x : Slot) : (s.setSlot i x).power = s.power := by unfold State.setSlot; split <;> rfl
@[simp] theorem State.setSlot_frieze (s : State) (i : Nat) (x : Slot) : (s.setSlot i x).frieze = s.frieze := by unfold State.setSlot; split <;> rfl
@[simp] theorem State.setSlot_chisel (s : State) (i : Nat) (x : Slot) : (s.setSlot i x).chisel = s.chisel := by unfold State.setSlot; split <;> rfl
@[simp] theorem State.setSlot_gloss (s : State) (i : Nat) (x : Slot) : (s.setSlot i x).gloss = s.gloss := by unfold State.setSlot; split <;> rfl
@[simp] theorem State.setSlot_pending (s : State) (i : Nat) (x : Slot) : (s.setSlot i x).pending = s.pending := by unfold State.setSlot; split <;> rfl

@[simp] theorem State.setRelief_out (s : State) (x : Relief) : (s.setRelief x).out = s.out := rfl
@[simp] theorem State.setRelief_fresh (s : State) (x : Relief) : (s.setRelief x).fresh = s.fresh := rfl
@[simp] theorem State.setRelief_latches (s : State) (x : Relief) : (s.setRelief x).latches = s.latches := rfl
@[simp] theorem State.setRelief_commitHold (s : State) (x : Relief) : (s.setRelief x).commitHold = s.commitHold := rfl
@[simp] theorem State.setRelief_link (s : State) (x : Relief) : (s.setRelief x).link = s.link := rfl
@[simp] theorem State.setRelief_world (s : State) (x : Relief) : (s.setRelief x).world = s.world := rfl
@[simp] theorem State.setRelief_err (s : State) (x : Relief) : (s.setRelief x).err = s.err := rfl
@[simp] theorem State.setRelief_products (s : State) (x : Relief) : (s.setRelief x).products = s.products := rfl
@[simp] theorem State.setRelief_intake (s : State) (x : Relief) : (s.setRelief x).intake = s.intake := rfl
@[simp] theorem State.setRelief_maps (s : State) (x : Relief) : (s.setRelief x).maps = s.maps := rfl
@[simp] theorem State.setRelief_corrs (s : State) (x : Relief) : (s.setRelief x).corrs = s.corrs := rfl
@[simp] theorem State.setRelief_istore (s : State) (x : Relief) : (s.setRelief x).istore = s.istore := rfl
@[simp] theorem State.setRelief_offers (s : State) (x : Relief) : (s.setRelief x).offers = s.offers := rfl
@[simp] theorem State.setRelief_hbm (s : State) (x : Relief) : (s.setRelief x).hbm = s.hbm := rfl
@[simp] theorem State.setRelief_pair (s : State) (x : Relief) : (s.setRelief x).pair = s.pair := rfl
@[simp] theorem State.setRelief_osl (s : State) (x : Relief) : (s.setRelief x).osl = s.osl := rfl
@[simp] theorem State.setRelief_plinth (s : State) (x : Relief) : (s.setRelief x).plinth = s.plinth := rfl
@[simp] theorem State.setRelief_net (s : State) (x : Relief) : (s.setRelief x).net = s.net := rfl
@[simp] theorem State.setRelief_clock (s : State) (x : Relief) : (s.setRelief x).clock = s.clock := rfl
@[simp] theorem State.setRelief_trims (s : State) (x : Relief) : (s.setRelief x).trims = s.trims := rfl
@[simp] theorem State.setRelief_dma (s : State) (x : Relief) : (s.setRelief x).dma = s.dma := rfl
@[simp] theorem State.setRelief_boot (s : State) (x : Relief) : (s.setRelief x).boot = s.boot := rfl
@[simp] theorem State.setRelief_power (s : State) (x : Relief) : (s.setRelief x).power = s.power := rfl
@[simp] theorem State.setRelief_frieze (s : State) (x : Relief) : (s.setRelief x).frieze = s.frieze := rfl
@[simp] theorem State.setRelief_chisel (s : State) (x : Relief) : (s.setRelief x).chisel = s.chisel := rfl
@[simp] theorem State.setRelief_gloss (s : State) (x : Relief) : (s.setRelief x).gloss = s.gloss := rfl
@[simp] theorem State.setRelief_pending (s : State) (x : Relief) : (s.setRelief x).pending = s.pending := rfl

@[simp] theorem State.setPcAt_out (s : State) (i : Nat) (x : Pc) : (s.setPcAt i x).out = s.out := rfl
@[simp] theorem State.setPcAt_fresh (s : State) (i : Nat) (x : Pc) : (s.setPcAt i x).fresh = s.fresh := rfl
@[simp] theorem State.setPcAt_latches (s : State) (i : Nat) (x : Pc) : (s.setPcAt i x).latches = s.latches := rfl
@[simp] theorem State.setPcAt_commitHold (s : State) (i : Nat) (x : Pc) : (s.setPcAt i x).commitHold = s.commitHold := rfl
@[simp] theorem State.setPcAt_link (s : State) (i : Nat) (x : Pc) : (s.setPcAt i x).link = s.link := rfl
@[simp] theorem State.setPcAt_world (s : State) (i : Nat) (x : Pc) : (s.setPcAt i x).world = s.world := rfl
@[simp] theorem State.setPcAt_err (s : State) (i : Nat) (x : Pc) : (s.setPcAt i x).err = s.err := rfl
@[simp] theorem State.setPcAt_products (s : State) (i : Nat) (x : Pc) : (s.setPcAt i x).products = s.products := rfl
@[simp] theorem State.setPcAt_intake (s : State) (i : Nat) (x : Pc) : (s.setPcAt i x).intake = s.intake := rfl
@[simp] theorem State.setPcAt_maps (s : State) (i : Nat) (x : Pc) : (s.setPcAt i x).maps = s.maps := rfl
@[simp] theorem State.setPcAt_corrs (s : State) (i : Nat) (x : Pc) : (s.setPcAt i x).corrs = s.corrs := rfl
@[simp] theorem State.setPcAt_relief (s : State) (i : Nat) (x : Pc) : (s.setPcAt i x).relief = s.relief := rfl
@[simp] theorem State.setPcAt_istore (s : State) (i : Nat) (x : Pc) : (s.setPcAt i x).istore = s.istore := rfl
@[simp] theorem State.setPcAt_offers (s : State) (i : Nat) (x : Pc) : (s.setPcAt i x).offers = s.offers := rfl
@[simp] theorem State.setPcAt_pair (s : State) (i : Nat) (x : Pc) : (s.setPcAt i x).pair = s.pair := rfl
@[simp] theorem State.setPcAt_osl (s : State) (i : Nat) (x : Pc) : (s.setPcAt i x).osl = s.osl := rfl
@[simp] theorem State.setPcAt_plinth (s : State) (i : Nat) (x : Pc) : (s.setPcAt i x).plinth = s.plinth := rfl
@[simp] theorem State.setPcAt_net (s : State) (i : Nat) (x : Pc) : (s.setPcAt i x).net = s.net := rfl
@[simp] theorem State.setPcAt_clock (s : State) (i : Nat) (x : Pc) : (s.setPcAt i x).clock = s.clock := rfl
@[simp] theorem State.setPcAt_trims (s : State) (i : Nat) (x : Pc) : (s.setPcAt i x).trims = s.trims := rfl
@[simp] theorem State.setPcAt_dma (s : State) (i : Nat) (x : Pc) : (s.setPcAt i x).dma = s.dma := rfl
@[simp] theorem State.setPcAt_boot (s : State) (i : Nat) (x : Pc) : (s.setPcAt i x).boot = s.boot := rfl
@[simp] theorem State.setPcAt_power (s : State) (i : Nat) (x : Pc) : (s.setPcAt i x).power = s.power := rfl
@[simp] theorem State.setPcAt_frieze (s : State) (i : Nat) (x : Pc) : (s.setPcAt i x).frieze = s.frieze := rfl
@[simp] theorem State.setPcAt_chisel (s : State) (i : Nat) (x : Pc) : (s.setPcAt i x).chisel = s.chisel := rfl
@[simp] theorem State.setPcAt_gloss (s : State) (i : Nat) (x : Pc) : (s.setPcAt i x).gloss = s.gloss := rfl
@[simp] theorem State.setPcAt_pending (s : State) (i : Nat) (x : Pc) : (s.setPcAt i x).pending = s.pending := rfl

@[simp] theorem State.setBankAt_out (s : State) (i : Nat) (x : Bank) : (s.setBankAt i x).out = s.out := rfl
@[simp] theorem State.setBankAt_fresh (s : State) (i : Nat) (x : Bank) : (s.setBankAt i x).fresh = s.fresh := rfl
@[simp] theorem State.setBankAt_latches (s : State) (i : Nat) (x : Bank) : (s.setBankAt i x).latches = s.latches := rfl
@[simp] theorem State.setBankAt_commitHold (s : State) (i : Nat) (x : Bank) : (s.setBankAt i x).commitHold = s.commitHold := rfl
@[simp] theorem State.setBankAt_link (s : State) (i : Nat) (x : Bank) : (s.setBankAt i x).link = s.link := rfl
@[simp] theorem State.setBankAt_world (s : State) (i : Nat) (x : Bank) : (s.setBankAt i x).world = s.world := rfl
@[simp] theorem State.setBankAt_err (s : State) (i : Nat) (x : Bank) : (s.setBankAt i x).err = s.err := rfl
@[simp] theorem State.setBankAt_products (s : State) (i : Nat) (x : Bank) : (s.setBankAt i x).products = s.products := rfl
@[simp] theorem State.setBankAt_intake (s : State) (i : Nat) (x : Bank) : (s.setBankAt i x).intake = s.intake := rfl
@[simp] theorem State.setBankAt_maps (s : State) (i : Nat) (x : Bank) : (s.setBankAt i x).maps = s.maps := rfl
@[simp] theorem State.setBankAt_corrs (s : State) (i : Nat) (x : Bank) : (s.setBankAt i x).corrs = s.corrs := rfl
@[simp] theorem State.setBankAt_relief (s : State) (i : Nat) (x : Bank) : (s.setBankAt i x).relief = s.relief := rfl
@[simp] theorem State.setBankAt_istore (s : State) (i : Nat) (x : Bank) : (s.setBankAt i x).istore = s.istore := rfl
@[simp] theorem State.setBankAt_offers (s : State) (i : Nat) (x : Bank) : (s.setBankAt i x).offers = s.offers := rfl
@[simp] theorem State.setBankAt_pair (s : State) (i : Nat) (x : Bank) : (s.setBankAt i x).pair = s.pair := rfl
@[simp] theorem State.setBankAt_osl (s : State) (i : Nat) (x : Bank) : (s.setBankAt i x).osl = s.osl := rfl
@[simp] theorem State.setBankAt_plinth (s : State) (i : Nat) (x : Bank) : (s.setBankAt i x).plinth = s.plinth := rfl
@[simp] theorem State.setBankAt_net (s : State) (i : Nat) (x : Bank) : (s.setBankAt i x).net = s.net := rfl
@[simp] theorem State.setBankAt_clock (s : State) (i : Nat) (x : Bank) : (s.setBankAt i x).clock = s.clock := rfl
@[simp] theorem State.setBankAt_trims (s : State) (i : Nat) (x : Bank) : (s.setBankAt i x).trims = s.trims := rfl
@[simp] theorem State.setBankAt_dma (s : State) (i : Nat) (x : Bank) : (s.setBankAt i x).dma = s.dma := rfl
@[simp] theorem State.setBankAt_boot (s : State) (i : Nat) (x : Bank) : (s.setBankAt i x).boot = s.boot := rfl
@[simp] theorem State.setBankAt_power (s : State) (i : Nat) (x : Bank) : (s.setBankAt i x).power = s.power := rfl
@[simp] theorem State.setBankAt_frieze (s : State) (i : Nat) (x : Bank) : (s.setBankAt i x).frieze = s.frieze := rfl
@[simp] theorem State.setBankAt_chisel (s : State) (i : Nat) (x : Bank) : (s.setBankAt i x).chisel = s.chisel := rfl
@[simp] theorem State.setBankAt_gloss (s : State) (i : Nat) (x : Bank) : (s.setBankAt i x).gloss = s.gloss := rfl
@[simp] theorem State.setBankAt_pending (s : State) (i : Nat) (x : Bank) : (s.setBankAt i x).pending = s.pending := rfl

@[simp] theorem State.setLaneTrim_out (s : State) (i : Nat) (x : LaneTrim) : (s.setLaneTrim i x).out = s.out := rfl
@[simp] theorem State.setLaneTrim_fresh (s : State) (i : Nat) (x : LaneTrim) : (s.setLaneTrim i x).fresh = s.fresh := rfl
@[simp] theorem State.setLaneTrim_latches (s : State) (i : Nat) (x : LaneTrim) : (s.setLaneTrim i x).latches = s.latches := rfl
@[simp] theorem State.setLaneTrim_commitHold (s : State) (i : Nat) (x : LaneTrim) : (s.setLaneTrim i x).commitHold = s.commitHold := rfl
@[simp] theorem State.setLaneTrim_link (s : State) (i : Nat) (x : LaneTrim) : (s.setLaneTrim i x).link = s.link := rfl
@[simp] theorem State.setLaneTrim_world (s : State) (i : Nat) (x : LaneTrim) : (s.setLaneTrim i x).world = s.world := rfl
@[simp] theorem State.setLaneTrim_err (s : State) (i : Nat) (x : LaneTrim) : (s.setLaneTrim i x).err = s.err := rfl
@[simp] theorem State.setLaneTrim_products (s : State) (i : Nat) (x : LaneTrim) : (s.setLaneTrim i x).products = s.products := rfl
@[simp] theorem State.setLaneTrim_intake (s : State) (i : Nat) (x : LaneTrim) : (s.setLaneTrim i x).intake = s.intake := rfl
@[simp] theorem State.setLaneTrim_maps (s : State) (i : Nat) (x : LaneTrim) : (s.setLaneTrim i x).maps = s.maps := rfl
@[simp] theorem State.setLaneTrim_corrs (s : State) (i : Nat) (x : LaneTrim) : (s.setLaneTrim i x).corrs = s.corrs := rfl
@[simp] theorem State.setLaneTrim_relief (s : State) (i : Nat) (x : LaneTrim) : (s.setLaneTrim i x).relief = s.relief := rfl
@[simp] theorem State.setLaneTrim_istore (s : State) (i : Nat) (x : LaneTrim) : (s.setLaneTrim i x).istore = s.istore := rfl
@[simp] theorem State.setLaneTrim_offers (s : State) (i : Nat) (x : LaneTrim) : (s.setLaneTrim i x).offers = s.offers := rfl
@[simp] theorem State.setLaneTrim_hbm (s : State) (i : Nat) (x : LaneTrim) : (s.setLaneTrim i x).hbm = s.hbm := rfl
@[simp] theorem State.setLaneTrim_pair (s : State) (i : Nat) (x : LaneTrim) : (s.setLaneTrim i x).pair = s.pair := rfl
@[simp] theorem State.setLaneTrim_osl (s : State) (i : Nat) (x : LaneTrim) : (s.setLaneTrim i x).osl = s.osl := rfl
@[simp] theorem State.setLaneTrim_plinth (s : State) (i : Nat) (x : LaneTrim) : (s.setLaneTrim i x).plinth = s.plinth := rfl
@[simp] theorem State.setLaneTrim_net (s : State) (i : Nat) (x : LaneTrim) : (s.setLaneTrim i x).net = s.net := rfl
@[simp] theorem State.setLaneTrim_clock (s : State) (i : Nat) (x : LaneTrim) : (s.setLaneTrim i x).clock = s.clock := rfl
@[simp] theorem State.setLaneTrim_dma (s : State) (i : Nat) (x : LaneTrim) : (s.setLaneTrim i x).dma = s.dma := rfl
@[simp] theorem State.setLaneTrim_boot (s : State) (i : Nat) (x : LaneTrim) : (s.setLaneTrim i x).boot = s.boot := rfl
@[simp] theorem State.setLaneTrim_power (s : State) (i : Nat) (x : LaneTrim) : (s.setLaneTrim i x).power = s.power := rfl
@[simp] theorem State.setLaneTrim_frieze (s : State) (i : Nat) (x : LaneTrim) : (s.setLaneTrim i x).frieze = s.frieze := rfl
@[simp] theorem State.setLaneTrim_chisel (s : State) (i : Nat) (x : LaneTrim) : (s.setLaneTrim i x).chisel = s.chisel := rfl
@[simp] theorem State.setLaneTrim_gloss (s : State) (i : Nat) (x : LaneTrim) : (s.setLaneTrim i x).gloss = s.gloss := rfl
@[simp] theorem State.setLaneTrim_pending (s : State) (i : Nat) (x : LaneTrim) : (s.setLaneTrim i x).pending = s.pending := rfl

@[simp] theorem State.setTport_out (s : State) (i : Nat) (x : TPort) : (s.setTport i x).out = s.out := rfl
@[simp] theorem State.setTport_fresh (s : State) (i : Nat) (x : TPort) : (s.setTport i x).fresh = s.fresh := rfl
@[simp] theorem State.setTport_latches (s : State) (i : Nat) (x : TPort) : (s.setTport i x).latches = s.latches := rfl
@[simp] theorem State.setTport_commitHold (s : State) (i : Nat) (x : TPort) : (s.setTport i x).commitHold = s.commitHold := rfl
@[simp] theorem State.setTport_link (s : State) (i : Nat) (x : TPort) : (s.setTport i x).link = s.link := rfl
@[simp] theorem State.setTport_world (s : State) (i : Nat) (x : TPort) : (s.setTport i x).world = s.world := rfl
@[simp] theorem State.setTport_err (s : State) (i : Nat) (x : TPort) : (s.setTport i x).err = s.err := rfl
@[simp] theorem State.setTport_products (s : State) (i : Nat) (x : TPort) : (s.setTport i x).products = s.products := rfl
@[simp] theorem State.setTport_intake (s : State) (i : Nat) (x : TPort) : (s.setTport i x).intake = s.intake := rfl
@[simp] theorem State.setTport_maps (s : State) (i : Nat) (x : TPort) : (s.setTport i x).maps = s.maps := rfl
@[simp] theorem State.setTport_corrs (s : State) (i : Nat) (x : TPort) : (s.setTport i x).corrs = s.corrs := rfl
@[simp] theorem State.setTport_relief (s : State) (i : Nat) (x : TPort) : (s.setTport i x).relief = s.relief := rfl
@[simp] theorem State.setTport_istore (s : State) (i : Nat) (x : TPort) : (s.setTport i x).istore = s.istore := rfl
@[simp] theorem State.setTport_offers (s : State) (i : Nat) (x : TPort) : (s.setTport i x).offers = s.offers := rfl
@[simp] theorem State.setTport_hbm (s : State) (i : Nat) (x : TPort) : (s.setTport i x).hbm = s.hbm := rfl
@[simp] theorem State.setTport_pair (s : State) (i : Nat) (x : TPort) : (s.setTport i x).pair = s.pair := rfl
@[simp] theorem State.setTport_osl (s : State) (i : Nat) (x : TPort) : (s.setTport i x).osl = s.osl := rfl
@[simp] theorem State.setTport_plinth (s : State) (i : Nat) (x : TPort) : (s.setTport i x).plinth = s.plinth := rfl
@[simp] theorem State.setTport_clock (s : State) (i : Nat) (x : TPort) : (s.setTport i x).clock = s.clock := rfl
@[simp] theorem State.setTport_trims (s : State) (i : Nat) (x : TPort) : (s.setTport i x).trims = s.trims := rfl
@[simp] theorem State.setTport_dma (s : State) (i : Nat) (x : TPort) : (s.setTport i x).dma = s.dma := rfl
@[simp] theorem State.setTport_boot (s : State) (i : Nat) (x : TPort) : (s.setTport i x).boot = s.boot := rfl
@[simp] theorem State.setTport_power (s : State) (i : Nat) (x : TPort) : (s.setTport i x).power = s.power := rfl
@[simp] theorem State.setTport_frieze (s : State) (i : Nat) (x : TPort) : (s.setTport i x).frieze = s.frieze := rfl
@[simp] theorem State.setTport_chisel (s : State) (i : Nat) (x : TPort) : (s.setTport i x).chisel = s.chisel := rfl
@[simp] theorem State.setTport_gloss (s : State) (i : Nat) (x : TPort) : (s.setTport i x).gloss = s.gloss := rfl
@[simp] theorem State.setTport_pending (s : State) (i : Nat) (x : TPort) : (s.setTport i x).pending = s.pending := rfl

@[simp] theorem State.setTin_out (s : State) (f : Fn) (i : Nat) (x : TimeIn) : (s.setTin f i x).out = s.out := by cases f <;> rfl
@[simp] theorem State.setTin_fresh (s : State) (f : Fn) (i : Nat) (x : TimeIn) : (s.setTin f i x).fresh = s.fresh := by cases f <;> rfl
@[simp] theorem State.setTin_latches (s : State) (f : Fn) (i : Nat) (x : TimeIn) : (s.setTin f i x).latches = s.latches := by cases f <;> rfl
@[simp] theorem State.setTin_commitHold (s : State) (f : Fn) (i : Nat) (x : TimeIn) : (s.setTin f i x).commitHold = s.commitHold := by cases f <;> rfl
@[simp] theorem State.setTin_link (s : State) (f : Fn) (i : Nat) (x : TimeIn) : (s.setTin f i x).link = s.link := by cases f <;> rfl
@[simp] theorem State.setTin_world (s : State) (f : Fn) (i : Nat) (x : TimeIn) : (s.setTin f i x).world = s.world := by cases f <;> rfl
@[simp] theorem State.setTin_err (s : State) (f : Fn) (i : Nat) (x : TimeIn) : (s.setTin f i x).err = s.err := by cases f <;> rfl
@[simp] theorem State.setTin_products (s : State) (f : Fn) (i : Nat) (x : TimeIn) : (s.setTin f i x).products = s.products := by cases f <;> rfl
@[simp] theorem State.setTin_intake (s : State) (f : Fn) (i : Nat) (x : TimeIn) : (s.setTin f i x).intake = s.intake := by cases f <;> rfl
@[simp] theorem State.setTin_maps (s : State) (f : Fn) (i : Nat) (x : TimeIn) : (s.setTin f i x).maps = s.maps := by cases f <;> rfl
@[simp] theorem State.setTin_corrs (s : State) (f : Fn) (i : Nat) (x : TimeIn) : (s.setTin f i x).corrs = s.corrs := by cases f <;> rfl
@[simp] theorem State.setTin_relief (s : State) (f : Fn) (i : Nat) (x : TimeIn) : (s.setTin f i x).relief = s.relief := by cases f <;> rfl
@[simp] theorem State.setTin_istore (s : State) (f : Fn) (i : Nat) (x : TimeIn) : (s.setTin f i x).istore = s.istore := by cases f <;> rfl
@[simp] theorem State.setTin_offers (s : State) (f : Fn) (i : Nat) (x : TimeIn) : (s.setTin f i x).offers = s.offers := by cases f <;> rfl
@[simp] theorem State.setTin_hbm (s : State) (f : Fn) (i : Nat) (x : TimeIn) : (s.setTin f i x).hbm = s.hbm := by cases f <;> rfl
@[simp] theorem State.setTin_pair (s : State) (f : Fn) (i : Nat) (x : TimeIn) : (s.setTin f i x).pair = s.pair := by cases f <;> rfl
@[simp] theorem State.setTin_osl (s : State) (f : Fn) (i : Nat) (x : TimeIn) : (s.setTin f i x).osl = s.osl := by cases f <;> rfl
@[simp] theorem State.setTin_plinth (s : State) (f : Fn) (i : Nat) (x : TimeIn) : (s.setTin f i x).plinth = s.plinth := by cases f <;> rfl
@[simp] theorem State.setTin_clock (s : State) (f : Fn) (i : Nat) (x : TimeIn) : (s.setTin f i x).clock = s.clock := by cases f <;> rfl
@[simp] theorem State.setTin_trims (s : State) (f : Fn) (i : Nat) (x : TimeIn) : (s.setTin f i x).trims = s.trims := by cases f <;> rfl
@[simp] theorem State.setTin_dma (s : State) (f : Fn) (i : Nat) (x : TimeIn) : (s.setTin f i x).dma = s.dma := by cases f <;> rfl
@[simp] theorem State.setTin_boot (s : State) (f : Fn) (i : Nat) (x : TimeIn) : (s.setTin f i x).boot = s.boot := by cases f <;> rfl
@[simp] theorem State.setTin_power (s : State) (f : Fn) (i : Nat) (x : TimeIn) : (s.setTin f i x).power = s.power := by cases f <;> rfl
@[simp] theorem State.setTin_frieze (s : State) (f : Fn) (i : Nat) (x : TimeIn) : (s.setTin f i x).frieze = s.frieze := by cases f <;> rfl
@[simp] theorem State.setTin_chisel (s : State) (f : Fn) (i : Nat) (x : TimeIn) : (s.setTin f i x).chisel = s.chisel := by cases f <;> rfl
@[simp] theorem State.setTin_gloss (s : State) (f : Fn) (i : Nat) (x : TimeIn) : (s.setTin f i x).gloss = s.gloss := by cases f <;> rfl
@[simp] theorem State.setTin_pending (s : State) (f : Fn) (i : Nat) (x : TimeIn) : (s.setTin f i x).pending = s.pending := by cases f <;> rfl

@[simp] theorem State.free_out (s : State) (m : Nat) : (s.free m).2.out = s.out := rfl
@[simp] theorem State.freeBytes_out (s : State) (n : Nat) : (s.freeBytes n).2.out = s.out := rfl
@[simp] theorem State.free_latches (s : State) (m : Nat) : (s.free m).2.latches = s.latches := rfl
@[simp] theorem State.free_commitHold (s : State) (m : Nat) : (s.free m).2.commitHold = s.commitHold := rfl
@[simp] theorem State.freeBytes_latches (s : State) (n : Nat) : (s.freeBytes n).2.latches = s.latches := rfl
@[simp] theorem State.freeBytes_commitHold (s : State) (n : Nat) : (s.freeBytes n).2.commitHold = s.commitHold := rfl
@[simp] theorem State.free_link (s : State) (m : Nat) : (s.free m).2.link = s.link := rfl
@[simp] theorem State.freeBytes_link (s : State) (n : Nat) : (s.freeBytes n).2.link = s.link := rfl
@[simp] theorem State.free_world (s : State) (m : Nat) : (s.free m).2.world = s.world := rfl
@[simp] theorem State.freeBytes_world (s : State) (n : Nat) : (s.freeBytes n).2.world = s.world := rfl
@[simp] theorem State.free_err (s : State) (m : Nat) : (s.free m).2.err = s.err := rfl
@[simp] theorem State.freeBytes_err (s : State) (n : Nat) : (s.freeBytes n).2.err = s.err := rfl
@[simp] theorem State.free_products (s : State) (m : Nat) : (s.free m).2.products = s.products := rfl
@[simp] theorem State.freeBytes_products (s : State) (n : Nat) : (s.freeBytes n).2.products = s.products := rfl
@[simp] theorem State.free_intake (s : State) (m : Nat) : (s.free m).2.intake = s.intake := rfl
@[simp] theorem State.freeBytes_intake (s : State) (n : Nat) : (s.freeBytes n).2.intake = s.intake := rfl
@[simp] theorem State.free_maps (s : State) (m : Nat) : (s.free m).2.maps = s.maps := rfl
@[simp] theorem State.freeBytes_maps (s : State) (n : Nat) : (s.freeBytes n).2.maps = s.maps := rfl
@[simp] theorem State.free_corrs (s : State) (m : Nat) : (s.free m).2.corrs = s.corrs := rfl
@[simp] theorem State.freeBytes_corrs (s : State) (n : Nat) : (s.freeBytes n).2.corrs = s.corrs := rfl
@[simp] theorem State.free_relief (s : State) (m : Nat) : (s.free m).2.relief = s.relief := rfl
@[simp] theorem State.freeBytes_relief (s : State) (n : Nat) : (s.freeBytes n).2.relief = s.relief := rfl
@[simp] theorem State.free_istore (s : State) (m : Nat) : (s.free m).2.istore = s.istore := rfl
@[simp] theorem State.freeBytes_istore (s : State) (n : Nat) : (s.freeBytes n).2.istore = s.istore := rfl
@[simp] theorem State.free_offers (s : State) (m : Nat) : (s.free m).2.offers = s.offers := rfl
@[simp] theorem State.freeBytes_offers (s : State) (n : Nat) : (s.freeBytes n).2.offers = s.offers := rfl
@[simp] theorem State.free_hbm (s : State) (m : Nat) : (s.free m).2.hbm = s.hbm := rfl
@[simp] theorem State.freeBytes_hbm (s : State) (n : Nat) : (s.freeBytes n).2.hbm = s.hbm := rfl
@[simp] theorem State.free_pair (s : State) (m : Nat) : (s.free m).2.pair = s.pair := rfl
@[simp] theorem State.freeBytes_pair (s : State) (n : Nat) : (s.freeBytes n).2.pair = s.pair := rfl
@[simp] theorem State.free_osl (s : State) (m : Nat) : (s.free m).2.osl = s.osl := rfl
@[simp] theorem State.freeBytes_osl (s : State) (n : Nat) : (s.freeBytes n).2.osl = s.osl := rfl
@[simp] theorem State.free_plinth (s : State) (m : Nat) : (s.free m).2.plinth = s.plinth := rfl
@[simp] theorem State.freeBytes_plinth (s : State) (n : Nat) : (s.freeBytes n).2.plinth = s.plinth := rfl
@[simp] theorem State.free_net (s : State) (m : Nat) : (s.free m).2.net = s.net := rfl
@[simp] theorem State.freeBytes_net (s : State) (n : Nat) : (s.freeBytes n).2.net = s.net := rfl
@[simp] theorem State.free_clock (s : State) (m : Nat) : (s.free m).2.clock = s.clock := rfl
@[simp] theorem State.freeBytes_clock (s : State) (n : Nat) : (s.freeBytes n).2.clock = s.clock := rfl
@[simp] theorem State.free_trims (s : State) (m : Nat) : (s.free m).2.trims = s.trims := rfl
@[simp] theorem State.freeBytes_trims (s : State) (n : Nat) : (s.freeBytes n).2.trims = s.trims := rfl
@[simp] theorem State.free_dma (s : State) (m : Nat) : (s.free m).2.dma = s.dma := rfl
@[simp] theorem State.freeBytes_dma (s : State) (n : Nat) : (s.freeBytes n).2.dma = s.dma := rfl
@[simp] theorem State.free_boot (s : State) (m : Nat) : (s.free m).2.boot = s.boot := rfl
@[simp] theorem State.freeBytes_boot (s : State) (n : Nat) : (s.freeBytes n).2.boot = s.boot := rfl
@[simp] theorem State.free_power (s : State) (m : Nat) : (s.free m).2.power = s.power := rfl
@[simp] theorem State.freeBytes_power (s : State) (n : Nat) : (s.freeBytes n).2.power = s.power := rfl
@[simp] theorem State.free_frieze (s : State) (m : Nat) : (s.free m).2.frieze = s.frieze := rfl
@[simp] theorem State.freeBytes_frieze (s : State) (n : Nat) : (s.freeBytes n).2.frieze = s.frieze := rfl
@[simp] theorem State.free_chisel (s : State) (m : Nat) : (s.free m).2.chisel = s.chisel := rfl
@[simp] theorem State.freeBytes_chisel (s : State) (n : Nat) : (s.freeBytes n).2.chisel = s.chisel := rfl
@[simp] theorem State.free_gloss (s : State) (m : Nat) : (s.free m).2.gloss = s.gloss := rfl
@[simp] theorem State.freeBytes_gloss (s : State) (n : Nat) : (s.freeBytes n).2.gloss = s.gloss := rfl
@[simp] theorem State.free_pending (s : State) (m : Nat) : (s.free m).2.pending = s.pending := rfl
@[simp] theorem State.freeBytes_pending (s : State) (n : Nat) : (s.freeBytes n).2.pending = s.pending := rfl

/-! ### Reads after updates -/

theorem vget_vset_self {α : Type} {n : Nat} (v : Vector α n) (i : Nat) (x d : α) (h : i < n) :
    vget (vset v i x) i d = x := by simp [vget, vset, h]

theorem vget_vset_ne {α : Type} {n : Nat} (v : Vector α n) (i j : Nat) (x d : α) (h : i ≠ j) :
    vget (vset v i x) j d = vget v j d := by
  simp only [vget, vset]
  rw [Vector.getElem?_setIfInBounds_ne h]

/-- A read after an update, at any index. -/
theorem vget_vset {α : Type} {n : Nat} (v : Vector α n) (i j : Nat) (x d : α) :
    vget (vset v i x) j d = if i = j ∧ i < n then x else vget v j d := by
  by_cases h : i = j
  · subst h
    by_cases hn : i < n
    · simp [vget_vset_self, hn]
    · simp [vget, vset, hn]
  · simp [vget_vset_ne, h]

theorem State.setLane_lane (s : State) (i j : Nat) (x : Lane) :
    (s.setLane i x).lane j = if i = j ∧ i < 52 then x else s.lane j := vget_vset _ i j x _

@[simp] theorem State.setLane_lane_self (s : State) (i : Nat) (x : Lane) (h : i < 52) : (s.setLane i x).lane i = x := by
  simp [State.setLane_lane, h]

theorem State.setLane_lane_ne (s : State) (i j : Nat) (x : Lane) (h : i ≠ j) : (s.setLane i x).lane j = s.lane j := by
  simp [State.setLane_lane, h]

theorem State.setChain_chain (s : State) (i j : Nat) (x : Chain) :
    (s.setChain i x).chain j = if i = j ∧ i < 64 then x else s.chain j := vget_vset _ i j x _

@[simp] theorem State.setChain_chain_self (s : State) (i : Nat) (x : Chain) (h : i < 64) : (s.setChain i x).chain i = x := by
  simp [State.setChain_chain, h]

theorem State.setChain_chain_ne (s : State) (i j : Nat) (x : Chain) (h : i ≠ j) : (s.setChain i x).chain j = s.chain j := by
  simp [State.setChain_chain, h]

theorem State.setCore_core (s : State) (i j : Nat) (x : Core) :
    (s.setCore i x).core j = if i = j ∧ i < 32 then x else s.core j := vget_vset _ i j x _

@[simp] theorem State.setCore_core_self (s : State) (i : Nat) (x : Core) (h : i < 32) : (s.setCore i x).core i = x := by
  simp [State.setCore_core, h]

theorem State.setCore_core_ne (s : State) (i j : Nat) (x : Core) (h : i ≠ j) : (s.setCore i x).core j = s.core j := by
  simp [State.setCore_core, h]

theorem State.setChannel_channel (s : State) (i j : Nat) (x : Channel) :
    (s.setChannel i x).channel j = if i = j ∧ i < 36 then x else s.channel j := vget_vset _ i j x _

@[simp] theorem State.setChannel_channel_self (s : State) (i : Nat) (x : Channel) (h : i < 36) : (s.setChannel i x).channel i = x := by
  simp [State.setChannel_channel, h]

theorem State.setChannel_channel_ne (s : State) (i j : Nat) (x : Channel) (h : i ≠ j) : (s.setChannel i x).channel j = s.channel j := by
  simp [State.setChannel_channel, h]

theorem State.setStack_stack (s : State) (i j : Nat) (x : Stack) :
    (s.setStack i x).stack j = if i = j ∧ i < 6 then x else s.stack j := vget_vset _ i j x _

@[simp] theorem State.setStack_stack_self (s : State) (i : Nat) (x : Stack) (h : i < 6) : (s.setStack i x).stack i = x := by
  simp [State.setStack_stack, h]

theorem State.setStack_stack_ne (s : State) (i j : Nat) (x : Stack) (h : i ≠ j) : (s.setStack i x).stack j = s.stack j := by
  simp [State.setStack_stack, h]

theorem State.setRef_ref (s : State) (i j : Nat) (x : Ref) :
    (s.setRef i x).ref j = if i = j ∧ i < 5 then x else s.ref j := vget_vset _ i j x _

@[simp] theorem State.setRef_ref_self (s : State) (i : Nat) (x : Ref) (h : i < 5) : (s.setRef i x).ref i = x := by
  simp [State.setRef_ref, h]

theorem State.setRef_ref_ne (s : State) (i j : Nat) (x : Ref) (h : i ≠ j) : (s.setRef i x).ref j = s.ref j := by
  simp [State.setRef_ref, h]

theorem State.setLaneTrim_laneTrim (s : State) (i j : Nat) (x : LaneTrim) :
    (s.setLaneTrim i x).laneTrim j = if i = j ∧ i < 52 then x else s.laneTrim j := vget_vset _ i j x _

@[simp] theorem State.setLaneTrim_laneTrim_self (s : State) (i : Nat) (x : LaneTrim) (h : i < 52) : (s.setLaneTrim i x).laneTrim i = x := by
  simp [State.setLaneTrim_laneTrim, h]

theorem State.setLaneTrim_laneTrim_ne (s : State) (i j : Nat) (x : LaneTrim) (h : i ≠ j) : (s.setLaneTrim i x).laneTrim j = s.laneTrim j := by
  simp [State.setLaneTrim_laneTrim, h]

theorem State.setTport_tport (s : State) (i j : Nat) (x : TPort) :
    (s.setTport i x).tport j = if i = j ∧ i < 2 then x else s.tport j := vget_vset _ i j x _

@[simp] theorem State.setTport_tport_self (s : State) (i : Nat) (x : TPort) (h : i < 2) : (s.setTport i x).tport i = x := by
  simp [State.setTport_tport, h]

theorem State.setTport_tport_ne (s : State) (i j : Nat) (x : TPort) (h : i ≠ j) : (s.setTport i x).tport j = s.tport j := by
  simp [State.setTport_tport, h]

@[simp] theorem State.setFn_fn_self (s : State) (f : Fn) (x : FnState) : (s.setFn f x).fn f = x := by cases f <;> rfl

theorem State.setFn_fn_ne (s : State) (f g : Fn) (x : FnState) (h : f ≠ g) : (s.setFn f x).fn g = s.fn g := by
  cases f <;> cases g <;> first | rfl | exact absurd rfl h

@[simp] theorem State.setQp_qp_self (s : State) (f : Fn) (i : Nat) (x : Qp) (h : i < 8) : (s.setQp f i x).qp f i = x := by
  simp [State.setQp, State.qp, vget_vset_self, h]

theorem State.setQp_qp_ne (s : State) (f g : Fn) (i j : Nat) (x : Qp) (h : f ≠ g ∨ i ≠ j) :
    (s.setQp f i x).qp g j = s.qp g j := by
  by_cases e : f = g
  · subst e
    simp [State.setQp, State.qp, vget_vset_ne _ _ _ _ _ (h.resolve_left (fun k => k rfl))]
  · simp [State.setQp, State.qp, State.setFn_fn_ne _ _ _ _ e]

@[simp] theorem State.setRing_ring_self (s : State) (f : Fn) (i : Nat) (x : Ring) (h : i < 64) : (s.setRing f i x).ring f i = x := by
  simp [State.setRing, State.ring, vget_vset_self, h]

theorem State.setRing_ring_ne (s : State) (f g : Fn) (i j : Nat) (x : Ring) (h : f ≠ g ∨ i ≠ j) :
    (s.setRing f i x).ring g j = s.ring g j := by
  by_cases e : f = g
  · subst e
    simp [State.setRing, State.ring, vget_vset_ne _ _ _ _ _ (h.resolve_left (fun k => k rfl))]
  · simp [State.setRing, State.ring, State.setFn_fn_ne _ _ _ _ e]

@[simp] theorem State.setVec_vec_self (s : State) (f : Fn) (i : Nat) (x : Msix) (h : i < 64) : (s.setVec f i x).vec f i = x := by
  simp [State.setVec, State.vec, vget_vset_self, h]

theorem State.setVec_vec_ne (s : State) (f g : Fn) (i j : Nat) (x : Msix) (h : f ≠ g ∨ i ≠ j) :
    (s.setVec f i x).vec g j = s.vec g j := by
  by_cases e : f = g
  · subst e
    simp [State.setVec, State.vec, vget_vset_ne _ _ _ _ _ (h.resolve_left (fun k => k rfl))]
  · simp [State.setVec, State.vec, State.setFn_fn_ne _ _ _ _ e]

@[simp] theorem State.setQp_ring (s : State) (f g : Fn) (i j : Nat) (x : Qp) : (s.setQp f i x).ring g j = s.ring g j := by
  by_cases e : f = g
  · subst e; simp [State.setQp, State.ring]
  · simp [State.setQp, State.ring, State.setFn_fn_ne _ _ _ _ e]

@[simp] theorem State.setQp_vec (s : State) (f g : Fn) (i j : Nat) (x : Qp) : (s.setQp f i x).vec g j = s.vec g j := by
  by_cases e : f = g
  · subst e; simp [State.setQp, State.vec]
  · simp [State.setQp, State.vec, State.setFn_fn_ne _ _ _ _ e]

@[simp] theorem State.setRing_qp (s : State) (f g : Fn) (i j : Nat) (x : Ring) : (s.setRing f i x).qp g j = s.qp g j := by
  by_cases e : f = g
  · subst e; simp [State.setRing, State.qp]
  · simp [State.setRing, State.qp, State.setFn_fn_ne _ _ _ _ e]

@[simp] theorem State.setRing_vec (s : State) (f g : Fn) (i j : Nat) (x : Ring) : (s.setRing f i x).vec g j = s.vec g j := by
  by_cases e : f = g
  · subst e; simp [State.setRing, State.vec]
  · simp [State.setRing, State.vec, State.setFn_fn_ne _ _ _ _ e]

@[simp] theorem State.setVec_qp (s : State) (f g : Fn) (i j : Nat) (x : Msix) : (s.setVec f i x).qp g j = s.qp g j := by
  by_cases e : f = g
  · subst e; simp [State.setVec, State.qp]
  · simp [State.setVec, State.qp, State.setFn_fn_ne _ _ _ _ e]

@[simp] theorem State.setVec_ring (s : State) (f g : Fn) (i j : Nat) (x : Msix) : (s.setVec f i x).ring g j = s.ring g j := by
  by_cases e : f = g
  · subst e; simp [State.setVec, State.ring]
  · simp [State.setVec, State.ring, State.setFn_fn_ne _ _ _ _ e]

theorem State.lane_congr {s t : State} (h : t.osl = s.osl) (j : Nat) : t.lane j = s.lane j := by
  simp [State.lane, h]

theorem State.chain_congr {s t : State} (h : t.chisel = s.chisel) (j : Nat) : t.chain j = s.chain j := by
  simp [State.chain, h]

theorem State.core_congr {s t : State} (h : t.gloss = s.gloss) (j : Nat) : t.core j = s.core j := by
  simp [State.core, h]

theorem State.channel_congr {s t : State} (h : t.dma = s.dma) (j : Nat) : t.channel j = s.channel j := by
  simp [State.channel, h]

theorem State.stream_congr {s t : State} (h : t.intake = s.intake) (j : Nat) : t.stream j = s.stream j := by
  simp [State.stream, h]

theorem State.stack_congr {s t : State} (h : t.hbm = s.hbm) (j : Nat) : t.stack j = s.stack j := by
  simp [State.stack, h]

theorem State.product_congr {s t : State} (h : t.products = s.products) (j : Nat) : t.product j = s.product j := by
  simp [State.product, h]

theorem State.corr_congr {s t : State} (h : t.corrs = s.corrs) (j : Nat) : t.corr j = s.corr j := by
  simp [State.corr, h]

theorem State.fzProd_congr {s t : State} (h : t.frieze = s.frieze) (j : Nat) : t.fzProd j = s.fzProd j := by
  simp [State.fzProd, h]

theorem State.ref_congr {s t : State} (h : t.clock = s.clock) (j : Nat) : t.ref j = s.ref j := by
  simp [State.ref, h]

theorem State.laneTrim_congr {s t : State} (h : t.trims = s.trims) (j : Nat) : t.laneTrim j = s.laneTrim j := by
  simp [State.laneTrim, h]

theorem State.tport_congr {s t : State} (h : t.net = s.net) (j : Nat) : t.tport j = s.tport j := by
  simp [State.tport, h]

/-! ### Sorted tables -/

theorem tabGet_tabSet_self {α : Type} (k : Nat) (v : α) (t : List (Nat × α)) : tabGet k (tabSet k v t) = some v := by
  induction t with
  | nil => simp [tabSet, tabGet]
  | cons p t ih =>
    obtain ⟨i, w⟩ := p
    simp only [tabSet]
    split
    · simp [tabGet]
    · split
      · simp [tabGet]
      · rename_i h1 h2
        simp [tabGet, Ne.symm h2, ih]

theorem tabGet_tabSet_ne {α : Type} (k j : Nat) (v : α) (t : List (Nat × α)) (h : k ≠ j) :
    tabGet j (tabSet k v t) = tabGet j t := by
  induction t with
  | nil => simp [tabSet, tabGet, h]
  | cons p t ih =>
    obtain ⟨i, w⟩ := p
    simp only [tabSet]
    split
    · simp [tabGet, h]
    · split
      · rename_i h2
        simp [tabGet, ← h2, h]
      · simp [tabGet, ih]

@[simp] theorem State.setProduct_product_self (s : State) (i : Nat) (p : Product) : (s.setProduct i p).product i = some p :=
  tabGet_tabSet_self i p _

theorem State.setProduct_product_ne (s : State) (i j : Nat) (p : Product) (h : i ≠ j) :
    (s.setProduct i p).product j = s.product j := tabGet_tabSet_ne i j p _ h

@[simp] theorem State.setStream_stream_self (s : State) (i : Nat) (x : Stream) : (s.setStream i x).stream i = x := by
  simp [State.setStream, State.stream, tabGet_tabSet_self]

theorem State.setStream_stream_ne (s : State) (i j : Nat) (x : Stream) (h : i ≠ j) : (s.setStream i x).stream j = s.stream j := by
  simp [State.setStream, State.stream, tabGet_tabSet_ne _ _ _ _ h]

end Sys2Proof.Machine
end

