-- ==== Sys2Proof/Laws/Memory.lean ====
section
/-! SUPPORT. The byte memory and the word memories: a read after a write, every other place as before, and the canonical form kept
by every operation. -/

namespace Sys2Proof.Machine

/-! ### The byte memory -/

theorem memGet_of_wf {m : List Host.Cell} {lo a : Nat} (h : memWfFrom lo m = true) (ha : a < lo) : memGet a m = 0 := by
  induction m generalizing lo with
  | nil => rfl
  | cons c m ih =>
    obtain ⟨k, v⟩ := c
    simp only [memWfFrom, Bool.and_eq_true, decide_eq_true_eq] at h
    have hk : k ≠ a := by omega
    simp only [memGet, hk, if_false]
    exact ih h.2 (by omega)

/-- A read of the byte written gives it. -/
theorem memGet_memPut_self {m : List Host.Cell} {lo : Nat} (a : Nat) (b : Byte) (h : memWfFrom lo m = true) :
    memGet a (memPut a b m) = b := by
  induction m generalizing lo with
  | nil => by_cases hb : b = 0#8 <;> simp [memPut, hb, memGet]
  | cons c m ih =>
    obtain ⟨k, v⟩ := c
    simp only [memWfFrom, Bool.and_eq_true, decide_eq_true_eq] at h
    by_cases h1 : a < k
    · by_cases hb : b = 0#8
      · have hk : k ≠ a := by omega
        simp [memPut, h1, hb, memGet, hk, memGet_of_wf h.2 (show a < k + 1 by omega)]
      · simp [memPut, h1, hb, memGet]
    · by_cases h2 : a = k
      · subst h2
        by_cases hb : b = 0#8
        · simp [memPut, hb, memGet_of_wf h.2 (show a < a + 1 by omega)]
        · simp [memPut, hb, memGet]
      · have hk : k ≠ a := fun e => h2 e.symm
        simp [memPut, h1, h2, memGet, hk, ih h.2]

/-- A write leaves every other byte alone. -/
theorem memGet_memPut_ne (m : List Host.Cell) {a c : Nat} (b : Byte) (h : c ≠ a) : memGet c (memPut a b m) = memGet c m := by
  induction m with
  | nil => by_cases hb : b = 0#8 <;> simp [memPut, hb, memGet, Ne.symm h]
  | cons p m ih =>
    obtain ⟨k, v⟩ := p
    by_cases h1 : a < k
    · by_cases hb : b = 0#8 <;> simp [memPut, h1, hb, memGet, Ne.symm h]
    · by_cases h2 : a = k
      · subst h2
        by_cases hb : b = 0#8 <;> simp [memPut, hb, memGet, Ne.symm h]
      · simp [memPut, h1, h2, memGet, ih]

theorem memWfFrom_le {m : List Host.Cell} {lo lo' : Nat} (h : memWfFrom lo m = true) (hl : lo' ≤ lo) :
    memWfFrom lo' m = true := by
  cases m with
  | nil => rfl
  | cons c m =>
    obtain ⟨k, v⟩ := c
    simp only [memWfFrom, Bool.and_eq_true, decide_eq_true_eq] at h ⊢
    exact ⟨⟨by omega, h.1.2⟩, h.2⟩

theorem memWfFrom_memPut {m : List Host.Cell} {lo : Nat} (a : Nat) (b : Byte) (h : memWfFrom lo m = true) (ha : lo ≤ a) :
    memWfFrom lo (memPut a b m) = true := by
  induction m generalizing lo with
  | nil => by_cases hb : b = 0#8 <;> simp [memPut, hb, memWfFrom, ha]
  | cons c m ih =>
    obtain ⟨k, v⟩ := c
    simp only [memWfFrom, Bool.and_eq_true, decide_eq_true_eq] at h
    by_cases h1 : a < k
    · by_cases hb : b = 0#8
      · have hv : v ≠ 0#8 := h.1.2
        simp [memPut, h1, hb, memWfFrom, h.1.1, hv, h.2]
      · have hv : v ≠ 0#8 := h.1.2
        have hk : a + 1 ≤ k := h1
        simp [memPut, h1, hb, memWfFrom, ha, hv, h.2, hk]
    · by_cases h2 : a = k
      · subst h2
        by_cases hb : b = 0#8
        · simpa [memPut, hb] using memWfFrom_le h.2 (by omega)
        · simp [memPut, hb, memWfFrom, ha, h.2]
      · simp only [memPut, h1, h2, if_false, memWfFrom, Bool.and_eq_true, decide_eq_true_eq]
        exact ⟨h.1, ih h.2 (by omega)⟩

/-- A write keeps the canonical form. -/
theorem Memory.wf_memPut {m : List Host.Cell} (a : Nat) (b : Byte) (h : Memory.wf m = true) :
    Memory.wf (memPut a b m) = true := memWfFrom_memPut a b h (Nat.zero_le _)

@[simp] theorem Memory.wf_memPutBytes {m : List Host.Cell} (a : Nat) (bs : List Byte) (h : Memory.wf m = true) :
    Memory.wf (memPutBytes a bs m) = true := by
  induction bs generalizing a m with
  | nil => exact h
  | cons b bs ih => exact ih (a + 1) (Memory.wf_memPut a b h)

/-- A write of several bytes leaves every byte outside them alone. -/
theorem memGet_memPutBytes_out (m : List Host.Cell) (a : Nat) (bs : List Byte) {c : Nat} (h : c < a ∨ a + bs.length ≤ c) :
    memGet c (memPutBytes a bs m) = memGet c m := by
  induction bs generalizing a m with
  | nil => rfl
  | cons b bs ih =>
    simp only [List.length_cons] at h
    simp only [memPutBytes]
    rw [ih (memPut a b m) (a + 1) (by omega), memGet_memPut_ne m b (by omega)]

/-- A read of one of several bytes written gives it. -/
theorem memGet_memPutBytes_in {m : List Host.Cell} (a : Nat) (bs : List Byte) (h : Memory.wf m = true) {i : Nat}
    (hi : i < bs.length) : memGet (a + i) (memPutBytes a bs m) = bs[i] := by
  induction bs generalizing a m i with
  | nil => exact absurd hi (Nat.not_lt_zero i)
  | cons b bs ih =>
    simp only [memPutBytes]
    cases i with
    | zero =>
      rw [memGet_memPutBytes_out _ _ _ (by omega)]
      exact memGet_memPut_self a b h
    | succ i =>
      have := ih (a + 1) (Memory.wf_memPut a b h) (i := i) (by simpa using hi)
      rw [show a + (i + 1) = a + 1 + i by omega, this]
      rfl

/-- The bytes read back where they were written. -/
theorem memGetBytes_memPutBytes {m : List Host.Cell} (a : Nat) (bs : List Byte) (h : Memory.wf m = true) :
    memGetBytes (memPutBytes a bs m) a bs.length = bs := by
  apply List.ext_getElem
  · simp [memGetBytes]
  · intro i h1 h2
    simp [memGetBytes, memGet_memPutBytes_in a bs h h2]

theorem memWfFrom_filter {m : List Host.Cell} {lo : Nat} (p : Host.Cell → Bool) (h : memWfFrom lo m = true) :
    memWfFrom lo (m.filter p) = true := by
  induction m generalizing lo with
  | nil => rfl
  | cons c m ih =>
    obtain ⟨k, v⟩ := c
    simp only [memWfFrom, Bool.and_eq_true, decide_eq_true_eq] at h
    simp only [List.filter_cons]
    split
    · simp only [memWfFrom, Bool.and_eq_true, decide_eq_true_eq]
      exact ⟨h.1, ih h.2⟩
    · exact memWfFrom_le (ih h.2) (by omega)

/-- Cells taken out leave the canonical form. -/
@[simp] theorem Memory.wf_filter {m : List Host.Cell} (p : Host.Cell → Bool) (h : Memory.wf m = true) :
    Memory.wf (m.filter p) = true := memWfFrom_filter p h

/-- A fold of writes keeps the canonical form. -/
theorem Memory.wf_foldl {α : Type} (g : List Host.Cell → α → List Host.Cell) (l : List α) (m : List Host.Cell)
    (hg : ∀ m x, Memory.wf m = true → Memory.wf (g m x) = true) (h : Memory.wf m = true) :
    Memory.wf (l.foldl g m) = true := by
  induction l generalizing m with
  | nil => exact h
  | cons x l ih => exact ih (g m x) (hg m x h)

/-! ### Stores into HBM -/

theorem ite_ind {α : Type} {c : Prop} [Decidable c] {x y : α} {P : α → Prop} (hx : P x) (hy : P y) : P (ite c x y) := by
  by_cases h : c
  · rwa [if_pos h]
  · rwa [if_neg h]

/-- A part of a range that holds no poison holds none. -/
theorem poisoned_sub {s : State} {lo hi a b : Nat} (h : poisoned s lo hi = false) (ha : lo ≤ a) (hb : b ≤ hi) :
    poisoned s a b = false := by
  simp only [poisoned, List.any_eq_false, Bool.and_eq_true, decide_eq_true_eq, not_and] at h ⊢
  exact fun w hw h1 h2 => h w hw (by omega) (by omega)

/-- A store into words that hold no poison writes every byte. -/
theorem State.store_clean {s : State} {a : Nat} {bs : List Byte} (h : poisoned s a (a + bs.length) = false) :
    s.store a bs = putClear s a bs := by
  have h1 : headLost s a (a + bs.length) = false := by
    by_cases hl : a < a + bs.length
    · simp [headLost, poisoned_sub h (Nat.le_refl a) (show a + 1 ≤ a + bs.length by omega)]
    · simp [headLost, hl]
  have h2 : tailLost s a (a + bs.length) = false := by
    by_cases hl : a < a + bs.length
    · simp [tailLost, poisoned_sub h (show a ≤ a + bs.length - 1 by omega) (Nat.le_refl _)]
    · simp [tailLost, hl]
  simp [State.store, h1, h2, b2n]

/-- A store writes a run of bytes within its range. -/
theorem State.store_bytes (s : State) (a : Nat) (bs : List Byte) :
    ∃ lo l, (s.store a bs).hbm.mem = memPutBytes lo l s.hbm.mem ∧ a ≤ lo ∧ (l.length = 0 ∨ lo + l.length ≤ a + bs.length) := by
  unfold State.store
  refine ite_ind (P := fun t : State => ∃ lo l, t.hbm.mem = memPutBytes lo l s.hbm.mem ∧ a ≤ lo ∧
    (l.length = 0 ∨ lo + l.length ≤ a + bs.length)) ⟨a, bs, rfl, Nat.le_refl _, .inr (Nat.le_refl _)⟩ ⟨_, _, rfl, ?_, ?_⟩
  · split <;> omega
  · simp only [List.length_take, List.length_drop]
    split <;> split <;> omega

/-- A store keeps the canonical form. -/
@[simp] theorem Memory.wf_store {s : State} (a : Nat) (bs : List Byte) (h : Memory.wf s.hbm.mem = true) :
    Memory.wf (s.store a bs).hbm.mem = true := by
  obtain ⟨lo, l, e, -⟩ := s.store_bytes a bs
  rw [e]
  exact Memory.wf_memPutBytes lo l h

/-- A store leaves every byte outside its range alone. -/
theorem State.store_out_of_range (s : State) {a c : Nat} {bs : List Byte} (h : c < a ∨ a + bs.length ≤ c) :
    memGet c (s.store a bs).hbm.mem = memGet c s.hbm.mem := by
  obtain ⟨lo, l, e, h1, h2⟩ := s.store_bytes a bs
  rw [e]
  obtain h2 | h2 := h2
  · rw [List.length_eq_zero_iff.mp h2]; rfl
  · exact memGet_memPutBytes_out _ _ _ (by omega)

@[simp] theorem State.putClear_mem (s : State) (a : Nat) (bs : List Byte) :
    (putClear s a bs).hbm.mem = memPutBytes a bs s.hbm.mem := rfl

theorem State.store_mem {s : State} {a : Nat} {bs : List Byte} (h : poisoned s a (a + bs.length) = false) :
    (s.store a bs).hbm.mem = memPutBytes a bs s.hbm.mem := by rw [State.store_clean h]; rfl

/-- What was stored is read back. -/
theorem State.load_store {s : State} {a : Nat} {bs : List Byte} (h : Memory.wf s.hbm.mem = true)
    (hp : poisoned s a (a + bs.length) = false) : (s.store a bs).load a bs.length = bs := by
  rw [State.load, State.store_mem hp]
  exact memGetBytes_memPutBytes a bs h

/-! ### Word memories -/

theorem wordGet_of_wf {m : List (Nat × Nat)} {lo a : Nat} (h : wordWfFrom lo m = true) (ha : a < lo) : wordGet a m = 0 := by
  induction m generalizing lo with
  | nil => rfl
  | cons c m ih =>
    obtain ⟨k, v⟩ := c
    simp only [wordWfFrom, Bool.and_eq_true, decide_eq_true_eq] at h
    have hk : k ≠ a := by omega
    simp only [wordGet, hk, if_false]
    exact ih h.2 (by omega)

/-- A read of the word written gives it. -/
theorem wordGet_wordPut_self {m : List (Nat × Nat)} {lo : Nat} (a v : Nat) (h : wordWfFrom lo m = true) :
    wordGet a (wordPut a v m) = v := by
  induction m generalizing lo with
  | nil => by_cases hb : v = 0 <;> simp [wordPut, hb, wordGet]
  | cons c m ih =>
    obtain ⟨k, w⟩ := c
    simp only [wordWfFrom, Bool.and_eq_true, decide_eq_true_eq] at h
    by_cases h1 : a < k
    · by_cases hb : v = 0
      · have hk : k ≠ a := by omega
        simp [wordPut, h1, hb, wordGet, hk, wordGet_of_wf h.2 (show a < k + 1 by omega)]
      · simp [wordPut, h1, hb, wordGet]
    · by_cases h2 : a = k
      · subst h2
        by_cases hb : v = 0
        · simp [wordPut, hb, wordGet_of_wf h.2 (show a < a + 1 by omega)]
        · simp [wordPut, hb, wordGet]
      · have hk : k ≠ a := fun e => h2 e.symm
        simp [wordPut, h1, h2, wordGet, hk, ih h.2]

/-- A write leaves every other word alone. -/
theorem wordGet_wordPut_ne (m : List (Nat × Nat)) {a c : Nat} (v : Nat) (h : c ≠ a) :
    wordGet c (wordPut a v m) = wordGet c m := by
  induction m with
  | nil => by_cases hb : v = 0 <;> simp [wordPut, hb, wordGet, Ne.symm h]
  | cons p m ih =>
    obtain ⟨k, w⟩ := p
    by_cases h1 : a < k
    · by_cases hb : v = 0 <;> simp [wordPut, h1, hb, wordGet, Ne.symm h]
    · by_cases h2 : a = k
      · subst h2
        by_cases hb : v = 0 <;> simp [wordPut, hb, wordGet, Ne.symm h]
      · simp [wordPut, h1, h2, wordGet, ih]

theorem wordWfFrom_le {m : List (Nat × Nat)} {lo lo' : Nat} (h : wordWfFrom lo m = true) (hl : lo' ≤ lo) :
    wordWfFrom lo' m = true := by
  cases m with
  | nil => rfl
  | cons c m =>
    obtain ⟨k, v⟩ := c
    simp only [wordWfFrom, Bool.and_eq_true, decide_eq_true_eq] at h ⊢
    exact ⟨⟨by omega, h.1.2⟩, h.2⟩

/-- A write keeps the canonical form. -/
theorem wordWfFrom_wordPut {m : List (Nat × Nat)} {lo : Nat} (a v : Nat) (h : wordWfFrom lo m = true) (ha : lo ≤ a) :
    wordWfFrom lo (wordPut a v m) = true := by
  induction m generalizing lo with
  | nil => by_cases hb : v = 0 <;> simp [wordPut, hb, wordWfFrom, ha]
  | cons c m ih =>
    obtain ⟨k, w⟩ := c
    simp only [wordWfFrom, Bool.and_eq_true, decide_eq_true_eq] at h
    by_cases h1 : a < k
    · by_cases hb : v = 0
      · simp [wordPut, h1, hb, wordWfFrom, h.1.1, h.1.2, h.2]
      · have hk : a + 1 ≤ k := h1
        simp [wordPut, h1, hb, wordWfFrom, ha, h.1.2, h.2, hk]
    · by_cases h2 : a = k
      · subst h2
        by_cases hb : v = 0
        · simpa [wordPut, hb] using wordWfFrom_le h.2 (by omega)
        · simp [wordPut, hb, wordWfFrom, ha, h.2]
      · simp only [wordPut, h1, h2, if_false, wordWfFrom, Bool.and_eq_true, decide_eq_true_eq]
        exact ⟨h.1, ih h.2 (by omega)⟩

end Sys2Proof.Machine
end

