-- ==== Sys2Proof/Laws/Clause.lean ====
section
/-! SUPPORT. Running a Clause: what an accepted and a refused Clause answer, and what the answer leaves as it was. -/

namespace Sys2Proof.Machine

open Sys2Proof.Safety

/-! ### Results -/

@[simp] theorem refuseIf_true (st off : Nat) : refuseIf true st off = refuse st off := rfl
@[simp] theorem refuseIf_false (st off : Nat) : refuseIf false st off = .ok () := rfl

theorem refuseIf_ok {b : Bool} {st off : Nat} {u : Unit} : refuseIf b st off = .ok u ↔ b = false := by
  cases b <;> simp [refuseIf, refuse]

theorem exists_unit {p : Unit → Prop} : (∃ a, p a) ↔ p () := ⟨fun ⟨_, h⟩ => h, fun h => ⟨(), h⟩⟩

/-- A step of a body that gives a value. -/
theorem except_bind_ok {α β : Type} {x : Except Reply α} {f : α → Except Reply β} {r : β} :
    (x >>= f) = .ok r ↔ ∃ a, x = .ok a ∧ f a = .ok r := by
  cases x <;> simp [bind, Except.bind]

theorem orRefuse_ok {α : Type} {o : Option α} {st off : Nat} {a : α} : orRefuse o st off = .ok a ↔ o = some a := by
  cases o <;> simp [orRefuse, refuse]

theorem refuse_ne_ok {α : Type} {st off : Nat} {a : α} : (refuse st off : Except Reply α) ≠ .ok a := by simp [refuse]

theorem done_ok {s u : State} {a : Nat} {r : Reply} : done s a = .ok (u, r) ↔ s = u ∧ Reply.mk' stDone 0 a 0 0 = r := by
  simp [done]

theorem deferred_ok {s u : State} {k b : Nat} {r : Reply} :
    deferred s k b = .ok (u, r) ↔ s = u ∧ Reply.mk' stDeferred k (b % 2 ^ 64) 0 0 = r := by simp [deferred]

theorem waits_ok {s u : State} {args : List Nat} {r : Reply} :
    waits s args = .ok (u, r) ↔ s = u ∧ { Reply.mk' stDone 0 0 0 0 with wait := some args } = r := by simp [waits]

theorem accepts_iff (r : Result) : accepts r = true ↔ ∃ u a, r = .ok (u, a) := by
  cases r with
  | error e => simp [accepts]
  | ok x => obtain ⟨u, a⟩ := x; simp [accepts]

end Sys2Proof.Machine

namespace Sys2Proof.Safety

open Sys2Proof.Machine

/-! ### The answer -/

theorem SameData.of_eq {s t : State} (h : t = s) : SameData s t := by subst h; constructor <;> simp

theorem SameData.trans {s t u : State} (a : SameData s t) (b : SameData t u) : SameData s u := by
  have ho := a.out.trans b.out
  cases a; cases b; constructor <;> simp_all

theorem SameData.emit {s t : State} (h : SameData s t) (e : Emission) : SameData s (t.emit e) :=
  h.trans (by constructor <;> intros <;> first | rfl | exact List.suffix_cons e t.out)

theorem SameData.setQp {s t : State} (h : SameData s t) (f : Fn) (i : Nat) (q : Qp) : SameData s (t.setQp f i q) :=
  h.trans (by constructor <;> simp)

theorem SameData.setVec {s t : State} (h : SameData s t) (f : Fn) (i : Nat) (m : Msix) : SameData s (t.setVec f i m) :=
  h.trans (by constructor <;> simp)

theorem SameData.setErr {s t : State} (h : SameData s t) (e : ErrState) : SameData s { t with err := e } :=
  h.trans (by constructor <;> intros <;> first | rfl | exact List.suffix_refl _)

theorem SameData.setPair {s t : State} (h : SameData s t) (p : Pair) : SameData s { t with pair := p } :=
  h.trans (by constructor <;> intros <;> first | rfl | exact List.suffix_refl _)

theorem SameData.setBoot {s t : State} (h : SameData s t) (b : Boot) : SameData s { t with boot := b } :=
  h.trans (by constructor <;> intros <;> first | rfl | exact List.suffix_refl _)

theorem SameData.setLog {s t : State} (h : SameData s t) (f : Fn) (l : ErrLog) : SameData s (t.setLog f l) := by
  cases f <;> exact h.setErr _

theorem SameData.refl (s : State) : SameData s s := .of_eq rfl

theorem SameData.sendVector {s t : State} (h : SameData s t) (f : Fn) (v : Nat) : SameData s (sendVector t f v) := by
  unfold Machine.sendVector
  dsimp only
  split
  · exact h.emit _
  · exact h.setVec ..

theorem SameData.attnFollow {s t : State} (h : SameData s t) (s0 : State) : SameData s (attnFollow s0 t) := by
  unfold Machine.attnFollow
  split
  · exact h
  · exact h.emit _

theorem SameData.raiseAttn {s t : State} (h : SameData s t) (b : Nat) : SameData s (raiseAttn t b) := by
  unfold Machine.raiseAttn
  split
  · exact h
  · refine SameData.sendVector (SameData.attnFollow (h.trans ?_) t) ..
    constructor <;> intros <;> first | rfl | exact List.suffix_refl _ | (rename_i f _; cases f <;> rfl)

theorem SameData.logTo {s t : State} (h : SameData s t) (f : Fn) (e : ErrRec) : SameData s (logTo t f e) := by
  unfold Machine.logTo
  dsimp only
  split
  · exact (h.setLog ..).sendVector ..
  · exact (h.setLog ..).raiseAttn _

theorem SameData.logRecord {s t : State} (h : SameData s t) (e : ErrRec) : SameData s (logRecord t e) := by
  unfold Machine.logRecord
  dsimp only
  split
  · exact (h.logTo ..).logTo ..
  · exact h.logTo ..

theorem SameData.raise {s t : State} (h : SameData s t) (cause : U16) (cls : Cls) (w : World) (res det : Nat) :
    SameData s (raise t cause cls w res det) := h.logRecord _

theorem SameData.writeEntry {s t : State} (h : SameData s t) (f : Fn) (i : Nat) : SameData s (writeEntry t f i) := by
  unfold Machine.writeEntry
  dsimp only
  split
  · exact h
  · split
    · split
      · exact ((h.emit _).setQp ..).sendVector ..
      · exact (h.emit _).setQp ..
    · exact h

theorem SameData.foldl {α : Type} {s t : State} (h : SameData s t) (g : State → α → State) (l : List α)
    (hg : ∀ u x, SameData u (g u x)) : SameData s (l.foldl g t) := by
  induction l generalizing t with
  | nil => exact h
  | cons x l ih => exact ih (h.trans (hg t x))

theorem SameData.flushQueue {s t : State} (h : SameData s t) (f : Fn) (i : Nat) : SameData s (flushQueue t f i) := by
  unfold Machine.flushQueue
  have k := h.foldl (fun t _ => Machine.writeEntry t f i) (List.range (t.qp f i).owed.length)
    fun u _ => (SameData.refl u).writeEntry f i
  dsimp only
  split
  · exact k
  · exact k.setQp ..

theorem SameData.owe {s t : State} (h : SameData s t) (f : Fn) (i : Nat) (x : Completion) : SameData s (owe t f i x) := by
  unfold Machine.owe
  dsimp only
  split
  · exact h
  · exact (h.setQp ..).flushQueue ..

theorem SameData.holdCompletion {s t : State} (h : SameData s t) (src : Src) (m : Nat) (w : Bool) (x : Completion) :
    SameData s (holdCompletion t src m w x) := h.setPair _

theorem SameData.followEntry {s t : State} (h : SameData s t) (src : Src) (op k a b : Nat) :
    SameData s (followEntry t src op k a b) := by
  unfold Machine.followEntry
  dsimp only
  repeat' split
  · exact h.holdCompletion ..
  · exact h
  · exact (h.setQp ..).flushQueue ..
  · exact h.setQp ..

theorem SameData.untake {s t : State} (h : SameData s t) (src : Src) : SameData s (untake t src) := by
  unfold Machine.untake
  repeat' split
  · exact h.setErr _
  · exact h
  · exact h

theorem SameData.sendMsg {s t : State} (h : SameData s t) (k : Nat) (p : List Byte) : SameData s (sendMsg t k p).1 :=
  h.setPair _

theorem SameData.mirrorCommit {s t : State} (h : SameData s t) : SameData s (mirrorCommit t).1 := by
  unfold Machine.mirrorCommit
  split
  · exact h.sendMsg ..
  · exact h

theorem SameData.convertFormat {s t : State} (h : SameData s t) : SameData s (convertFormat t) := by
  unfold Machine.convertFormat
  repeat' split
  · exact h.setBoot _
  · exact h
  · exact h

theorem SameData.countCommit {s t : State} (h : SameData s t) : SameData s (countCommit t) := (h.setPair _).convertFormat

theorem SameData.commitClause {s t : State} (h : SameData s t) (src : Src) (op : Nat) :
    SameData s (commitClause t src op).1 := by
  unfold Machine.commitClause
  split
  · exact h
  · exact ((h.setErr _).countCommit).mirrorCommit

theorem SameData.complete {s t : State} (h : SameData s t) (src : Src) (op : Nat) (r : Reply) (n : Option Nat)
    (w : Bool := false) : SameData s (complete t src op r n w) := by
  unfold Machine.complete
  dsimp only
  split
  · exact h.holdCompletion ..
  · exact h.holdCompletion ..
  · exact h.owe ..

theorem SameData.enterWait {s t : State} (h : SameData s t) (src : Src) (op : Nat) (args : List Nat) :
    SameData s (enterWait t src op args) := h.setQp ..

/-- The answer of an accepted Clause leaves the device's data as the body made it. -/
theorem answered_same (src : Src) (op : Nat) (u : State) (r : Reply) : SameData u (answered src op u r) := by
  unfold answered
  dsimp only
  split
  · exact ((SameData.refl u).commitClause ..).enterWait ..
  · exact ((SameData.refl u).commitClause ..).complete ..

theorem untake_same (s : State) (src : Src) : SameData s (untake s src) := (SameData.refl s).untake src

end Sys2Proof.Safety

namespace Sys2Proof.Machine

open Sys2Proof.Safety

/-! ### Running a Clause -/

theorem untake_err (s : State) (src : Src) : ∃ e, untake s src = { s with err := e } ∧ e.fault = s.err.fault ∧
    e.service = s.err.service := by
  unfold untake
  repeat' split
  · exact ⟨_, rfl, rfl, rfl⟩
  · exact ⟨s.err, rfl, rfl, rfl⟩
  · exact ⟨s.err, rfl, rfl, rfl⟩

theorem serves_iff {s : State} {i : Instr} {c : Clause} (hc : clauseOf i = some c) : serves s i = true ↔
    s.err.service = true ∧ isTaken s c = true ∧ s.err.fault = false ∧ (secureOnlyOp c.opcode && c.src.fn == .f1) = false ∧
      rsvdOf c = none ∧ (s.pair.role == .standby && !standbyAnswers c.opcode) = false := by
  simp only [serves, hc, Bool.and_eq_true, Bool.not_eq_true', Option.isNone_iff_eq_none, and_assoc]

/-- A served Clause passes the checks made before its own. -/
theorem gate_of_serves {s : State} {i : Instr} {c : Clause} (hc : clauseOf i = some c) (h : serves s i = true) :
    gate (untake s c.src) c = .ok () := by
  obtain ⟨e, he, hf, -⟩ := untake_err s c.src
  obtain ⟨-, -, h2, h3, h4, h5⟩ := (serves_iff hc).mp h
  rw [he]
  simp [gate, hf, h2, h3, h4, h5]

theorem runClause_of {s : State} {i : Instr} {c : Clause} {body : State → Result} (hc : clauseOf i = some c) :
    runClause i s body = runAs c s body := by simp [runClause, hc]

/-- A served Clause that its body accepts: the commit, then the wait phase or the completion. -/
theorem runClause_accepted {s u : State} {i : Instr} {c : Clause} {body : State → Result} {r : Reply}
    (hc : clauseOf i = some c) (h : serves s i = true) (hb : body (untake s c.src) = .ok (u, r)) :
    runClause i s body = .next (answered c.src c.opcode u r) := by
  obtain ⟨hs, ht, -⟩ := (serves_iff hc).mp h
  rw [runClause_of hc]
  unfold runAs
  simp only [hs, ht, Bool.not_true, Bool.or_self, Bool.false_eq_true, if_false, gate_of_serves hc h, bind, Except.bind, hb]
  unfold answered
  dsimp only
  cases r.wait <;> rfl

/-- An accepted Clause ends in a state of which all holds that holds of its answer. -/
theorem clause_done {s : State} {i : Instr} {c : Clause} {body : State → Result} {P : State → Prop}
    (hc : clauseOf i = some c) (h : serves s i = true) (ha : accepts (body (untake s c.src)) = true)
    (hP : ∀ u r, body (untake s c.src) = .ok (u, r) → SameData u (answered c.src c.opcode u r) →
      P (answered c.src c.opcode u r)) : ∃ t, runClause i s body = .next t ∧ P t := by
  obtain ⟨u, r, hb⟩ := (accepts_iff _).mp ha
  exact ⟨_, runClause_accepted hc h hb, hP u r hb (answered_same c.src c.opcode u r)⟩

/-- A Clause that enters its wait phase holds its queue (11 R350, R351). -/
theorem answered_waiting {src : Src} {op : Nat} {u : State} {r : Reply} {args : List Nat} (h : r.wait = some args) :
    ((answered src op u r).qp src.fn src.qp.val).waiting =
      some { opcode := BitVec.ofNat 16 op, seq := src.seq, args := args } := by
  unfold answered
  simp only [h, enterWait]
  rw [State.setQp_qp_self _ _ _ _ src.qp.isLt]

theorem mem_of_same {s t : State} {e : Emission} (h : SameData s t) (he : e ∈ s.out) : e ∈ t.out := h.out.subset he

@[simp] theorem leBytes_length (n v : Nat) : (leBytes n v).length = n := by
  induction n generalizing v with
  | zero => rfl
  | succ n ih => simp [leBytes, ih]

@[simp] theorem zeros_length (n : Nat) : (zeros n).length = n := List.length_replicate

theorem answerQuery_ok {s : State} {src : Src} {buf : HBuf} {bs : List Byte} (h : bs.length ≤ buf.len.toNat) :
    answerQuery s src buf bs = .ok (s.emit (.hostWrite src.fn buf.addr.toNat bs), .mk' stDone 0 bs.length 0 0) := by
  unfold answerQuery
  rw [if_neg (by omega)]
  rfl

/-- A query whose result fits writes it to the host buffer (11 R367). -/
theorem query_done {s : State} {i : Instr} {c : Clause} {buf : HBuf} {f : State → List Byte}
    (hc : clauseOf i = some c) (h : serves s i = true) (hl : (f (untake s c.src)).length ≤ buf.len.toNat) :
    ∃ t, runClause i s (fun s => answerQuery s c.src buf (f s)) = .next t ∧
      .hostWrite c.src.fn buf.addr.toNat (f (untake s c.src)) ∈ t.out := by
  refine ⟨_, runClause_accepted hc h (answerQuery_ok hl), ?_⟩
  exact mem_of_same (answered_same ..) (List.mem_cons_self ..)

/-- A query whose report fits writes it to the host buffer (11 R367). -/
theorem report_done {s : State} {i : Instr} {c : Clause} {buf : HBuf} {f : State → Report}
    (hc : clauseOf i = some c) (h : serves s i = true) (hl : (Config.reportBytes (f (untake s c.src))).length ≤ buf.len.toNat) :
    ∃ t, runClause i s (fun s => answerReport s c.src buf (f s)) = .next t ∧
      .hostWrite c.src.fn buf.addr.toNat (Config.reportBytes (f (untake s c.src))) ∈ t.out :=
  query_done (f := fun s => Config.reportBytes (f s)) hc h hl

/-- A fold over indices that gives each index it meets a value, and leaves it alone for the others. -/
theorem foldl_sets {α : Type} {m : Nat} (proj : State → Nat → α) (v : α) (g : State → Nat → State)
    (hset : ∀ t n, n < m → proj (g t n) n = v) (hkeep : ∀ t k n, k ≠ n → proj (g t k) n = proj t n)
    (l : List Nat) (s : State) (n : Nat) (hn : n ∈ l) (hm : n < m) : proj (l.foldl g s) n = v := by
  have keep : ∀ (l : List Nat) (t : State), proj t n = v → proj (l.foldl g t) n = v := by
    intro l
    induction l with
    | nil => exact fun _ h => h
    | cons k l ih =>
      intro t h
      apply ih
      by_cases e : k = n
      · subst e; exact hset t k hm
      · rw [hkeep t k n e, h]
  induction l generalizing s with
  | nil => cases hn
  | cons k l ih =>
    cases hn with
    | head => exact keep l _ (hset s n hm)
    | tail _ h => exact ih (g s k) h

/-- A fold whose steps keep something keeps it. -/
theorem foldl_keeps {α β : Type} (proj : State → β) (g : State → α → State) (h : ∀ t x, proj (g t x) = proj t)
    (l : List α) (s : State) : proj (l.foldl g s) = proj s := by
  induction l generalizing s with
  | nil => rfl
  | cons x l ih => exact (ih (g s x)).trans (h s x)

/-- A served Clause that its body refuses completes with that status and changes nothing else (01 R24). -/
theorem runClause_refused {s : State} {i : Instr} {c : Clause} {body : State → Result} {r : Reply}
    (hc : clauseOf i = some c) (h : serves s i = true) (hb : body (untake s c.src) = .error r) :
    ∃ t, runClause i s body = .next t ∧ SameData s t := by
  obtain ⟨hs, ht, -⟩ := (serves_iff hc).mp h
  rw [runClause_of hc]
  unfold runAs
  simp only [hs, ht, Bool.not_true, Bool.or_self, Bool.false_eq_true, if_false, gate_of_serves hc h, bind, Except.bind, hb]
  refine ⟨_, rfl, ?_⟩
  refine SameData.complete ?_ ..
  split
  · exact (untake_same s c.src).raise ..
  · exact untake_same s c.src

/-- While Clause service is stopped a Clause does nothing (17 R488). -/
theorem runClause_stopped {s : State} (i : Instr) (body : State → Result) (h : s.err.service = false) :
    runClause i s body = .next s := by
  unfold runClause
  cases clauseOf i with
  | none => rfl
  | some c => simp [runAs, h]

/-- A Clause ends in a next state. -/
theorem runClause_next (i : Instr) (s : State) (body : State → Result) : ∃ t, runClause i s body = .next t := by
  unfold runClause
  cases clauseOf i with
  | none => exact ⟨_, rfl⟩
  | some c =>
    unfold runAs
    dsimp only
    split
    · exact ⟨_, rfl⟩
    · split
      · exact ⟨_, rfl⟩
      · split <;> exact ⟨_, rfl⟩

end Sys2Proof.Machine
end

