-- ==== Sys2Proof/Laws/Gloss.lean ====
section
/-! SUPPORT. Gloss cores: what running an instruction is, and what the shared steps of an instruction leave as it was. -/

namespace Sys2Proof.Machine

open Sys2Proof.Safety

theorem setCore_setCore (s : State) (i : Nat) (c d : Core) : (s.setCore i c).setCore i d = s.setCore i d := by
  simp only [State.setCore, vset]
  congr 2
  exact Vector.setIfInBounds_setIfInBounds ..

theorem raise_core (s : State) (k : U16) (cls : Cls) (w : World) (r d i : Nat) : (raise s k cls w r d).core i = s.core i :=
  State.core_congr ((SameData.refl s).raise ..).gloss i

/-- Where a core runs an instruction, the command is that instruction's effect on the core made ready. -/
theorem runGloss_runs {s : State} {i : Nat} {g : GInstr} {e : Ecc} (h : runs s i g e = true) :
    runGloss i g e s = .next (coreDo (coreIssue (noteCorrected s i e) i g) i g) := by
  simp only [runs, Bool.and_eq_true, Bool.not_eq_true', beq_iff_eq, bne_iff_ne, ne_eq, Option.isNone_iff_eq_none] at h
  obtain ⟨⟨⟨⟨⟨⟨h1, h2⟩, h3⟩, h4⟩, h5⟩, h6⟩, h7⟩ := h
  unfold runGloss
  simp [h1, h2, h3, h4, h5, h6, h7]

theorem issue_core (s : State) (i : Fin 32) (g : GInstr) (e : Ecc) :
    (coreIssue (noteCorrected s i.val e) i.val g).core i.val = readied (s.core i.val) g e := by
  unfold coreIssue onCore
  rw [State.setCore_core_self _ _ _ i.isLt]
  unfold noteCorrected readied
  by_cases h : e = .corrected
  · simp only [h, if_true, raise_core]
    unfold onCore
    rw [State.setCore_core_self _ _ _ i.isLt]
  · simp only [h, if_false]

theorem issue_only (s : State) (i : Fin 32) (g : GInstr) (c : Core) :
    (coreIssue (noteCorrected s i.val .clean) i.val g).setCore i.val c = s.setCore i.val c := by
  unfold coreIssue onCore noteCorrected
  simp [setCore_setCore]

/-- An instruction that sets its core to `d` completes there, and nothing outside the core changes. -/
theorem runGloss_sets {s : State} {i : Fin 32} {g : GInstr} {e : Ecc} {d : Core} (h : runs s i.val g e = true)
    (hd : coreDo (coreIssue (noteCorrected s i.val e) i.val g) i.val g =
      (coreIssue (noteCorrected s i.val e) i.val g).setCore i.val d) {P : State → Prop}
    (hP : ∀ t, t.core i.val = d → coreOnly s t i.val e → P t) : ∃ t, runGloss i.val g e s = .next t ∧ P t := by
  refine ⟨_, runGloss_runs h, ?_⟩
  rw [hd]
  refine hP _ (State.setCore_core_self _ _ _ i.isLt) fun he => ?_
  subst he
  rw [issue_only, State.setCore_core_self _ _ _ i.isLt]

/-- What a transfer writes: operand registers, pointers and data memory (09 R279). -/
theorem transfer_eq (c0 c : Core) (x : Xfer) :
    ∃ v p x' y l, transfer c0 c x = { c with v := v, p := p, x := x', y := y, stored := l } := by
  have hu : ∀ (c : Core) k u, ∃ p, update c k u = { c with p := p } := by
    intro c k u; cases u <;> exact ⟨_, rfl⟩
  have hp : ∀ (c : Core) b a z, ∃ x y l, c.put b a z = { c with x := x, y := y, stored := l } := by
    intro c b a z; unfold Core.put; cases b <;> exact ⟨_, _, _, rfl⟩
  have hs : ∀ (c : Core) n z k u, ∃ v p, update (c.setV n z) k u = { c with v := v, p := p } := by
    intro c n z k u
    obtain ⟨p, e⟩ := hu (c.setV n z) k u
    exact ⟨_, p, e⟩
  rcases x with _ | ⟨_ | ⟨p1, u1⟩, _ | ⟨p2, u2⟩, q⟩ | ⟨b, p, u, v⟩
  · exact ⟨_, _, _, _, _, rfl⟩
  · exact ⟨_, _, _, _, _, rfl⟩
  · obtain ⟨v, p, e⟩ := hs c (2 * q.val + 1) (c.loadS true (c.pr p2.val)) p2.val u2
    exact ⟨v, p, _, _, _, e⟩
  · obtain ⟨v, p, e⟩ := hs c (2 * q.val) (c.loadS false (c.pr p1.val)) p1.val u1
    exact ⟨v, p, _, _, _, e⟩
  · obtain ⟨v, p, e⟩ := hs c (2 * q.val) (c.loadS false (c.pr p1.val)) p1.val u1
    obtain ⟨v', p', e'⟩ := hs { c with v := v, p := p } (2 * q.val + 1) (c.loadS true (c.pr p2.val)) p2.val u2
    refine ⟨v', p', c.x, c.y, c.stored, ?_⟩
    simp only [transfer]
    rw [e, e']
  · obtain ⟨x', y, l, e1⟩ := hp c b (c.pr p.val) (c0.vr v.val)
    obtain ⟨p', e2⟩ := hu { c with x := x', y := y, stored := l } p.val u
    refine ⟨c.v, p', x', y, l, ?_⟩
    simp only [transfer]
    rw [e1, e2]

theorem setAcc_w (c : Core) (a k : Nat) (x : Int) :
    vget (setAcc c a x).w k 0 = if k = a % 4 then BitVec.ofInt 56 x else vget c.w k 0 := by
  unfold setAcc
  by_cases h : k = a % 4
  · subst h; simp [vget_vset_self _ _ _ _ (Nat.mod_lt a (by decide : 4 > 0))]
  · simp [h, vget_vset_ne _ _ _ _ _ (Ne.symm h)]

end Sys2Proof.Machine
end

