-- ==== Sys2Proof/Laws/Named.lean ====
section
/-! SUPPORT. What the lookups of a Clause's named resources answer, and the lists of products after one is replaced. -/

namespace Sys2Proof.Machine

open Sys2Proof.Safety

theorem find_putBy {α : Type} (key : α → Nat) (x : α) (l : List α) (k : Nat) {c : α}
    (h : l.find? (fun y => key y == k) = some c) (hk : key x = k) :
    (putBy key x l).find? (fun y => key y == k) = some x := by
  induction l with
  | nil => simp at h
  | cons a l ih =>
    simp only [putBy, List.map_cons, List.find?_cons] at *
    by_cases ha : key a = k
    · simp [ha, hk]
    · simp only [ha, hk, if_false]
      have : (key a == k) = false := by simp [ha]
      simp only [this] at h ⊢
      simpa [hk] using ih h

theorem State.setCorr_corr {s : State} {k : Nat} {c d : Corr} (h : s.corr k = some d) (hk : c.pid = k) :
    (s.setCorr c).corr k = some c := find_putBy Corr.pid c s.corrs k h hk

theorem State.setFzProd_fzProd {s : State} {k : Nat} {p d : FzProd} (h : s.fzProd k = some d) (hk : p.pid = k) :
    (s.setFzProd p).fzProd k = some p := find_putBy FzProd.pid p s.frieze.prods k h hk

theorem State.corr_pid {s : State} {pid : Nat} {c : Corr} (h : s.corr pid = some c) : c.pid = pid := by
  simpa using List.find?_some h

theorem State.fzProd_pid {s : State} {pid : Nat} {p : FzProd} (h : s.fzProd pid = some p) : p.pid = pid := by
  simpa using List.find?_some h

theorem findProduct_ok {s : State} {pid off : Nat} {ks : List PKind} {p : Product} (h : findProduct s pid ks off = .ok p) :
    s.product pid = some p ∧ ks.contains p.kind = true := by
  simp only [findProduct, except_bind_ok, refuseIf_ok, exists_unit, orRefuse_ok, pure, Except.pure, Except.ok.injEq] at h
  obtain ⟨q, h1, h2, rfl⟩ := h
  exact ⟨h1, by simpa using h2⟩

theorem ownWorld_ok {p : Product} {f : Fn} {off : Nat} {u : Unit} (h : ownWorld p f off = .ok u) : p.world = worldOf f := by
  simpa using refuseIf_ok.mp h

theorem namedProduct_ok {s : State} {f : Fn} {pid off : Nat} {ks : List PKind} {p : Product}
    (h : namedProduct s f pid ks off = .ok p) : s.product pid = some p ∧ ks.contains p.kind = true ∧ p.world = worldOf f := by
  simp only [namedProduct, except_bind_ok, exists_unit, pure, Except.pure, Except.ok.injEq] at h
  obtain ⟨q, h1, h2, rfl⟩ := h
  exact ⟨(findProduct_ok h1).1, (findProduct_ok h1).2, ownWorld_ok h2⟩

theorem namedCorr_ok {s : State} {f : Fn} {pid : Nat} {x : Product × Corr} (h : namedCorr s f pid = .ok x) :
    s.product pid = some x.1 ∧ s.corr pid = some x.2 := by
  simp only [namedCorr, except_bind_ok, orRefuse_ok, pure, Except.pure, Except.ok.injEq] at h
  obtain ⟨p, hp, c, hc, rfl⟩ := h
  exact ⟨(namedProduct_ok hp).1, hc⟩

theorem findBeam_ok {s : State} {pid : Nat} {x : Product × FzProd} (h : findBeam s pid = .ok x) :
    s.product pid = some x.1 ∧ s.fzProd pid = some x.2 := by
  simp only [findBeam, except_bind_ok, orRefuse_ok, pure, Except.pure, Except.ok.injEq] at h
  obtain ⟨p, hp, c, hc, rfl⟩ := h
  exact ⟨(findProduct_ok hp).1, hc⟩

theorem namedBeam_ok {s : State} {f : Fn} {pid : Nat} {x : Product × FzProd} (h : namedBeam s f pid = .ok x) :
    s.product pid = some x.1 ∧ s.fzProd pid = some x.2 := by
  simp only [namedBeam, except_bind_ok, exists_unit, pure, Except.pure, Except.ok.injEq] at h
  obtain ⟨y, hy, -, rfl⟩ := h
  exact findBeam_ok hy

theorem findChain_ok {s : State} {i : Nat} {c : Chain} (h : findChain s i = .ok c) : i < 64 ∧ s.chain i = c := by
  simp only [findChain, except_bind_ok, refuseIf_ok, exists_unit, pure, Except.pure, Except.ok.injEq, Bool.or_eq_false_iff] at h
  exact ⟨by simpa using h.1.1, h.2⟩

theorem namedChain_ok {s : State} {f : Fn} {i : Nat} {c : Chain} (h : namedChain s f i = .ok c) : i < 64 ∧ s.chain i = c := by
  simp only [namedChain, except_bind_ok, exists_unit, pure, Except.pure, Except.ok.injEq] at h
  obtain ⟨d, hd, -, rfl⟩ := h
  exact findChain_ok hd

theorem findCore_ok {s : State} {i : Nat} {c : Core} (h : findCore s i = .ok c) : i < 32 ∧ s.core i = c := by
  simp only [findCore, except_bind_ok, refuseIf_ok, exists_unit, pure, Except.pure, Except.ok.injEq] at h
  exact ⟨by simpa using h.1, h.2⟩

theorem namedCore_ok {s : State} {f : Fn} {i : Nat} {c : Core} (h : namedCore s f i = .ok c) : i < 32 ∧ s.core i = c := by
  simp only [namedCore, except_bind_ok, exists_unit, pure, Except.pure, Except.ok.injEq] at h
  obtain ⟨d, hd, -, rfl⟩ := h
  exact findCore_ok hd

theorem namedStream_ok {s : State} {f : Fn} {n off : Nat} {d : StreamDef} (h : namedStream s f n off = .ok d) :
    n < 1024 ∧ (s.stream n).entry = some d := by
  simp only [namedStream, except_bind_ok, refuseIf_ok, exists_unit, orRefuse_ok, pure, Except.pure, Except.ok.injEq] at h
  obtain ⟨e, h1, -, rfl⟩ := h
  split at h1
  · exact ⟨‹_›, h1⟩
  · cases h1

theorem badLength_ne_ok {α : Type} {n g : Nat} {a : α} : (badLength n g : Except Reply α) ≠ .ok a := by simp [badLength]

@[simp] theorem enumFrom0_length {α : Type} (l : List α) : (enumFrom0 l).length = l.length := by simp [enumFrom0]

/-- The wait phase of an accepted Clause is recorded on its queue pair (11 R354). -/
theorem waiting_of {src : Src} {op : Nat} {u : State} {r : Reply} (h : r.wait.isSome = true) :
    ((answered src op u r).qp src.fn src.qp.val).waiting.isSome = true := by
  obtain ⟨a, ha⟩ := Option.isSome_iff_exists.mp h
  rw [answered_waiting ha]; rfl

theorem State.untake_product (s : State) (src : Src) (pid : Nat) : (untake s src).product pid = s.product pid :=
  State.product_congr (untake_same s src).products pid

theorem State.untake_corr (s : State) (src : Src) (pid : Nat) : (untake s src).corr pid = s.corr pid :=
  State.corr_congr (untake_same s src).corrs pid

/-- A follow entry, which writes queue pairs only, keeps what a state holds besides (11 R357). -/
theorem followEntry_same (s : State) (src : Src) (op k a b : Nat) : SameData s (followEntry s src op k a b) :=
  (SameData.refl s).followEntry src op k a b

/-- The cuts that a stopped product was selected for change the cuts and the queue pairs alone (11 R362). -/
theorem productStopped_keeps {β : Type} (proj : State → β) (hw : ∀ t w, proj { t with world := w } = proj t)
    (hf : ∀ t src op k a b, proj (followEntry t src op k a b) = proj t) (s : State) (pid : Nat) :
    proj (productStopped s pid) = proj s := by
  unfold productStopped
  refine foldl_keeps proj _ (fun t c => ?_) _ _
  dsimp only
  split
  · split
    · exact (hf ..).trans (hw ..)
    · exact hw ..
  · rfl

@[simp] theorem productStopped_intake (s : State) (pid : Nat) : (productStopped s pid).intake = s.intake :=
  productStopped_keeps State.intake (fun _ _ => rfl) (fun _ _ _ _ _ _ => (followEntry_same ..).intake) s pid

@[simp] theorem productStopped_corrs (s : State) (pid : Nat) : (productStopped s pid).corrs = s.corrs :=
  productStopped_keeps State.corrs (fun _ _ => rfl) (fun _ _ _ _ _ _ => (followEntry_same ..).corrs) s pid

@[simp] theorem productStopped_products (s : State) (pid : Nat) : (productStopped s pid).products = s.products :=
  productStopped_keeps State.products (fun _ _ => rfl) (fun _ _ _ _ _ _ => (followEntry_same ..).products) s pid

@[simp] theorem productStopped_frieze (s : State) (pid : Nat) : (productStopped s pid).frieze = s.frieze :=
  productStopped_keeps State.frieze (fun _ _ => rfl) (fun _ _ _ _ _ _ => (followEntry_same ..).frieze) s pid

@[simp] theorem productStopped_chisel (s : State) (pid : Nat) : (productStopped s pid).chisel = s.chisel :=
  productStopped_keeps State.chisel (fun _ _ => rfl) (fun _ _ _ _ _ _ => (followEntry_same ..).chisel) s pid

@[simp] theorem productStopped_gloss (s : State) (pid : Nat) : (productStopped s pid).gloss = s.gloss :=
  productStopped_keeps State.gloss (fun _ _ => rfl) (fun _ _ _ _ _ _ => (followEntry_same ..).gloss) s pid

/-! ### Resuming Clauses, which pay an owed TAKEOVER first (18 R528) -/

theorem resumed_ok {r : Result} {row : Nat → Nat} {pids : State → List Nat} {u : State} {a : Reply}
    (h : resumed r row pids = .ok (u, a)) :
    ∃ x, r = .ok (x, a) ∧ u = (pids x).foldl (fun t p => payTakeover t (row a.a) p) x := by
  simp only [resumed, except_bind_ok, pure, Except.pure, Except.ok.injEq, Prod.mk.injEq] at h
  obtain ⟨⟨x, b⟩, h1, h2, rfl⟩ := h
  exact ⟨x, h1, h2.symm⟩

theorem payTakeover_none {s : State} (h : s.pair.owedTakeovers = []) (row pid : Nat) : payTakeover s row pid = s := by
  simp [payTakeover, h]

theorem accepts_resumed {r : Result} {row : Nat → Nat} {pids : State → List Nat} (h : accepts r = true) :
    accepts (resumed r row pids) = true := by
  obtain ⟨u, a, rfl⟩ := (accepts_iff r).mp h
  simp [resumed, bind, Except.bind, pure, Except.pure, accepts]

theorem untake_pair (s : State) (src : Src) : (untake s src).pair = s.pair := by
  obtain ⟨e, he, -⟩ := untake_err s src
  rw [he]

theorem untake_boot (s : State) (src : Src) : (untake s src).boot = s.boot := by
  obtain ⟨e, he, -⟩ := untake_err s src
  rw [he]

end Sys2Proof.Machine
end

