-- ==== Sys2Proof/Laws/Host.lean ====
section
/-! SUPPORT. What logging an event and writing completions leave alone on the host side: the queue pairs and the link. -/

namespace Sys2Proof.Machine

open Sys2Proof.Safety

theorem setVec_qp (s : State) (f g : Fn) (v : Nat) (m : Msix) (i : Nat) : (s.setVec f v m).qp g i = s.qp g i := by
  cases f <;> cases g <;> rfl

theorem sendVector_qp (s : State) (f g : Fn) (v i : Nat) : (sendVector s f v).qp g i = s.qp g i := by
  unfold sendVector
  dsimp only
  split
  · rfl
  · exact setVec_qp ..

theorem raiseAttn_qp (s : State) (g : Fn) (b i : Nat) : (raiseAttn s b).qp g i = s.qp g i := by
  unfold raiseAttn
  split
  · rfl
  · dsimp only
    rw [sendVector_qp]
    unfold attnFollow
    split <;> cases g <;> rfl

theorem logTo_qp (s : State) (f g : Fn) (e : ErrRec) (i : Nat) : (logTo s f e).qp g i = s.qp g i := by
  unfold logTo
  have h : ∀ l, (s.setLog f l).qp g i = s.qp g i := by intro l; cases f <;> cases g <;> rfl
  dsimp only
  split
  · rw [sendVector_qp, h]
  · rw [raiseAttn_qp, h]

theorem raise_qp (s : State) (cause : U16) (cls : Cls) (w : World) (res det : Nat) (g : Fn) (i : Nat) :
    (raise s cause cls w res det).qp g i = s.qp g i := by
  unfold raise logRecord
  dsimp only
  split <;> simp only [logTo_qp]

theorem takenFrom_setQp (s : State) (f g : Fn) (i j : Nat) (q : Qp) : takenFrom (s.setQp f i q) g j = takenFrom s g j := by
  cases f <;> rfl

theorem unanswered_setQp (s : State) (f g : Fn) (i j : Nat) (q : Qp) :
    unanswered (s.setQp f i q) g j = unanswered s g j := by cases f <;> rfl

theorem drained_eq (q : Qp) (h : q.state ≠ .draining) : drained q = q := by
  unfold drained; rw [if_neg (fun x => h x.1)]

theorem setQp_setQp (s : State) (f : Fn) (i : Nat) (q r : Qp) : (s.setQp f i q).setQp f i r = s.setQp f i r := by
  cases f <;> simp [State.setQp, State.setFn, State.fn, vset]

theorem flush_empty (s : State) (f : Fn) (i : Fin 8) (q : Qp) (h : q.owed = []) :
    flushQueue (s.setQp f i.val q) f i.val = if unanswered s f i.val then s.setQp f i.val q else s.setQp f i.val (drained q) := by
  unfold flushQueue
  rw [State.setQp_qp_self _ _ _ _ i.isLt, h]
  simp only [List.length_nil, List.range_zero, List.foldl_nil, unanswered_setQp, State.setQp_qp_self _ _ _ _ i.isLt, setQp_setQp]

/-! ### The link -/

/-- Messages change neither the rates of the link's modules nor whether it is up. -/
def SameLink (s t : State) : Prop := t.link.mod0 = s.link.mod0 ∧ t.link.mod1 = s.link.mod1 ∧ t.link.up = s.link.up ∧
  ∀ f, (t.fn f).bme = (s.fn f).bme

theorem SameLink.refl (s : State) : SameLink s s := ⟨rfl, rfl, rfl, fun _ => rfl⟩

theorem SameLink.trans {s t u : State} (a : SameLink s t) (b : SameLink t u) : SameLink s u :=
  ⟨b.1.trans a.1, b.2.1.trans a.2.1, b.2.2.1.trans a.2.2.1, fun f => (b.2.2.2 f).trans (a.2.2.2 f)⟩

theorem SameLink.setVec (s : State) (f : Fn) (v : Nat) (m : Msix) : SameLink s (s.setVec f v m) := by
  cases f <;> exact ⟨rfl, rfl, rfl, fun g => by cases g <;> rfl⟩

theorem SameLink.setQp (s : State) (f : Fn) (v : Nat) (q : Qp) : SameLink s (s.setQp f v q) := by
  cases f <;> exact ⟨rfl, rfl, rfl, fun g => by cases g <;> rfl⟩

theorem SameLink.emit (s : State) (e : Emission) : SameLink s (s.emit e) := ⟨rfl, rfl, rfl, fun g => by cases g <;> rfl⟩

theorem SameLink.sendVector (s : State) (f : Fn) (v : Nat) : SameLink s (sendVector s f v) := by
  unfold Machine.sendVector
  dsimp only
  split
  · exact .emit ..
  · exact .setVec ..

theorem SameLink.raiseAttn (s : State) (b : Nat) : SameLink s (raiseAttn s b) := by
  unfold Machine.raiseAttn
  split
  · exact .refl s
  · dsimp only
    refine SameLink.trans ?_ (.sendVector ..)
    unfold attnFollow
    split <;> exact ⟨rfl, rfl, rfl, fun g => by cases g <;> rfl⟩

theorem SameLink.logTo (s : State) (f : Fn) (e : ErrRec) : SameLink s (logTo s f e) := by
  unfold Machine.logTo
  have h : ∀ l, SameLink s (s.setLog f l) := fun l => by cases f <;> exact ⟨rfl, rfl, rfl, fun g => by cases g <;> rfl⟩
  dsimp only
  split
  · exact (h _).trans (.sendVector ..)
  · exact (h _).trans (.raiseAttn ..)

theorem SameLink.logRecord (s : State) (e : ErrRec) : SameLink s (logRecord s e) := by
  unfold Machine.logRecord
  dsimp only
  split
  · exact (SameLink.logTo ..).trans (.logTo ..)
  · exact .logTo ..

theorem SameLink.foldl {α : Type} (g : State → α → State) (h : ∀ t x, SameLink t (g t x)) (l : List α) (s : State) :
    SameLink s (l.foldl g s) := by
  induction l generalizing s with
  | nil => exact .refl s
  | cons x l ih => exact (h s x).trans (ih (g s x))

theorem SameLink.writeEntry (s : State) (f : Fn) (i : Nat) : SameLink s (writeEntry s f i) := by
  unfold Machine.writeEntry
  dsimp only
  repeat' split
  all_goals first | exact .refl s | exact ((SameLink.emit s _).trans (.setQp ..)).trans (.sendVector ..) |
    exact (SameLink.emit s _).trans (.setQp ..)

theorem SameLink.flushQueue (s : State) (f : Fn) (i : Nat) : SameLink s (flushQueue s f i) := by
  unfold Machine.flushQueue
  dsimp only
  split
  · exact .foldl _ (fun t _ => .writeEntry t f i) ..
  · exact (SameLink.foldl _ (fun t _ => .writeEntry t f i) ..).trans (.setQp ..)

theorem SameLink.sendPending (s : State) (f : Fn) : SameLink s (sendPending s f) := by
  unfold Machine.sendPending
  split
  · refine .foldl _ (fun t v => ?_) ..
    dsimp only
    split
    · exact (SameLink.setVec ..).trans (.emit ..)
    · exact .refl t
  · exact .refl s

theorem SameLink.hostReturns (s : State) (f : Fn) : SameLink s (hostReturns s f) :=
  (SameLink.foldl _ (fun t i => .flushQueue t f i) (List.range 8) s).trans (.sendPending ..)

theorem hostReturns_same (s : State) (f : Fn) : SameData s (hostReturns s f) := by
  have h1 : SameData s (flushQueues s f) := (SameData.refl s).foldl _ _ fun t i => (SameData.refl t).flushQueue ..
  unfold Machine.hostReturns Machine.sendPending
  split
  · refine h1.foldl _ _ fun t v => ?_
    dsimp only
    split
    · exact ((SameData.refl t).setVec ..).emit _
    · exact .refl t
  · exact h1

/-! ### Tables and pseudo-channels -/

theorem pcAt_setPcAt (s : State) (k : Nat) (x : Pc) : (s.setPcAt k x).pcAt k = x := by
  simp [State.pcAt, State.setPcAt, tabGet_tabSet_self]

theorem pcAt_setPcAt_ne (s : State) {k j : Nat} (x : Pc) (h : j ≠ k) : (s.setPcAt k x).pcAt j = s.pcAt j := by
  simp [State.pcAt, State.setPcAt, tabGet_tabSet_ne _ _ _ _ (Ne.symm h)]

theorem wake_stack (s : State) (k : Nat) : ((wakeStacks s).stack k).nSid = (s.stack k).nSid ∧ ((wakeStacks s).stack k).pageHits = (s.stack k).pageHits := by
  unfold wakeStacks State.stack vget
  simp only [Vector.getElem?_map]
  cases s.hbm.stackTab[k]? with
  | none => exact ⟨rfl, rfl⟩
  | some y => simp only [Option.map_some, Option.getD_some]; split <;> exact ⟨rfl, rfl⟩

theorem wake_pcAt (s : State) (k : Nat) : (wakeStacks s).pcAt k = s.pcAt k := rfl
theorem setPcAt_stack (s : State) (k j : Nat) (x : Pc) : (s.setPcAt k x).stack j = s.stack j := rfl

/-! ### Records leave the boot and pair state alone -/

theorem sendVector_boot (s : State) (f : Fn) (v : Nat) :
    (sendVector s f v).boot = s.boot ∧ (sendVector s f v).pair = s.pair := by
  unfold sendVector
  dsimp only
  split
  · exact ⟨rfl, rfl⟩
  · cases f <;> exact ⟨rfl, rfl⟩

theorem raiseAttn_boot (s : State) (b : Nat) : (raiseAttn s b).boot = s.boot ∧ (raiseAttn s b).pair = s.pair := by
  unfold raiseAttn
  split
  · exact ⟨rfl, rfl⟩
  · dsimp only
    rw [(sendVector_boot ..).1, (sendVector_boot ..).2]
    unfold attnFollow
    split <;> exact ⟨rfl, rfl⟩

theorem logTo_boot (s : State) (f : Fn) (e : ErrRec) : (logTo s f e).boot = s.boot ∧ (logTo s f e).pair = s.pair := by
  unfold logTo
  have h : ∀ l, (s.setLog f l).boot = s.boot ∧ (s.setLog f l).pair = s.pair := fun l => by cases f <;> exact ⟨rfl, rfl⟩
  dsimp only
  split
  · rw [(sendVector_boot ..).1, (sendVector_boot ..).2]; exact h _
  · rw [(raiseAttn_boot ..).1, (raiseAttn_boot ..).2]; exact h _

theorem logRecord_boot (s : State) (e : ErrRec) : (logRecord s e).boot = s.boot := by
  unfold logRecord
  dsimp only
  split <;> simp only [(logTo_boot ..).1]

theorem logRecord_pair (s : State) (e : ErrRec) : (logRecord s e).pair = s.pair := by
  unfold logRecord
  dsimp only
  split <;> simp only [(logTo_boot ..).2]

end Sys2Proof.Machine
end

