-- ==== Sys2Proof/Laws/Hbm.lean ====
section
/-! SUPPORT. What serving requests of the HBM controller leaves: the canonical form of the contents, and everything of the rate, the
training and the map. -/

namespace Sys2Proof.Machine

open Sys2Proof.Safety

/-- Serving keeps the canonical form of the contents, the data rate and its changes, the training step, and which stacks
serve which addresses. -/
structure Served (s t : State) : Prop where
  wf : Memory.wf s.hbm.mem = true → Memory.wf t.hbm.mem = true
  rate : t.hbm.rate = s.hbm.rate
  pending : t.hbm.ratePending = s.hbm.ratePending
  running : t.hbm.rateRunning = s.hbm.rateRunning
  step : t.hbm.step = s.hbm.step
  serving : t.hbm.serving = s.hbm.serving
  world : t.world = s.world

theorem Served.refl (s : State) : Served s s := ⟨id, rfl, rfl, rfl, rfl, rfl, rfl⟩

theorem Served.trans {s t u : State} (a : Served s t) (b : Served t u) : Served s u := by
  cases a; cases b; constructor <;> simp_all

theorem Served.of_same {s t : State} (h : SameData s t) : Served s t := by
  constructor <;> simp [h.hbm, h.world]

theorem Served.foldl {α : Type} {s : State} (g : State → α → State) (h : ∀ t x, Served t (g t x)) (l : List α) :
    Served s (l.foldl g s) := by
  induction l generalizing s with
  | nil => exact .refl s
  | cons x l ih => exact (h s x).trans ih

theorem Served.setBankAt {s t : State} (h : Served s t) (k : Nat) (b : Bank) : Served s (t.setBankAt k b) :=
  h.trans ⟨id, rfl, rfl, rfl, rfl, rfl, rfl⟩
theorem Served.setStack {s t : State} (h : Served s t) (k : Nat) (x : Stack) : Served s (t.setStack k x) :=
  h.trans ⟨id, rfl, rfl, rfl, rfl, rfl, rfl⟩
theorem Served.setPcAt {s t : State} (h : Served s t) (k : Nat) (x : Pc) : Served s (t.setPcAt k x) :=
  h.trans ⟨id, rfl, rfl, rfl, rfl, rfl, rfl⟩

/-- The counters and marks of the controller are none of what `Served` names. -/
theorem Served.count {s t : State} (h : Served s t) (x : Hbm) (m : x.mem = t.hbm.mem) (r : x.rate = t.hbm.rate)
    (p : x.ratePending = t.hbm.ratePending) (n : x.rateRunning = t.hbm.rateRunning) (k : x.step = t.hbm.step)
    (v : x.serving = t.hbm.serving) : Served s { t with hbm := x } :=
  h.trans ⟨fun w => by rw [← m] at w; exact w, r, p, n, k, v, rfl⟩

theorem Served.raiseDev {s t : State} (h : Served s t) (cause : U16) (cls : Cls) (res det : Nat) :
    Served s (raiseDev t cause cls res det) := h.trans (.of_same ((SameData.refl t).logRecord _))

theorem Served.raiseWord {s t : State} (h : Served s t) (cause : U16) (cls : Cls) (addr : Nat) :
    Served s (raiseWord t cause cls addr) := by
  unfold Machine.raiseWord
  split
  · exact h.trans (.of_same ((SameData.refl t).raise ..))
  · exact h.raiseDev ..

theorem Served.poisonWord {s t : State} (h : Served s t) (addr : Nat) : Served s (poisonWord t addr) :=
  h.trans ⟨Memory.wf_memPutBytes _ _, rfl, rfl, rfl, rfl, rfl, rfl⟩

theorem Served.poisonCounted {s t : State} (h : Served s t) (addr : Nat) : Served s (poisonCounted t addr) :=
  (h.poisonWord addr).count _ rfl rfl rfl rfl rfl rfl

theorem Served.readOutcome {s t : State} (h : Served s t) (stack addr o : Nat) (scrub : Bool) :
    Served s (readOutcome t stack addr o scrub) := by
  unfold Machine.readOutcome
  dsimp only
  split
  · split
    · exact h
    · exact h.count _ rfl rfl rfl rfl rfl rfl
  · split
    · refine Served.raiseWord ?_ ..
      exact h.count _ rfl rfl rfl rfl rfl rfl
    · refine Served.raiseWord ?_ ..
      exact h.count _ rfl rfl rfl rfl rfl rfl
    · refine Served.raiseWord ?_ ..
      split
      · exact h.poisonCounted ..
      · exact (h.poisonCounted addr).count _ rfl rfl rfl rfl rfl rfl
    · exact (h.setStack ..).raiseDev ..
    · exact h

theorem Served.parityOutcome {s t : State} (h : Served s t) (stack : Nat) (words : List Nat) (clean : Bool) :
    Served s (parityOutcome t stack words clean) := by
  unfold Machine.parityOutcome
  dsimp only
  split
  · exact (h.setStack ..).raiseDev ..
  · exact ((h.setStack ..).trans (.foldl _ (fun u x => (Served.refl u).poisonCounted x) words)).raiseDev ..

theorem Served.activateRow {s t : State} (h : Served s t) (stack key row : Nat) :
    Served s (activateRow t stack key row).1 := by
  unfold Machine.activateRow
  dsimp only
  split
  · exact h
  · split
    · exact h.setBankAt ..
    · exact (h.setBankAt key _).count _ rfl rfl rfl rfl rfl rfl

theorem Served.activateAll {s t : State} (h : Served s t) (stack key fuel : Nat) (rows : List Nat) :
    Served s (activateAll stack key fuel rows t) := by
  induction fuel generalizing rows t with
  | zero => exact h
  | succ n ih =>
    cases rows with
    | nil => exact h
    | cons r rest => exact ih (h.activateRow stack key r) _

theorem Served.reachRow {s t : State} (h : Served s t) (p : HbmPlace) : Served s (reachRow t p) := by
  unfold Machine.reachRow activate
  dsimp only
  split
  · exact (h.setBankAt ..).setStack ..
  · exact ((h.setBankAt ..).setStack ..).activateAll ..

theorem Served.decidePage {s t : State} (h : Served s t) (key : Nat) (l : List HbmPlace) : Served s (decidePage t key l) := by
  unfold Machine.decidePage
  dsimp only
  repeat' split
  all_goals first | exact h | exact h.setBankAt ..

theorem Served.noteOrder {s t : State} (h : Served s t) (key : Nat) (b : Bool) : Served s (noteOrder t key b) := by
  unfold Machine.noteOrder
  dsimp only
  repeat' split
  all_goals first | exact h | exact h.setPcAt .. | exact (h.setPcAt key _).count _ rfl rfl rfl rfl rfl rfl

theorem Served.serveRequest {s t : State} (h : Served s t) (stack : Nat) (r : HbmReq) (p : HbmPlace) (ecc : Nat) :
    Served s (serveRequest t stack r p ecc) := by
  unfold Machine.serveRequest
  dsimp only
  have h := h.reachRow p
  repeat' split
  all_goals first | exact h.parityOutcome .. | exact h.readOutcome .. | exact h

/-- Serving one request keeps what `Served` says. -/
theorem Served.serveOne {s t : State} (h : Served s t) (stack pc ecc : Nat) : Served s (serveOne t stack pc ecc) := by
  unfold Machine.serveOne
  dsimp only
  split
  · exact h.noteOrder ..
  · exact ((((h.noteOrder ..).setPcAt ..).serveRequest ..).noteOrder ..).decidePage ..

/-- Draining the queues keeps what `Served` says. -/
theorem Served.drainQueues (s : State) : Served s (drainQueues s) :=
  .foldl _ (fun _ _ => .foldl _ (fun u _ => (Served.refl u).serveOne ..) _) _

theorem Served.settleHbm (s : State) : Served s (settleHbm s) := (Served.drainQueues s).count _ rfl rfl rfl rfl rfl rfl

/-- With every queue empty there is nothing to drain. -/
theorem drainQueues_empty (s : State) (h : ∀ k, k ∈ s.hbm.pcs → k.2.queue = []) : drainQueues s = s := by
  unfold drainQueues
  have : ∀ (l : List (Nat × Pc)) (t : State), (∀ k, k ∈ l → k.2.queue = []) →
      l.foldl (fun t x => (List.range x.2.queue.length).foldl (fun u _ => serveOne u (x.1 / 32) (x.1 % 32) 0) t) t = t := by
    intro l
    induction l with
    | nil => intro t _; rfl
    | cons x l ih =>
      intro t hl
      rw [List.foldl_cons, hl x List.mem_cons_self]
      exact ih t fun k hk => hl k (List.mem_cons_of_mem _ hk)
  exact this _ s h

/-- A data-rate change starts: it runs, and no retraining does (10 R331). -/
theorem startRateChange_hbm (s : State) : (startRateChange s).hbm.ratePending = s.hbm.ratePending ∧
    (startRateChange s).hbm.rateRunning = true ∧ (startRateChange s).hbm.step = .idle :=
  ⟨(Served.settleHbm s).pending, rfl, rfl⟩

end Sys2Proof.Machine
end

