-- ==== Sys2Proof/Laws/Sent.lean ====
section
/-! SUPPORT. What numbering, sending, declining and reporting records leaves: every unit that makes them, the HBM, the clock root
and the boot state. -/

namespace Sys2Proof.Machine

open Sys2Proof.Safety

/-- The units of the die, the HBM and the roots are alike in two states; products, queues, links and logs may differ. -/
structure Sent (s t : State) : Prop where
  intake : t.intake = s.intake
  maps : t.maps = s.maps
  corrs : t.corrs = s.corrs
  relief : t.relief = s.relief
  hbm : t.hbm = s.hbm
  plinth : t.plinth = s.plinth
  net : t.net = s.net
  clock : t.clock = s.clock
  trims : t.trims = s.trims
  dma : t.dma = s.dma
  power : t.power = s.power
  frieze : t.frieze = s.frieze
  chisel : t.chisel = s.chisel
  gloss : t.gloss = s.gloss
  pending : t.pending = s.pending

theorem Sent.refl (s : State) : Sent s s := by constructor <;> rfl

theorem Sent.trans {s t u : State} (a : Sent s t) (b : Sent t u) : Sent s u := by
  cases a; cases b; constructor <;> simp_all

theorem Sent.of_same {s t : State} (h : SameData s t) : Sent s t :=
  ⟨h.intake, h.maps, h.corrs, h.relief, h.hbm, h.plinth, h.net, h.clock, h.trims, h.dma, h.power, h.frieze, h.chisel, h.gloss, h.pending⟩

theorem Sent.foldl {α : Type} {s t : State} (h : Sent s t) (g : State → α → State) (hg : ∀ u x, Sent u (g u x)) (l : List α) :
    Sent s (l.foldl g t) := by
  induction l generalizing t with
  | nil => exact h
  | cons x l ih => exact ih (h.trans (hg t x))

theorem Sent.setProduct {s t : State} (h : Sent s t) (pid : Nat) (p : Product) : Sent s (t.setProduct pid p) :=
  h.trans (by constructor <;> rfl)

theorem Sent.delProduct {s t : State} (h : Sent s t) (pid : Nat) : Sent s (t.delProduct pid) := h.trans (by constructor <;> rfl)

theorem Sent.pushOffer {s t : State} (h : Sent s t) (o : Offer) : Sent s (pushOffer t o) := h.trans (by constructor <;> rfl)

theorem Sent.egressAppend {s t : State} (h : Sent s t) (eg pid seq : Nat) (bytes : List Byte) :
    Sent s (egressAppend t eg pid seq bytes) := by
  unfold Machine.egressAppend
  dsimp only
  split
  · exact h
  · exact h.trans (by constructor <;> rfl)

theorem Sent.handOver {s t : State} (h : Sent s t) (r : HeldRec) : Sent s (handOver t r) := by
  unfold Machine.handOver
  dsimp only
  have hf := h.foldl (fun t d => Machine.pushOffer t _) (fun u d => (Sent.refl u).pushOffer
    { dest := d, pid := r.pid, seq := r.seq, rtype := r.rtype, start := r.start, time := r.time, since := none, bytes := r.bytes }) r.dests
  split
  · exact hf.egressAppend ..
  · exact hf

theorem Sent.release {s t : State} (h : Sent s t) (r : HeldRec) : Sent s (release t r) := by
  unfold Machine.release
  split
  · exact h.handOver r
  · split
    · exact h.trans (by constructor <;> rfl)
    · unfold emittedThrough
      split
      · exact (h.handOver r).setProduct ..
      · exact h.handOver r

theorem Sent.reserveAhead {s t : State} (h : Sent s t) (pid : Nat) : Sent s (reserveAhead t pid) := by
  unfold Machine.reserveAhead
  split
  · exact h
  · split
    · exact h.trans ((Sent.of_same ((SameData.refl t).sendMsg ..)).setProduct ..)
    · exact h

/-- A record that has its number goes to its destinations. -/
theorem Sent.sendNumbered {s t : State} (h : Sent s t) (pid seq : Nat) (r : RecOut) : Sent s (sendNumbered t pid seq r) := by
  unfold Machine.sendNumbered
  split
  · exact h
  · exact ((h.setProduct ..).release _).reserveAhead _

theorem Sent.takeNumber {s t : State} (h : Sent s t) (pid : Nat) : Sent s (takeNumber t pid).1 := by
  unfold Machine.takeNumber
  split
  · exact h
  · exact h.setProduct ..

theorem Sent.emitNumbered {s t : State} (h : Sent s t) (pid : Nat) (r : RecOut) : Sent s (emitNumbered t pid r) := by
  unfold Machine.emitNumbered
  split
  · exact h
  · exact (h.takeNumber pid).sendNumbered ..

theorem Sent.flushErrors {s t : State} (h : Sent s t) (pid : Nat) (key : Option (Nat × Nat)) (a b c : Nat) :
    Sent s (flushErrors t pid key a b c) := by
  unfold Machine.flushErrors
  split
  · exact h
  · exact (h.setProduct ..).foldl _ (fun u x => (Sent.refl u).emitNumbered ..) _

theorem Sent.emitKeyed {s t : State} (h : Sent s t) (pid : Nat) (key : Option (Nat × Nat)) (r : RecOut) :
    Sent s (emitKeyed t pid key r) := (h.flushErrors ..).emitNumbered ..

theorem Sent.emitRecord {s t : State} (h : Sent s t) (pid : Nat) (r : RecOut) : Sent s (emitRecord t pid r) := h.emitKeyed ..

theorem Sent.emitGapKeyed {s t : State} (h : Sent s t) (pid : Nat) (key : Option (Nat × Nat)) (a b c d e f g : Nat) :
    Sent s (emitGapKeyed t pid key a b c d e f g) := by
  unfold Machine.emitGapKeyed
  split
  · exact h
  · exact ((h.flushErrors ..).takeNumber pid).sendNumbered ..

theorem Sent.gapSuspended {s t : State} (h : Sent s t) (pid a b c : Nat) : Sent s (gapSuspended t pid a b c) := h.emitGapKeyed ..

theorem Sent.oweError {s t : State} (h : Sent s t) (pid : Nat) (key : Option (Nat × Nat)) (x : LogEntry) :
    Sent s (oweError t pid key x) := by
  unfold Machine.oweError
  split
  · exact h
  · split
    · exact h
    · exact h.setProduct ..

/-- An error record of a product is logged, and what the product owes for it noted or sent. -/
theorem Sent.raiseProduct {s t : State} (h : Sent s t) (cause : U16) (pid det : Nat) (a : Affects) :
    Sent s (raiseProduct t cause pid det a) := by
  unfold Machine.raiseProduct logForProduct
  dsimp only
  have hl := h.trans (Sent.of_same ((SameData.refl t).logRecord (eventRec cause .l (t.worldOfProduct pid) false pid (min det (2 ^ 32 - 1)))))
  split
  · split
    · exact hl.emitNumbered ..
    · exact hl.oweError ..
    · exact hl.oweError ..
    · exact hl.oweError ..
  · exact hl

theorem Sent.emitPoisoned {s t : State} (h : Sent s t) (pid : Nat) (r : RecOut) : Sent s (emitPoisoned t pid r) := by
  unfold Machine.emitPoisoned
  dsimp only
  have hp := h.raiseProduct 0x0402 pid 1 .next
  split
  · exact hp
  · split
    · exact ((hp.flushErrors ..).setProduct ..).emitGapKeyed ..
    · exact (hp.flushErrors ..).emitGapKeyed ..

theorem Sent.emitFromSlot {s t : State} (h : Sent s t) (pid base len : Nat) (r : RecOut) : Sent s (emitFromSlot t pid base len r) := by
  unfold Machine.emitFromSlot
  split
  · exact h.emitPoisoned ..
  · exact h.emitRecord ..

theorem Sent.suspendProduct {s t : State} (h : Sent s t) (pid : Nat) : Sent s (suspendProduct t pid) := by
  unfold Machine.suspendProduct
  split
  · exact h.setProduct ..
  · exact h

theorem Sent.followEntry {s t : State} (h : Sent s t) (src : Src) (op k a b : Nat) : Sent s (followEntry t src op k a b) :=
  h.trans (Sent.of_same (followEntry_same t src op k a b))

theorem Sent.productStopped {s t : State} (h : Sent s t) (pid : Nat) : Sent s (productStopped t pid) := by
  unfold Machine.productStopped
  refine h.foldl _ (fun u c => ?_) _
  dsimp only
  split
  · split
    · exact Sent.followEntry (by constructor <;> rfl) ..
    · constructor <;> rfl
  · exact .refl u

end Sys2Proof.Machine
end

