-- ==== Sys2Proof/Laws/Cores.lean ====
section
/-! SUPPORT. Gloss cores: the state in the middle of a P-format instruction, what each format's instruction leaves, branches,
stores, EMIT pieces and traps. -/

namespace Sys2Proof.Machine

open Sys2Proof.Safety

theorem lt4 {k : Nat} (h : k < 4) : k = 0 ∨ k = 1 ∨ k = 2 ∨ k = 3 := by omega

theorem other_ne {a : Nat} (h : a < 4) : other a < 4 ∧ other a ≠ a := by
  rcases lt4 h with rfl | rfl | rfl | rfl <;> decide

structure Mid (c d : Core) (l : List (Nat × Int)) : Prop extends Accs c d l where
  pc : d.pc = c.pc
  loops : d.loops = c.loops
  k : d.k = c.k
  base : d.base = c.base
  ext : d.ext = c.ext
  bx : d.bx = c.bx
  sat : d.sat = c.sat
  eov : d.eov = c.eov
  inWr : d.inWr = c.inWr
  inRd : d.inRd = c.inRd
  calls : d.calls = c.calls
  state : d.state = c.state
  opened : d.opened = c.opened

theorem mid_readied (c : Core) (g : GInstr) (e : Ecc) : Mid c (readied c g e) [] := by
  refine ⟨⟨fun k _ => rfl, ?_⟩, rfl, rfl, rfl, rfl, rfl, rfl, rfl, rfl, rfl, rfl, rfl, rfl, rfl⟩
  simp [readied, spend]

theorem mid_setAcc {c d : Core} {l : List (Nat × Int)} (h : Mid c d l) {a : Nat} (ha : a < 4) (hl : l.lookup a = none)
    (x : Int) : Mid c (setAcc d a x) (l ++ [(a, x)]) := by
  refine ⟨⟨fun k hk => ?_, ?_⟩, h.pc, h.loops, h.k, h.base, h.ext, h.bx, h.sat, h.eov, h.inWr, h.inRd, h.calls, h.state, h.opened⟩
  · rw [setAcc_w, Nat.mod_eq_of_lt ha, List.lookup_append]
    by_cases hka : k = a
    · subst hka; simp [hl]
    · have : (k == a) = false := by simpa using hka
      rw [if_neg hka, h.w k hk]
      simp [List.lookup, this]
  · simp [setAcc, h.av, Bool.or_assoc]

theorem mid_setZn {c d : Core} {l : List (Nat × Int)} (h : Mid c d l) (a : Nat) : Mid c (setZn d a) l :=
  ⟨⟨h.w, h.av⟩, h.pc, h.loops, h.k, h.base, h.ext, h.bx, h.sat, h.eov, h.inWr, h.inRd, h.calls, h.state, h.opened⟩

theorem mid_done {c d : Core} (cyc : Nat) (x : Xfer) (c0 : Core) {l : List (Nat × Int)} (h : Mid c d l) :
    PDone c (spend (advance (transfer c0 d x)) cyc 0) l ∧
    (spend (advance (transfer c0 d x)) cyc 0).z = d.z ∧ (spend (advance (transfer c0 d x)) cyc 0).n = d.n := by
  obtain ⟨v, p, x', y, st, ht⟩ := transfer_eq c0 d x
  rw [ht]
  refine ⟨⟨⟨h.w, h.av⟩, ?_, ?_, h.k, h.base, h.ext, h.bx, h.sat, h.eov, h.inWr, h.inRd, h.calls, h.state, h.opened⟩, rfl, rfl⟩
  · simp only [spend, advance, h.pc, h.loops]
  · simp only [spend, advance, h.pc, h.loops]

theorem runGloss_p {s : State} {i : Fin 32} {op : POp} {f : PF} {e : Ecc} (h : runs s i.val (.p op f) e = true)
    (hb : ¬ (op = .bfly ∧ f.a.val = f.n.val % 4)) {P : State → Prop}
    (hP : ∀ t, t.core i.val = spend (advance (transfer (readied (s.core i.val) (.p op f) e)
      (pOp (readied (s.core i.val) (.p op f) e) op f 0) f.x)) 1 0 → coreOnly s t i.val e → P t) :
    ∃ t, runGloss i.val (.p op f) e s = .next t ∧ P t := by
  refine runGloss_sets h ?_ hP
  unfold coreDo
  simp only [hb, if_false, issue_core]
  rfl

theorem readied_vr (c : Core) (g : GInstr) (e : Ecc) (k : Nat) : (readied c g e).vr k = c.vr k := rfl

theorem readied_wr (c : Core) (g : GInstr) (e : Ecc) (k : Nat) : (readied c g e).wr k = c.wr k := rfl

theorem readied_z (c : Core) (g : GInstr) (e : Ecc) : (readied c g e).z = c.z := rfl

theorem readied_n (c : Core) (g : GInstr) (e : Ecc) : (readied c g e).n = c.n := rfl

theorem setAcc_z (c : Core) (a : Nat) (x : Int) : (setAcc c a x).z = c.z := rfl

theorem setAcc_n (c : Core) (a : Nat) (x : Int) : (setAcc c a x).n = c.n := rfl

theorem multiplied_of {s t : State} {i : Nat} {e : Ecc} {d c0 : Core} {x : Xfer} {cyc : Nat}
    {l : List (Nat × Int)} (hm : Mid (s.core i) d l) (hz : d.z = (s.core i).z) (hn : d.n = (s.core i).n)
    (ht : t.core i = spend (advance (transfer c0 d x)) cyc 0) (ho : coreOnly s t i e) : multiplied s t i e l := by
  obtain ⟨h1, h2, h3⟩ := mid_done cyc x c0 hm
  unfold multiplied
  rw [ht]
  exact ⟨h1, h2.trans hz, h3.trans hn, ho⟩

theorem setAcc_wr {a : Nat} (ha : a < 4) (c : Core) (x : Int) : (setAcc c a x).wr a = (BitVec.ofInt 56 x).toInt := by
  unfold Core.wr
  rw [setAcc_w, Nat.mod_eq_of_lt ha, if_pos rfl]

theorem computed_of {s t : State} {i : Nat} {e : Ecc} {g : GInstr} {c0 : Core} {x : Xfer} {cyc a : Nat} {y : Int}
    (ha : a < 4) (ht : t.core i = spend (advance (transfer c0 (setZn (setAcc (readied (s.core i) g e) a y) a) x)) cyc 0)
    (ho : coreOnly s t i e) : computed s t i e a y := by
  obtain ⟨h1, h2, h3⟩ := mid_done cyc x c0 (mid_setZn (mid_setAcc (mid_readied (s.core i) g e) ha rfl y) a)
  unfold computed
  rw [ht]
  refine ⟨h1, h2.trans ?_, h3.trans ?_, ho⟩ <;> simp only [setZn, setAcc_wr ha]

theorem runGloss_alu {s : State} {i : Fin 32} {op : POp} {f : PF} {e : Ecc} {y : Int} (x : Core → Int)
    (hop : ∀ c, pOp c op f 0 = setZn (setAcc c f.a.val (x c)) f.a.val) (hb : op ≠ .bfly)
    (hx : x (readied (s.core i.val) (.p op f) e) = y) (h : runs s i.val (.p op f) e = true) :
    ∃ t, runGloss i.val (.p op f) e s = .next t ∧ computed s t i.val e f.a.val y := by
  refine runGloss_p h (fun hh => hb hh.1) fun t ht ho => ?_
  rw [hop, hx] at ht
  exact computed_of f.a.isLt ht ho

theorem butterfly_pc (c : Core) (f : PF) (x : Nat) : (butterfly c f x).pc = c.pc ∧ (butterfly c f x).loops = c.loops := by
  unfold butterfly
  dsimp only
  split <;> exact ⟨rfl, rfl⟩

theorem readied_pc (c : Core) (g : GInstr) (e : Ecc) : (readied c g e).pc = c.pc ∧ (readied c g e).loops = c.loops := ⟨rfl, rfl⟩

theorem runGloss_bfly {s : State} {i : Fin 32} {f : PF} {e : Ecc} (h : runs s i.val (.p .bfly f) e = true) :
    ∃ t, runGloss i.val (.p .bfly f) e s = .next t ∧
      (t.core i.val).pc = (advance (s.core i.val)).pc ∧
      (f.a.val ≠ f.n.val % 4 → PDone (s.core i.val) (t.core i.val) [(f.a.val, (s.core i.val).wr f.a.val + (s.core i.val).wr f.n.val),
          (f.n.val % 4, (s.core i.val).wr f.a.val - (s.core i.val).wr f.n.val)] ∧
        coreOnly s t i.val e) := by
  have ha := f.a.isLt
  by_cases hab : f.a.val = f.n.val % 4
  · refine ⟨_, runGloss_runs h, ?_, fun hn => absurd hab hn⟩
    unfold coreDo
    simp only [hab, and_self, if_true]
    rw [State.setCore_core_self _ _ _ i.isLt]
    obtain ⟨v, p, x', y, st, ht⟩ := transfer_eq ((coreIssue (noteCorrected s i.val e) i.val (.p .bfly f)).core i.val)
      (pOp ((coreIssue (noteCorrected s i.val e) i.val (.p .bfly f)).core i.val) .bfly f
        (State.free (coreIssue (noteCorrected s i.val e) i.val (.p .bfly f)) (2 ^ 56)).1) f.x
    rw [ht, issue_core]
    simp only [spend, advance, pOp]
    rw [(butterfly_pc ..).1, (butterfly_pc ..).2, (readied_pc ..).1, (readied_pc ..).2]
  · refine runGloss_p h (by simp [hab]) fun t ht ho => ?_
    simp only [pOp, butterfly, hab, if_false] at ht
    have hl : ∀ {y : Int}, ([(f.a.val, y)] : List (Nat × Int)).lookup (f.n.val % 4) = none := by
      intro y
      have : (f.n.val % 4 == f.a.val) = false := by simpa using Ne.symm hab
      simp [List.lookup, this]
    obtain ⟨h1, h2, h3⟩ := mid_done 1 f.x (readied (s.core i.val) (.p .bfly f) e)
      (mid_setZn (mid_setAcc (mid_setAcc (mid_readied (s.core i.val) (.p .bfly f) e) ha rfl _) (Nat.mod_lt _ (by decide)) hl _) f.a.val)
    rw [ht]
    have hwr : ∀ (c : Core) k, c.wr (k % 4) = c.wr k := by intro c k; simp [Core.wr]
    refine ⟨h1.pc, fun _ => ⟨?_, ho⟩⟩
    simp only [readied_wr, hwr] at h1 ⊢
    exact h1

theorem update_eq (c : Core) (k : Nat) (u : Upd) : ∃ p, update c k u = { c with p := p } := by cases u <;> exact ⟨_, rfl⟩

theorem update_p (c d : Core) (k : Nat) (u : Upd) (h1 : d.p = c.p) (h2 : d.k = c.k) (h3 : d.ext = c.ext) (h4 : d.base = c.base) :
    (update d k u).p = (update c k u).p := by
  cases u <;> simp only [update, stepPtr, increment, h1, h2, h3, h4]

theorem runGloss_r {s : State} {i : Fin 32} {op : ROp} {f : RF} {e : Ecc} (h : runs s i.val (.r op f) e = true) {P : State → Prop}
    (hP : ∀ t, t.core i.val = spend (advance (rOp (readied (s.core i.val) (.r op f) e) i.val op f)) 1 0 →
      coreOnly s t i.val e → P t) : ∃ t, runGloss i.val (.r op f) e s = .next t ∧ P t := by
  refine runGloss_sets h ?_ hP
  unfold coreDo
  simp only [issue_core]
  rfl

theorem runGloss_m {s : State} {i : Fin 32} {op : MOp} {f : MF} {e : Ecc} (h : runs s i.val (.m op f) e = true) {P : State → Prop}
    (hP : ∀ t, t.core i.val = spend (advance (mOp (readied (s.core i.val) (.m op f) e) op f))
        (if op = .savw ∨ op = .rstw then 3 else 1) 0 →
      coreOnly s t i.val e → P t) : ∃ t, runGloss i.val (.m op f) e s = .next t ∧ P t := by
  refine runGloss_sets h ?_ hP
  unfold coreDo
  simp only [issue_core]
  cases op <;> rfl

theorem movedOn_of {c d : Core} (cyc : Nat) (h1 : d.pc = c.pc) (h2 : d.loops = c.loops) (h3 : d.state = c.state)
    (h4 : d.calls = c.calls) : movedOn c (spend (advance d) cyc 0) := by
  simp only [movedOn, spend, advance, h1, h2, h3, h4, and_self]

theorem sa_v (d : Core) (cyc st : Nat) : (spend (advance d) cyc st).v = d.v := rfl

theorem sa_p (d : Core) (cyc st : Nat) : (spend (advance d) cyc st).p = d.p := rfl

theorem sa_k (d : Core) (cyc st : Nat) : (spend (advance d) cyc st).k = d.k := rfl

theorem sa_base (d : Core) (cyc st : Nat) : (spend (advance d) cyc st).base = d.base := rfl

theorem sa_ext (d : Core) (cyc st : Nat) : (spend (advance d) cyc st).ext = d.ext := rfl

theorem sa_x (d : Core) (cyc st : Nat) : (spend (advance d) cyc st).x = d.x := rfl

theorem sa_y (d : Core) (cyc st : Nat) : (spend (advance d) cyc st).y = d.y := rfl

theorem sa_w (d : Core) (cyc st : Nat) : (spend (advance d) cyc st).w = d.w := rfl

theorem sa_z (d : Core) (cyc st : Nat) : (spend (advance d) cyc st).z = d.z := rfl

theorem sa_n (d : Core) (cyc st : Nat) : (spend (advance d) cyc st).n = d.n := rfl

theorem sa_av (d : Core) (cyc st : Nat) : (spend (advance d) cyc st).av = d.av := rfl

theorem sa_sat (d : Core) (cyc st : Nat) : (spend (advance d) cyc st).sat = d.sat := rfl

theorem sa_eov (d : Core) (cyc st : Nat) : (spend (advance d) cyc st).eov = d.eov := rfl

theorem sa_bx (d : Core) (cyc st : Nat) : (spend (advance d) cyc st).bx = d.bx := rfl

theorem setV_p (d : Core) (i : Nat) (x : Int) : (d.setV i x).p = d.p := rfl

theorem setV_k (d : Core) (i : Nat) (x : Int) : (d.setV i x).k = d.k := rfl

theorem setV_base (d : Core) (i : Nat) (x : Int) : (d.setV i x).base = d.base := rfl

theorem setV_ext (d : Core) (i : Nat) (x : Int) : (d.setV i x).ext = d.ext := rfl

theorem setV_x (d : Core) (i : Nat) (x : Int) : (d.setV i x).x = d.x := rfl

theorem setV_y (d : Core) (i : Nat) (x : Int) : (d.setV i x).y = d.y := rfl

theorem setV_w (d : Core) (i : Nat) (x : Int) : (d.setV i x).w = d.w := rfl

theorem setV_z (d : Core) (i : Nat) (x : Int) : (d.setV i x).z = d.z := rfl

theorem setV_n (d : Core) (i : Nat) (x : Int) : (d.setV i x).n = d.n := rfl

theorem setV_av (d : Core) (i : Nat) (x : Int) : (d.setV i x).av = d.av := rfl

theorem setV_sat (d : Core) (i : Nat) (x : Int) : (d.setV i x).sat = d.sat := rfl

theorem setV_eov (d : Core) (i : Nat) (x : Int) : (d.setV i x).eov = d.eov := rfl

theorem setV_bx (d : Core) (i : Nat) (x : Int) : (d.setV i x).bx = d.bx := rfl

theorem setV_v (d : Core) (i : Nat) (x : Int) : (d.setV i x).v = vset d.v (i % 8) (BitVec.ofInt 24 x) := rfl

theorem readied_v (c : Core) (g : GInstr) (e : Ecc) : (readied c g e).v = c.v := rfl

theorem readied_p (c : Core) (g : GInstr) (e : Ecc) : (readied c g e).p = c.p := rfl

theorem readied_k (c : Core) (g : GInstr) (e : Ecc) : (readied c g e).k = c.k := rfl

theorem readied_base (c : Core) (g : GInstr) (e : Ecc) : (readied c g e).base = c.base := rfl

theorem readied_ext (c : Core) (g : GInstr) (e : Ecc) : (readied c g e).ext = c.ext := rfl

theorem readied_x (c : Core) (g : GInstr) (e : Ecc) : (readied c g e).x = c.x := rfl

theorem readied_y (c : Core) (g : GInstr) (e : Ecc) : (readied c g e).y = c.y := rfl

theorem readied_w (c : Core) (g : GInstr) (e : Ecc) : (readied c g e).w = c.w := rfl

theorem readied_av (c : Core) (g : GInstr) (e : Ecc) : (readied c g e).av = c.av := rfl

theorem readied_sat (c : Core) (g : GInstr) (e : Ecc) : (readied c g e).sat = c.sat := rfl

theorem readied_eov (c : Core) (g : GInstr) (e : Ecc) : (readied c g e).eov = c.eov := rfl

theorem readied_bx (c : Core) (g : GInstr) (e : Ecc) : (readied c g e).bx = c.bx := rfl

theorem setV_pc (d : Core) (i : Nat) (x : Int) : (d.setV i x).pc = d.pc := rfl

theorem setV_loops (d : Core) (i : Nat) (x : Int) : (d.setV i x).loops = d.loops := rfl

theorem setV_state (d : Core) (i : Nat) (x : Int) : (d.setV i x).state = d.state := rfl

theorem setV_calls (d : Core) (i : Nat) (x : Int) : (d.setV i x).calls = d.calls := rfl

theorem setV_stored (d : Core) (i : Nat) (x : Int) : (d.setV i x).stored = d.stored := rfl

theorem setV_prog (d : Core) (i : Nat) (x : Int) : (d.setV i x).prog = d.prog := rfl

theorem readied_loops (c : Core) (g : GInstr) (e : Ecc) : (readied c g e).loops = c.loops := rfl

theorem readied_state (c : Core) (g : GInstr) (e : Ecc) : (readied c g e).state = c.state := rfl

theorem readied_calls (c : Core) (g : GInstr) (e : Ecc) : (readied c g e).calls = c.calls := rfl

theorem readied_prog (c : Core) (g : GInstr) (e : Ecc) : (readied c g e).prog = c.prog := rfl

theorem roundAcc_eq (c : Core) (a sh : Nat) (x : Int × Bool) (h : x = clampAbs (roundHE (c.wr a) (2 ^ sh)) 8388607) :
    roundAcc c a sh = ({ c with sat := c.sat || x.2, emSat := c.emSat || x.2,
                                bx := BitVec.ofNat 5 (min c.bx.toNat (redundant 24 x.1)) }, x.1) := by
  subst h; simp only [roundAcc]

theorem put_load {c : Core} (b : Bool) (a : Nat) (x : Int) (hx : wordWfFrom 0 c.x = true) (hy : wordWfFrom 0 c.y = true) :
    (c.put b a x).load b a = (BitVec.ofInt 24 x).toNat ∧
    (∀ b' a', (b' ≠ b ∨ a' ≠ a) → (c.put b a x).load b' a' = c.load b' a') ∧
    (c.put b a x).v = c.v ∧ (c.put b a x).w = c.w ∧ (c.put b a x).sat = c.sat ∧
    (c.put b a x).p = c.p ∧ (c.put b a x).k = c.k ∧ (c.put b a x).ext = c.ext ∧ (c.put b a x).base = c.base ∧
    (c.put b a x).pc = c.pc ∧ (c.put b a x).loops = c.loops ∧ (c.put b a x).state = c.state ∧ (c.put b a x).calls = c.calls := by
  unfold Core.put Core.load
  cases b
  · refine ⟨wordGet_wordPut_self _ _ hx, ?_, rfl, rfl, rfl, rfl, rfl, rfl, rfl, rfl, rfl, rfl, rfl⟩
    intro b' a' h
    cases b'
    · exact wordGet_wordPut_ne _ _ (by simpa using h)
    · rfl
  · refine ⟨wordGet_wordPut_self _ _ hy, ?_, rfl, rfl, rfl, rfl, rfl, rfl, rfl, rfl, rfl, rfl, rfl⟩
    intro b' a' h
    cases b'
    · rfl
    · exact wordGet_wordPut_ne _ _ (by simpa using h)

theorem store_done {c c' : Core} (cyc k : Nat) (u : Upd) (b : Bool) (a : Nat) (x : Int) (hx : wordWfFrom 0 c'.x = true)
    (hy : wordWfFrom 0 c'.y = true) (h1 : c'.x = c.x) (h2 : c'.y = c.y) (h3 : c'.p = c.p) (h4 : c'.k = c.k)
    (h5 : c'.ext = c.ext) (h6 : c'.base = c.base) (h7 : c'.pc = c.pc) (h8 : c'.loops = c.loops) (h9 : c'.state = c.state)
    (h10 : c'.calls = c.calls) {d : Core} (hd : d = spend (advance (update (c'.put b a x) k u)) cyc 0) :
    movedOn c d ∧ d.load b a = (BitVec.ofInt 24 x).toNat ∧
    (∀ b' a', (b' ≠ b ∨ a' ≠ a) → d.load b' a' = c.load b' a') ∧ d.p = (update c k u).p ∧ d.v = c'.v ∧ d.w = c'.w ∧
    d.sat = c'.sat := by
  obtain ⟨p1, p2, p3, p4, p5, p6, p7, p8, p9, p10, p11, p12, p13⟩ := put_load (c := c') b a x hx hy
  have hp := update_p c (c'.put b a x) k u (p6.trans h3) (p7.trans h4) (p8.trans h5) (p9.trans h6)
  obtain ⟨q, hq⟩ := update_eq (c'.put b a x) k u
  rw [hq] at hd hp
  have hl : ∀ b' a', d.load b' a' = (c'.put b a x).load b' a' := by intro b' a'; rw [hd]; rfl
  have hc : ∀ b' a', c'.load b' a' = c.load b' a' := by intro b' a'; simp only [Core.load, h1, h2]
  refine ⟨?_, by rw [hl, p1], fun b' a' h => by rw [hl, p2 b' a' h, hc], by rw [hd, ← hp]; rfl, by rw [hd, ← p3]; rfl,
    by rw [hd, ← p4]; rfl, by rw [hd, ← p5]; rfl⟩
  rw [hd]
  simp only [movedOn, spend, advance, p10, p11, h7, h8, p12, h9, p13, h10, and_self]

theorem readied_feed (c : Core) (g : GInstr) (e : Ecc) : (readied c g e).evt = c.evt ∧ (readied c g e).inWr = c.inWr ∧
    (readied c g e).inRd = c.inRd ∧ (readied c g e).attach = c.attach ∧ (readied c g e).waiting = c.waiting := ⟨rfl, rfl, rfl, rfl, rfl⟩

theorem runGloss_c {s : State} {i : Fin 32} {g : GInstr} {e : Ecc} (h : runs s i.val g e = true) (f : Core → Core)
    (hd : ∀ x : State, x.core i.val = readied (s.core i.val) g e → coreDo x i.val g = x.setCore i.val (f (readied (s.core i.val) g e)))
    {P : State → Prop} (hP : ∀ t, t.core i.val = f (readied (s.core i.val) g e) → coreOnly s t i.val e → P t) :
    ∃ t, runGloss i.val g e s = .next t ∧ P t :=
  runGloss_sets h (hd _ (issue_core ..)) hP

theorem runGloss_branch {s : State} {i : Fin 32} {e : Ecc} {op : BOp} {g : BitVec 14} (h : runs s i.val (.branch op g) e = true)
    (h1 : op ≠ .call) (h2 : op ≠ .ret) : ∃ t, runGloss i.val (.branch op g) e s = .next t ∧ coreOnly s t i.val e ∧
      (t.core i.val).calls = (s.core i.val).calls ∧
      (if taken (s.core i.val) op then (t.core i.val).pc = g ∧ (t.core i.val).loops = popLoops g.toNat (s.core i.val).loops
       else (t.core i.val).pc = (s.core i.val).pc + 1 ∧ (t.core i.val).loops = (s.core i.val).loops) := by
  have ht : taken (readied (s.core i.val) (.branch op g) e) op = taken (s.core i.val) op := by cases op <;> rfl
  refine runGloss_c h (fun r => if taken r op then spend (jump r g.toNat) 3 0 else spend (skip r 1) 1 0) ?_ ?_
  · intro x hx
    rw [← hx]
    cases op <;> first | rfl | exact absurd rfl h1 | exact absurd rfl h2
  · intro t hc ho
    rw [ht] at hc
    refine ⟨ho, ?_, ?_⟩
    · rw [hc]; split
      · simp only [spend, jump, readied_calls]
      · simp only [spend, skip, readied_calls]
    · by_cases hk : taken (s.core i.val) op = true
      · rw [if_pos hk] at hc ⊢
        rw [hc]
        simp only [spend, jump, readied_loops, BitVec.ofNat_toNat, BitVec.setWidth_eq, and_self]
      · rw [if_neg hk] at hc ⊢
        rw [hc]
        simp only [spend, skip, readied_loops, readied_pc, and_true]
        rfl

theorem takeWords_eq (b : Bool) (k : Nat) (u : Upd) (n : Nat) (c : Core) :
    (∃ p, (takeWords b k u n c).2 = { c with p := p }) ∧ (takeWords b k u n c).1.length = n := by
  induction n generalizing c with
  | zero => exact ⟨⟨c.p, rfl⟩, rfl⟩
  | succ n ih =>
    have hu : ∃ p, update c k u = { c with p := p } := by cases u <;> exact ⟨_, rfl⟩
    obtain ⟨q, hq⟩ := hu
    obtain ⟨⟨p, hp⟩, hl⟩ := ih (update c k u)
    refine ⟨⟨p, ?_⟩, ?_⟩
    · simp only [takeWords]; rw [hp, hq]
    · simp only [takeWords, List.length_cons, hl]

theorem leInt_length (n : Nat) (x : Int) : (leInt n x).length = n := by simp [leInt]

theorem packWord_length (m : Nat) (hm : m < 5) (w : Nat) : (packWord m w).1.length = packWidth m := by
  match m, hm with
  | 0, _ | 1, _ | 2, _ | 3, _ | 4, _ => simp [packWord, packWidth, leInt_length]

theorem packed_length (m : Nat) (hm : m < 5) (ws : List Nat) : ((ws.map (packWord m)).flatMap Prod.fst).length = packWidth m * ws.length := by
  induction ws with
  | nil => simp
  | cons w ws ih =>
    simp only [List.map_cons, List.flatMap_cons, List.length_append, packWord_length m hm, ih, List.length_cons, Nat.mul_add]
    omega

theorem noteCorrected_hbm (s : State) (i : Nat) (e : Ecc) : (noteCorrected s i e).hbm = s.hbm := by
  unfold noteCorrected
  split
  · exact ((SameData.refl _).raise ..).hbm
  · rfl

theorem readied_all (c : Core) (g : GInstr) (e : Ecc) : (readied c g e).pc = c.pc ∧ (readied c g e).opened = c.opened ∧
    (readied c g e).attach = c.attach ∧ (readied c g e).slots = c.slots ∧ (∀ k, (readied c g e).vr k = c.vr k) :=
  ⟨rfl, rfl, rfl, rfl, fun _ => rfl⟩

theorem appendPiece_done {x : State} {i : Fin 32} {a : Attach} {o : DerivOpen} (bs : List Byte) (lim : Bool)
    (ho : (x.core i.val).opened = some o) :
    (((appendPiece x i.val a bs lim).core i.val).opened = some { o with len := o.len + min (slotRoom a - o.len) bs.length }) ∧
    ((appendPiece x i.val a bs lim).core i.val).pc = (x.core i.val).pc ∧
    ∀ b, (b < slotAddr a o.slot + 64 + o.len ∨ slotAddr a o.slot + 64 + o.len + min (slotRoom a - o.len) bs.length ≤ b) →
      memGet b (appendPiece x i.val a bs lim).hbm.mem = memGet b x.hbm.mem := by
  unfold appendPiece
  rw [ho]
  dsimp only
  have hg : ∀ (s : State) a l, (s.store a l).core i.val = s.core i.val := fun s a l => State.core_congr (s.store_gloss a l) i.val
  unfold onCore
  rw [State.setCore_core_self _ _ _ i.isLt]
  refine ⟨by simp, by rw [hg], fun b hb => ?_⟩
  rw [State.setCore_hbm]
  refine x.store_out_of_range ?_
  simpa using hb

theorem coreTrap_done (x : State) (i : Fin 32) (ha : (x.core i.val).attach = none) (cause : Nat) :
    ∃ k, k = (coreTrap x i.val cause).core i.val ∧ k.state = .faulted ∧ k.opened = none ∧
      k.lastTrap = { pc := (x.core i.val).pc.toNat, cause := cause } ∧ k.v = (x.core i.val).v ∧ k.w = (x.core i.val).w ∧
      k.x = (x.core i.val).x ∧ k.y = (x.core i.val).y := by
  have key : ∀ c : Core, (abandon c).opened = none ∧ (abandon c).v = c.v ∧ (abandon c).w = c.w ∧ (abandon c).x = c.x ∧
      (abandon c).y = c.y := by
    intro c; unfold abandon; split
    · exact ⟨rfl, rfl, rfl, rfl, rfl⟩
    · exact ⟨‹_›, rfl, rfl, rfl, rfl⟩
  refine ⟨_, rfl, ?_⟩
  unfold coreTrap
  rw [ha]
  dsimp only
  rw [raise_core]
  unfold onCore
  rw [State.setCore_core_self _ _ _ i.isLt]
  exact ⟨rfl, (key _).1, rfl, (key _).2.1, (key _).2.2.1, (key _).2.2.2.1, (key _).2.2.2.2⟩

theorem runGloss_trap {s : State} {i : Fin 32} {g : GInstr} {e : Ecc} {c : Nat} (ha : (s.core i.val).attach = none)
    (h : runs s i.val g e = true)
    (hd : coreDo (coreIssue (noteCorrected s i.val e) i.val g) i.val g = coreTrap (coreIssue (noteCorrected s i.val e) i.val g) i.val c) :
    ∃ t, runGloss i.val g e s = .next t ∧ (t.core i.val).state = .faulted ∧ (t.core i.val).opened = none ∧
      (t.core i.val).lastTrap = { pc := (s.core i.val).pc.toNat, cause := c } ∧ (t.core i.val).v = (s.core i.val).v ∧ (t.core i.val).w = (s.core i.val).w ∧
      (t.core i.val).x = (s.core i.val).x ∧ (t.core i.val).y = (s.core i.val).y := by
  refine ⟨_, runGloss_runs h, ?_⟩
  rw [hd]
  obtain ⟨k, rfl, hk⟩ := coreTrap_done (coreIssue (noteCorrected s i.val e) i.val g) i (by rw [issue_core]; exact ha) c
  rw [issue_core] at hk
  exact hk

end Sys2Proof.Machine
end

