-- ==== Sys2Proof/Laws/Services.lean ====
section
/-! SUPPORT. What the operations of the Clauses leave as they were: groups, maps, beams, chains, cores, time, clock, worlds, the
pair and the boot state. -/

namespace Sys2Proof.Machine

open Sys2Proof.Safety

theorem findGroup_untake (s : State) (src : Src) (d n : Nat) : findGroup (untake s src) d n = findGroup s d n := by
  simp [findGroup, (untake_same s src).osl]

theorem namedGroup_ok {s : State} {first dir : Nat} {g : LaneGroup} (h : namedGroup s first dir = .ok g) :
    findGroup s dir first = some g := by
  simp only [namedGroup, except_bind_ok, refuseIf_ok, exists_unit, orRefuse_ok] at h
  exact h.2.2

theorem rxDefine_groups (s : State) (l : Nat) : (rxDefine s l).osl.rxGroups = s.osl.rxGroups := rfl

theorem dropTrim_groups (s : State) (l : Nat) : (dropTrim s l).osl.rxGroups = s.osl.rxGroups ∧
    (dropTrim s l).osl.txGroups = s.osl.txGroups := by
  unfold dropTrim
  dsimp only
  split <;> exact ⟨rfl, rfl⟩

theorem laneOff_groups (s : State) (d l : Nat) : (laneOff s d l).osl.rxGroups = s.osl.rxGroups ∧
    (laneOff s d l).osl.txGroups = s.osl.txGroups := by
  unfold laneOff
  refine ite_ind (P := fun t : State => t.osl.rxGroups = s.osl.rxGroups ∧ t.osl.txGroups = s.osl.txGroups) ?_
    (ite_ind (P := fun t : State => t.osl.rxGroups = s.osl.rxGroups ∧ t.osl.txGroups = s.osl.txGroups) ⟨rfl, rfl⟩ ⟨rfl, rfl⟩)
  exact dropTrim_groups s l

theorem transition_waits {s u : State} {f : Fn} {first dir k : Nat} {bad : Bool} {r : Reply}
    (h : laneTransition s f first dir k bad = .ok (u, r)) : r.wait.isSome = true := by
  simp only [laneTransition, except_bind_ok, refuseIf_ok, exists_unit, waits_ok] at h
  obtain ⟨g, -, -, -, -, -, -, rfl⟩ := h
  rfl

theorem answered_waits {src : Src} {op : Nat} {u : State} {r : Reply} (h : r.wait.isSome = true) :
    ((answered src op u r).qp src.fn src.qp.val).waiting.isSome = true := by
  obtain ⟨a, ha⟩ := Option.isSome_iff_exists.mp h
  rw [answered_waiting ha]; rfl

theorem releaseWhile_idle (cond : State → Bool) (n : Nat) (s : State) (h : s.intake.started = false) :
    releaseWhile cond n s = s := by
  cases n <;> simp [releaseWhile, h]

theorem untake_started {s : State} (src : Src) (h : s.intake.started = false) : (untake s src).intake.started = false := by
  rw [(untake_same s src).intake]; exact h

theorem loadGains_mem (s : State) (n b : Nat) (g : List ((Nat × Nat) × U16)) :
    { stream := n, boundary := b, gains := g, trim := false, atFront := longestDwell s (g.map Prod.fst) == 0 } ∈
      (loadGains s n b g false).intake.gainLoads := by
  simp [loadGains]

theorem groupBoundaries_untake (s : State) (src : Src) (c : Corr) :
    groupBoundaries (untake s src) c = groupBoundaries s c := by
  obtain ⟨e, he, -⟩ := untake_err s src
  rw [he]; rfl

theorem answered_products (src : Src) (op : Nat) (u : State) (r : Reply) : (answered src op u r).products = u.products :=
  (answered_same src op u r).products

theorem place_frieze {s : State} {w : World} {k : AllocKind} {b : Nat} {r : State × Nat} (h : place s w k b = .ok r) :
    r.1.frieze = s.frieze ∧ r.1.products = s.products ∧ r.1.chisel = s.chisel := by
  unfold place at h
  dsimp only at h
  split at h
  · cases h; exact ⟨rfl, rfl, rfl⟩
  · cases h

theorem roundUp_mod (a b : Nat) : roundUp a b % b = 0 := by
  simp [roundUp, Nat.mul_mod_left]

theorem start_mod (a k : Nat) : roundUp a (max (2 ^ k) 256) % 2 ^ k = 0 := by
  apply Nat.mod_eq_zero_of_dvd
  have h : max (2 ^ k) 256 ∣ roundUp a (max (2 ^ k) 256) := Nat.dvd_of_mod_eq_zero (roundUp_mod ..)
  refine Nat.dvd_trans ?_ h
  by_cases hk : k ≤ 8
  · have h2 : 2 ^ k ∣ 256 := (Nat.pow_dvd_pow 2 hk : 2 ^ k ∣ 2 ^ 8)
    exact Nat.dvd_trans h2 ⟨1, (Nat.max_eq_right (Nat.le_of_dvd (by decide) h2)).trans (Nat.mul_one _).symm⟩
  · have h2 : 256 ≤ 2 ^ k := (Nat.pow_le_pow_right (by decide) (by omega : 8 ≤ k) : 2 ^ 8 ≤ 2 ^ k)
    exact ⟨1, (Nat.max_eq_left h2).trans (Nat.mul_one _).symm⟩

theorem putEntries_prods (s : State) (b : Bool) (es : List (Nat × Nat)) :
    (putEntries s b es).frieze.prods = s.frieze.prods ∧ (putEntries s b es).frieze.bankB = s.frieze.bankB := by
  unfold putEntries
  dsimp only
  split <;> exact ⟨rfl, rfl⟩

theorem copyArea_frieze (s : State) (a l : Nat) : (copyArea s a l).frieze = s.frieze := by
  unfold copyArea; split <;> rfl

theorem chain_untake (s : State) (src : Src) (j : Nat) : (untake s src).chain j = s.chain j := State.chain_congr (untake_same s src).chisel j

theorem untake_core (s : State) (src : Src) (i : Nat) : (untake s src).core i = s.core i :=
  State.core_congr (untake_same s src).gloss i

theorem namedCore_eq {s : State} {src : Src} {i : Nat} {c : Core} (h : namedCore (untake s src) src.fn i = .ok c) :
    i < 32 ∧ s.core i = c := by
  rw [← untake_core s src]; exact namedCore_ok h

theorem findCore_eq {s : State} {src : Src} {i : Nat} {c : Core} (h : findCore (untake s src) i = .ok c) :
    i < 32 ∧ s.core i = c := by
  rw [← untake_core s src]; exact findCore_ok h

theorem resumeDerived_keeps {s u : State} {f : Fn} {c : Core} (h : resumeDerived s f c = .ok u) :
    u.gloss = s.gloss ∧ u.pair = s.pair := by
  unfold resumeDerived at h
  split at h
  · split at h
    · simp only [except_bind_ok, exists_unit, pure, Except.pure, Except.ok.injEq] at h
      obtain ⟨-, rfl⟩ := h
      exact ⟨rfl, rfl⟩
    · cases h; exact ⟨rfl, rfl⟩
  · cases h; exact ⟨rfl, rfl⟩

theorem abandon_keeps (c : Core) : (abandon c).pc = c.pc ∧ (abandon c).image = c.image ∧ (abandon c).attach = c.attach := by
  unfold abandon; split <;> exact ⟨rfl, rfl, rfl⟩

theorem payTakeover_fold {s : State} (h : s.pair.owedTakeovers = []) (row : Nat) (l : List Nat) :
    l.foldl (fun t p => payTakeover t row p) s = s := by
  induction l with
  | nil => rfl
  | cons a l ih => rw [List.foldl_cons, payTakeover_none h, ih]

theorem noteFollowed_clock (s : State) : (noteFollowed s).clock.refs = s.clock.refs ∧
    (noteFollowed s).clock.manual = s.clock.manual ∧ (noteFollowed s).clock.manualRef = s.clock.manualRef := by
  unfold noteFollowed
  split <;> exact ⟨rfl, rfl, rfl⟩

theorem setInc_clock (s : State) : (setInc s).clock = s.clock := by
  unfold setInc; split <;> rfl

theorem follow_clock (s : State) (r : Nat) : (follow s r).clock.refs = s.clock.refs ∧
    (follow s r).clock.manual = s.clock.manual ∧ (follow s r).clock.manualRef = s.clock.manualRef := by
  exact noteFollowed_clock s

theorem reselect_clock (s : State) : (reselect s).clock.refs = s.clock.refs ∧
    (reselect s).clock.manual = s.clock.manual ∧ (reselect s).clock.manualRef = s.clock.manualRef := by
  unfold reselect
  split
  · split
    · exact ⟨rfl, rfl, rfl⟩
    · unfold selectRef
      simp only [setInc_clock]
      obtain ⟨a, b, c⟩ := noteFollowed_clock s
      refine ⟨(follow_clock ..).1.trans a, (follow_clock ..).2.1.trans b, (follow_clock ..).2.2.trans c⟩
  · split
    · unfold enterHoldover raiseDev
      dsimp only
      rw [((((SameData.refl _).logRecord _)).raiseAttn _).clock, setInc_clock]
      exact noteFollowed_clock s
    · exact ⟨rfl, rfl, rfl⟩

theorem pinStepped_plinth (s : State) (p : Nat) : (pinStepped s p).plinth = s.plinth := by
  have hd : ∀ (t : State) a b, (drivePulse t a b).plinth = t.plinth := by
    intro t a b
    unfold drivePulse
    dsimp only
    split <;> rfl
  unfold pinStepped
  dsimp only
  split
  · rw [foldl_keeps State.plinth _ (fun t x => hd ..)]
  · split
    · exact hd ..
    · rfl
  · rfl

theorem setServo_free {s : State} {v : Servo} (h : s.net.servo ≠ .locked) (hv : v ≠ .locked) :
    (setServo s v).net.threshold = s.net.threshold ∧ (setServo s v).net.code = s.net.code ∧
    (setServo s v).net.ptpOn = s.net.ptpOn ∧ (setServo s v).net.servo = v := by
  unfold setServo
  simp only [h, hv, if_false]
  refine ⟨?_, ?_, ?_, trivial⟩ <;> unfold noteLocked <;> split <;> rfl

theorem bestMaster_nil {s : State} (h : s.net.foreign = []) : bestMaster s = none := by simp [bestMaster, h]

theorem selectMaster_none {s : State} (h : s.net.foreign = []) (hm : s.net.master = none) : selectMaster s = s := by
  unfold selectMaster
  rw [bestMaster_nil h, hm]
  simp only [if_true]
  rw [← hm]

theorem keepPlaces_world (s t : State) : (keepPlaces s t).world = t.world := by
  unfold keepPlaces
  split <;> rfl

theorem resourceWorld_congr {s t : State} (h : t.world = s.world) (k i : Nat) : resourceWorld t k i = resourceWorld s k i := by
  unfold resourceWorld rxWorld txWorld
  rw [h]

theorem clearResource_world (s : State) (k i : Nat) : (clearResource s k i).world = s.world := by
  unfold clearResource
  split <;> first | rfl | (unfold onCore; rfl)

theorem setResource_get {s : State} {k i : Nat} {w : World} (hr : assignRange k i 1 = true) :
    resourceWorld { s with world := setResource s.world k i w } k i = w := by
  unfold resourceWorld setResource rxWorld txWorld
  unfold assignRange at hr
  simp at hr
  split at hr <;> simp_all
  all_goals first
    | (split <;> rw [vget_vset_self] <;> omega)
    | (rw [vget_vset_self]; omega)

theorem setResource_ne {s : State} {k i j : Nat} {w : World} (h : i ≠ j) :
    resourceWorld { s with world := setResource s.world k i w } k j = resourceWorld s k j := by
  have hv : ∀ {n : Nat} (v : Vector World n) (i j : Nat), i ≠ j → vget (vset v i w) j .secure = vget v j .secure :=
    fun v i j h => vget_vset_ne _ _ _ _ _ h
  match k with
  | 0 | 2 | 3 | 4 | 5 | 6 => exact hv _ _ _ h
  | 1 =>
    simp only [resourceWorld, setResource, rxWorld, txWorld]
    by_cases hi : i < 0x100 <;> by_cases hj : j < 0x100 <;> simp only [hi, hj, if_true, if_false]
    · exact hv _ _ _ h
    · exact hv _ _ _ (by omega)
  | n + 7 => exact hv _ _ _ h

theorem moveResource_get {s : State} {k i : Nat} {w : World} (hr : assignRange k i 1 = true) :
    resourceWorld (moveResource s k i w) k i = w := by
  unfold moveResource
  split
  · assumption
  · exact setResource_get hr

theorem moveResource_ne {s : State} {k i j : Nat} {w : World} (h : i ≠ j) :
    resourceWorld (moveResource s k i w) k j = resourceWorld s k j := by
  unfold moveResource
  split
  · rfl
  · exact (setResource_ne h).trans (resourceWorld_congr (clearResource_world ..) _ _)

theorem assignRange_one {k first count i : Nat} (h : assignRange k first count = true) (h1 : first ≤ i) (h2 : i < first + count) :
    assignRange k i 1 = true := by
  unfold assignRange at *
  split at h <;> simp_all <;> omega

theorem gridTest_now (s : State) (a : List Nat) (b : List Nat) (c : List Nat) :
    (a.foldl startChainLevel (b.foldl startLevel (c.foldl (fun t l => startTrim t l false) s))).now = s.now := by
  have h : ∀ x y : State, x.plinth = y.plinth → x.now = y.now := by
    intro x y h; simp [State.now, h]
  apply h
  rw [foldl_keeps State.plinth startChainLevel (fun t x => ?_), foldl_keeps State.plinth startLevel (fun t x => rfl),
    foldl_keeps State.plinth (fun t l => startTrim t l false) (fun t x => rfl)]
  unfold startChainLevel
  dsimp only
  split <;> rfl

theorem answered_keeps {β : Type} (proj : Pair → Boot → β)
    (h1 : ∀ p b n, proj { p with commitCount := n } b = proj p b)
    (h2 : ∀ p b n o x, proj { p with nextMsg := n, out := o, txBytes := x } b = proj p b)
    (h3 : ∀ p b x, proj { p with heldCompletions := x } b = proj p b)
    (h4 : ∀ p b x, proj p { b with maqFormat := x } = proj p b)
    (src : Src) (op : Nat) (u : State) (r : Reply) :
    proj (answered src op u r).pair (answered src op u r).boot = proj u.pair u.boot := by
  have sv : ∀ (t : State) f v, (sendVector t f v).pair = t.pair ∧ (sendVector t f v).boot = t.boot := by
    intro t f v; unfold sendVector; dsimp only; split <;> simp
  have we : ∀ (t : State) f i, (writeEntry t f i).pair = t.pair ∧ (writeEntry t f i).boot = t.boot := by
    intro t f i
    unfold writeEntry
    dsimp only
    repeat' split
    all_goals simp [sv]
  have fq : ∀ (t : State) f i, (flushQueue t f i).pair = t.pair ∧ (flushQueue t f i).boot = t.boot := by
    intro t f i
    have k1 := foldl_keeps State.pair (fun t (_ : Nat) => writeEntry t f i) (fun t _ => (we t f i).1)
      (List.range (t.qp f i).owed.length) t
    have k2 := foldl_keeps State.boot (fun t (_ : Nat) => writeEntry t f i) (fun t _ => (we t f i).2)
      (List.range (t.qp f i).owed.length) t
    unfold flushQueue
    dsimp only
    split
    · exact ⟨k1, k2⟩
    · exact ⟨(by simpa using k1), (by simpa using k2)⟩
  have ow : ∀ (t : State) f i x, (owe t f i x).pair = t.pair ∧ (owe t f i x).boot = t.boot := by
    intro t f i x
    unfold owe
    dsimp only
    split
    · exact ⟨rfl, rfl⟩
    · exact ⟨(fq ..).1.trans (by simp), (fq ..).2.trans (by simp)⟩
  have cm : proj (commitClause u src op).1.pair (commitClause u src op).1.boot = proj u.pair u.boot := by
    have cc : ∀ t : State, proj (countCommit t).pair (countCommit t).boot = proj t.pair t.boot := by
      intro t
      unfold countCommit convertFormat
      split
      · split
        · exact (h4 ..).trans (h1 ..)
        · exact h1 ..
      · exact h1 ..
    have mc : ∀ t : State, proj (mirrorCommit t).1.pair (mirrorCommit t).1.boot = proj t.pair t.boot := by
      intro t
      unfold mirrorCommit
      split
      · exact h2 ..
      · rfl
    unfold commitClause
    split
    · rfl
    · exact (mc _).trans (cc _)
  unfold answered
  dsimp only
  split
  · unfold enterWait
    simpa using cm
  · unfold complete
    dsimp only
    split
    · exact (h3 ..).trans cm
    · exact (h3 ..).trans cm
    · rw [(ow ..).1, (ow ..).2]; exact cm

theorem answered_role (src : Src) (op : Nat) (u : State) (r : Reply) : (answered src op u r).pair.role = u.pair.role :=
  answered_keeps (fun p _ => p.role) (fun _ _ _ => rfl) (fun _ _ _ _ _ => rfl) (fun _ _ _ => rfl) (fun _ _ _ => rfl) ..

theorem answered_partner (src : Src) (op : Nat) (u : State) (r : Reply) :
    (answered src op u r).pair.partner = u.pair.partner :=
  answered_keeps (fun p _ => p.partner) (fun _ _ _ => rfl) (fun _ _ _ _ _ => rfl) (fun _ _ _ => rfl) (fun _ _ _ => rfl) ..

theorem answered_swap (src : Src) (op : Nat) (u : State) (r : Reply) : (answered src op u r).pair.swap = u.pair.swap :=
  answered_keeps (fun p _ => p.swap) (fun _ _ _ => rfl) (fun _ _ _ _ _ => rfl) (fun _ _ _ => rfl) (fun _ _ _ => rfl) ..

theorem answered_activation (src : Src) (op : Nat) (u : State) (r : Reply) :
    (answered src op u r).boot.activation = u.boot.activation :=
  answered_keeps (fun _ b => b.activation) (fun _ _ _ => rfl) (fun _ _ _ _ _ => rfl) (fun _ _ _ => rfl) (fun _ _ _ => rfl) ..

theorem mirrorLaneUp_pair (s : State) (l : Nat) : (mirrorLaneUp s l).pair = s.pair := by
  have h1 : ∀ (t : State) l, (rxDefine t l).pair = t.pair := fun t l => rfl
  have h2 : ∀ (t : State) l, (txStart t l).pair = t.pair := fun t l => rfl
  unfold mirrorLaneUp
  dsimp only
  repeat' split
  all_goals first | rfl | simp [h1, h2]

theorem now_congr {s t : State} (h : t.plinth = s.plinth) : t.now = s.now := by simp [State.now, h]

end Sys2Proof.Machine
end

