-- ==== Sys2Proof/Laws/Units.lean ====
section
/-! SUPPORT. The shared operations of the events: queue pairs, refresh debt, marked stores, lanes, the grid, delivery rings, pins,
ports and mirror messages. -/

namespace Sys2Proof.Machine

open Sys2Proof.Safety

theorem denied_raise {s : State} {off : Nat} : denyAccess s .f1 off = raise s 1 .c .nonsecure (regRes .f1 off) 0 := rfl

theorem tabGet_tabSet {α : Type} (k : Nat) (v : α) (t : List (Nat × α)) : tabGet k (tabSet k v t) = some v := by
  induction t with
  | nil => simp [tabSet, tabGet]
  | cons p t ih =>
    obtain ⟨j, w⟩ := p
    simp only [tabSet]
    split
    · simp [tabGet]
    · split
      · simp [tabGet]
      · rename_i h; simp only [tabGet]; rw [if_neg (fun e => h e.symm)]; exact ih

theorem readEffect_keeps (s : State) (f : Fn) (off d : Nat) : (readEffect s f off d).latches = s.latches ∧ (readEffect s f off d).out = s.out := by
  have hp : ∀ k, (tinPop s f k).1.latches = s.latches ∧ (tinPop s f k).1.out = s.out := by
    intro k; unfold tinPop; dsimp only; split <;> cases f <;> exact ⟨rfl, rfl⟩
  constructor
  · cases f <;> simp only [readEffect, apply_ite State.latches, State.setStack, State.setTport, State.setRelief, nowFrac, (hp _).1, State.free, ite_self]
  · cases f <;> simp only [readEffect, apply_ite State.out, State.setStack, State.setTport, State.setRelief, nowFrac, (hp _).2, State.free, ite_self]

theorem writeEntry_waiting (s : State) (f : Fn) (i : Fin 8) (k : Fin 8) : ((writeEntry s f i.val).qp f k.val).waiting = (s.qp f k.val).waiting := by
  have h : ∀ (s : State) (q : Qp), q.waiting = (s.qp f i.val).waiting → ((s.setQp f i.val q).qp f k.val).waiting = (s.qp f k.val).waiting := by
    intro s q hq
    by_cases e : k = i
    · subst e; rw [State.setQp_qp_self _ _ _ _ k.isLt, hq]
    · have : (s.setQp f i.val q).qp f k.val = s.qp f k.val := by
        have : i.val ≠ k.val := fun h => e (Fin.ext h.symm)
        cases f <;> simp [State.setQp, State.setFn, State.qp, State.fn, vget, vset, this]
      rw [this]
  unfold writeEntry
  dsimp only
  have he : ∀ e, (s.emit e).qp f k.val = s.qp f k.val := by intro e; cases f <;> rfl
  have he' : ∀ e, (s.emit e).qp f i.val = s.qp f i.val := by intro e; cases f <;> rfl
  repeat' split
  all_goals first | rfl | (rw [sendVector_qp, h _ _ (by rw [he']), he]) | (rw [h _ _ (by rw [he']), he])

theorem flushQueue_waiting (s : State) (f : Fn) (i : Fin 8) : ((flushQueue s f i.val).qp f i.val).waiting = (s.qp f i.val).waiting := by
  have h := foldl_keeps (fun t => (t.qp f i.val).waiting) (fun t (_ : Nat) => writeEntry t f i.val) (fun t _ => writeEntry_waiting t f i i)
    (List.range (s.qp f i.val).owed.length) s
  unfold flushQueue
  dsimp only at h ⊢
  split
  · exact h
  · rw [State.setQp_qp_self _ _ _ _ i.isLt]
    unfold drained
    split <;> exact h

theorem visit_fin {v : Nat} {i : Fin 8} (h : v % 8 = i.val) : Fin.ofNat 8 v = i := Fin.ext h

theorem devRaise_qp (s : State) (c : U16) (cls : Cls) (r d : Nat) (g : Fn) (i : Nat) : (raiseDev s c cls r d).qp g i = s.qp g i := by
  unfold raiseDev logRecord
  dsimp only
  split <;> simp only [logTo_qp]

theorem precharge_keeps (s : State) (k : Nat) : (precharge s k).pcAt = s.pcAt ∧ (precharge s k).hbm.mem = s.hbm.mem ∧
    (precharge s k).err = s.err ∧ (precharge s k).hbm.step = s.hbm.step ∧ (precharge s k).stack = s.stack :=
  ⟨rfl, rfl, rfl, rfl, rfl⟩

theorem forced_keeps (s : State) (n : U32) :
    (({ s with hbm := { s.hbm with forced := n } } : State).pcAt = s.pcAt) ∧
    (({ s with hbm := { s.hbm with forced := n } } : State).stack = s.stack) := ⟨rfl, rfl⟩

theorem setDebt_all (s : State) (stack : Fin 6) (key d : Nat) :
    (setDebt s stack.val key d).hbm.mem = s.hbm.mem ∧ (setDebt s stack.val key d).err = s.err ∧ (setDebt s stack.val key d).hbm.step = s.hbm.step ∧
    ((setDebt s stack.val key d).pcAt key).debt = (payDown (s.stack stack.val) d).2 ∧
    (∀ k, k ≠ key → (setDebt s stack.val key d).pcAt k = s.pcAt k) ∧
    (∀ j : Fin 6, j ≠ stack → (setDebt s stack.val key d).stack j.val = s.stack j.val) ∧
    ∃ m, (setDebt s stack.val key d).stack stack.val = { s.stack stack.val with debtPeak := m } := by
  unfold setDebt
  dsimp only
  generalize ht : (if (payDown (s.stack stack.val) d).1 = 0 then _ else _ : State) = t
  have f : t.hbm.mem = s.hbm.mem ∧ t.err = s.err ∧ t.hbm.step = s.hbm.step ∧ t.stack = s.stack ∧
      (t.pcAt key).debt = (payDown (s.stack stack.val) d).2 ∧ ∀ k, k ≠ key → t.pcAt k = s.pcAt k := by
    subst ht
    split
    · refine ⟨rfl, rfl, rfl, rfl, ?_, fun k hk => pcAt_setPcAt_ne _ _ hk⟩
      rw [pcAt_setPcAt]
    · refine ⟨rfl, rfl, rfl, rfl, ?_, fun k hk => ?_⟩
      · rw [(precharge_keeps _ _).1, (forced_keeps _ _).1, pcAt_setPcAt]
      · rw [(precharge_keeps _ _).1, (forced_keeps _ _).1, pcAt_setPcAt_ne _ _ hk]
  obtain ⟨h1, h2, h3, h4, h5, h6⟩ := f
  refine ⟨h1, h2, h3, h5, h6, fun j hj => ?_, ?_⟩
  · rw [State.setStack_stack_ne _ _ _ _ (fun h => hj (Fin.ext h.symm)), h4]
  · rw [State.setStack_stack_self _ _ _ stack.isLt, h4]
    exact ⟨_, rfl⟩

theorem payDown_peak (x : Stack) (m d : Nat) : payDown { x with debtPeak := m } d = payDown x d := rfl

theorem debts_all (stack : Fin 6) (add : Nat) (s : State) (n : Nat) :
    ∃ t, t = (List.range n).foldl (fun t k => setDebt t stack.val (pcKey stack.val k) ((t.pcAt (pcKey stack.val k)).debt + add)) s ∧
      t.hbm.mem = s.hbm.mem ∧ t.err = s.err ∧ t.hbm.step = s.hbm.step ∧
      (∀ k, t.pcAt (pcKey stack.val k) = t.pcAt (pcKey stack.val k) ∧ (t.pcAt (pcKey stack.val k)).debt = if k < n then (payDown (s.stack stack.val) ((s.pcAt (pcKey stack.val k)).debt + add)).2 else (s.pcAt (pcKey stack.val k)).debt) ∧
      (∀ j : Fin 6, j ≠ stack → t.stack j.val = s.stack j.val) ∧ ∃ m, t.stack stack.val = { s.stack stack.val with debtPeak := m } := by
  induction n with
  | zero => exact ⟨_, rfl, rfl, rfl, rfl, fun k => ⟨rfl, rfl⟩, fun _ _ => rfl, _, rfl⟩
  | succ n ih =>
    obtain ⟨t, ht, b1, b2, b3, b4, b5, m, b6⟩ := ih
    rw [List.range_succ, List.foldl_append, ← ht]
    simp only [List.foldl_cons, List.foldl_nil]
    obtain ⟨c1, c2, c3, c4, c5, c6, m', c7⟩ := setDebt_all t stack (pcKey stack.val n) ((t.pcAt (pcKey stack.val n)).debt + add)
    refine ⟨_, rfl, c1.trans b1, c2.trans b2, c3.trans b3, fun k => ⟨trivial, ?_⟩, fun j hj => (c6 j hj).trans (b5 j hj), m', by rw [c7, b6]⟩
    by_cases e : k = n
    · subst e
      rw [c4, b6, payDown_peak, (b4 k).2, if_neg (by omega), if_pos (by omega)]
    · rw [c5 _ (by unfold pcKey; omega), (b4 k).2]
      by_cases h : k < n
      · rw [if_pos h, if_pos (by omega)]
      · rw [if_neg h, if_neg (by omega)]

theorem memGet_filter (p : Nat → Bool) (m : List Host.Cell) (a : Nat) :
    memGet a (m.filter fun c => p c.1) = if p a then memGet a m else 0 := by
  induction m with
  | nil => simp [memGet]
  | cons c m ih =>
    obtain ⟨k, v⟩ := c
    simp only [List.filter_cons]
    by_cases hp : p k = true
    · simp only [hp, if_true, memGet, ih]
      by_cases e : k = a
      · subst e; simp [hp]
      · simp [e]
    · simp only [hp]
      by_cases e : k = a
      · subst e; simp [ih, hp]
      · simp [ih, memGet, e]

theorem storeMarked_clean (fuel : Nat) (s : State) (addr : Nat) (bs : List (Byte × Bool)) (hp : s.hbm.poison = [])
    (hb : ∀ b, b ∈ bs → b.2 = false) (hl : addr % 8 + bs.length ≤ 8 * fuel) :
    ∃ t, storeMarked fuel s addr bs = (t, false) ∧ t.hbm.mem = memPutBytes addr (bs.map Prod.fst) s.hbm.mem ∧ t.hbm.poison = [] ∧
      t = { s with hbm := t.hbm } := by
  induction fuel generalizing s addr bs with
  | zero =>
    have : bs = [] := List.eq_nil_of_length_eq_zero (by omega)
    subst this
    exact ⟨s, rfl, rfl, hp, rfl⟩
  | succ fuel ih =>
    unfold storeMarked
    by_cases h0 : bs = []
    · subst h0; exact ⟨s, by simp, rfl, hp, rfl⟩
    · rw [if_neg h0]
      dsimp only
      have h8 : 0 < 8 - addr % 8 := by omega
      have hlen : 0 < bs.length := List.length_pos_iff.mpr h0
      have hany : (bs.take (8 - addr % 8)).any Prod.snd = false := by
        rw [List.any_eq_false]
        intro b hm
        simp [hb b (List.mem_of_mem_take hm)]
      have hpo : ∀ a b, poisoned s a b = false := by intro a b; unfold poisoned; rw [hp]; rfl
      have hsw : storeWord s addr (bs.take (8 - addr % 8)) = (s.store addr ((bs.take (8 - addr % 8)).map Prod.fst), false) := by
        unfold storeWord
        simp [hany, hpo]
      rw [hsw]
      obtain ⟨t, ht, h1, h2, h3⟩ := ih (s.store addr ((bs.take (8 - addr % 8)).map Prod.fst)) (addr + (8 - addr % 8)) (bs.drop (8 - addr % 8))
        (by rw [State.store_clean (hpo _ _)]; unfold putClear clearPoison; simp [hp]) (fun b hm => hb b (List.mem_of_mem_drop hm)) (by rw [List.length_drop]; omega)
      dsimp only
      rw [ht]
      refine ⟨t, rfl, ?_, h2, ?_⟩
      · rw [h1, State.store_mem (hpo _ _)]
        have happ : ∀ (xs ys : List Byte) (a : Nat) m, memPutBytes (a + xs.length) ys (memPutBytes a xs m) = memPutBytes a (xs ++ ys) m := by
          intro xs
          induction xs with
          | nil => intro ys a m; simp [memPutBytes]
          | cons x xs ihx => intro ys a m; simp only [List.length_cons, List.cons_append, memPutBytes]; rw [← ihx, Nat.add_assoc, Nat.add_comm 1]
        conv => rhs; rw [← List.take_append_drop (8 - addr % 8) bs, List.map_append, ← happ]
        by_cases hle : 8 - addr % 8 ≤ bs.length
        · congr 2; simp [Nat.min_eq_left hle]
        · have : bs.drop (8 - addr % 8) = [] := List.drop_eq_nil_of_le (by omega)
          rw [this]; rfl
      · rw [h3, State.store_clean (hpo _ _)]; rfl

theorem writeWords_clean (s : State) (addr : Nat) (bs : List Byte) (hp : s.hbm.poison = []) :
    ∃ t, writeWords s addr (bs.map fun b => (b, false)) [] = (t, false) ∧ t.hbm.mem = memPutBytes addr bs s.hbm.mem ∧
      t.hbm.poison = [] ∧ t = { s with hbm := t.hbm } := by
  have hm : ∀ (l : List Nat) (u : State), l.foldl (fun t w => readErrors t w (w + 8) []) u = u := by
    intro l u
    induction l with
    | nil => rfl
    | cons w l ih => exact ih
  obtain ⟨t, ht, e1, e2, e3⟩ := storeMarked_clean (bs.length + 1) (touchHbm s addr bs.length) addr
    (bs.map fun b => (b, false)) hp (by intro b hb; obtain ⟨x, -, rfl⟩ := List.mem_map.mp hb; rfl) (by simp; omega)
  refine ⟨t, ?_, ?_, e2, ?_⟩
  · unfold writeWords mergeErrors
    simp only [List.filter_nil, hm, List.length_map, ht]
    rfl
  · rw [e1]; simp [Function.comp_def]; rfl
  · rw [e3]; rfl

theorem readWords_clean (s : State) (lo hi : Nat) (hp : s.hbm.poison = []) :
    ∃ t, readWords s lo hi [] = t ∧ t.hbm.mem = s.hbm.mem ∧ t.hbm.poison = [] ∧ t = { s with hbm := t.hbm } :=
  ⟨_, rfl, rfl, hp, rfl⟩

theorem marked_clean (s : State) (addr n : Nat) (hp : s.hbm.poison = []) :
    (marked s addr n).map Prod.fst = s.load addr n ∧ (marked s addr n).any Prod.snd = false := by
  have hlen : (s.load addr n).length = n := by simp [State.load, memGetBytes]
  unfold marked poisoned
  rw [hp]
  refine ⟨by simp [List.map_fst_zip, hlen], ?_⟩
  rw [List.any_eq_false]
  rintro ⟨a, b⟩ hm
  have := (List.of_mem_zip hm).2
  simp at this
  simp [this]

theorem bitOf_testBit (v i : Nat) : bitOf v i = v.testBit i := by
  rw [Nat.testBit_eq_decide_div_mod_eq]; rfl

theorem bitOf_or (v w i : Nat) : bitOf (v ||| w) i = (bitOf v i || bitOf w i) := by
  simp only [bitOf_testBit, Nat.testBit_or]

theorem setChannel_setChannel (s : State) (i : Nat) (c d : Channel) : (s.setChannel i c).setChannel i d = s.setChannel i d := by
  simp [State.setChannel, vset]

theorem powerDowns_idle (s : State) (h1 : s.power.changing = []) (h2 : s.power.stacksGoing = none) : powerDowns s = s := by
  unfold powerDowns; rw [h1, h2]; rfl

theorem raiseChan_same (s : State) (cause : U16) (cls : Cls) (ch : Nat) : SameData s (raiseChan s cause cls ch) := by
  unfold raiseChan
  split
  · exact (SameData.refl s).logRecord _
  · exact (SameData.refl s).raise ..

theorem flushHost_keeps (s : State) (ch : Nat) (a : Active) : (flushHost s ch a).channel = s.channel ∧ (flushHost s ch a).hbm = s.hbm := by
  unfold flushHost
  split <;> exact ⟨rfl, rfl⟩

theorem rxSettle_none (s : State) (l : Nat) (h : (s.lane l).rxOps = []) : rxSettle s l = s := by
  unfold rxSettle rxAdvance
  rw [h]
  simp [List.range_succ, h]

theorem txSettle_none (s : State) (l : Nat) (h : (s.lane l).txOps = []) : txSettle s l = s := by
  unfold txSettle txAdvance
  rw [h]
  simp [List.range_succ, h]

theorem setLane_setLane (s : State) (i : Nat) (c d : Lane) : (s.setLane i c).setLane i d = s.setLane i d := by
  simp [State.setLane, vset]

theorem lane_congr {s t : State} (h : t.osl = s.osl) (i : Nat) : t.lane i = s.lane i := by unfold State.lane; rw [h]

theorem sendFrame_done (s : State) (l : Fin 52) (f : TxFrame) (h : (s.lane l.val).loopback = 0) :
    (sendFrame s l.val f).out = .frame l.val (frameLevels (s.lane l.val).txPrecode (s.lane l.val).txPrev (s.lane l.val).txCount.toNat f.header f.payload f.link) :: s.out ∧
    ((sendFrame s l.val f).lane l.val).txCount = (s.lane l.val).txCount + 1 ∧
    ((sendFrame s l.val f).lane l.val).txFrames = (if f.counted then (s.lane l.val).txFrames + 1 else (s.lane l.val).txFrames) ∧
    (sendFrame s l.val f).osl.frames = s.osl.frames := by
  unfold sendFrame
  dsimp only
  rw [if_neg (by rw [h]; decide)]
  generalize frameLevels (s.lane l.val).txPrecode (s.lane l.val).txPrev (s.lane l.val).txCount.toNat f.header f.payload f.link = lv
  have : ∀ (t : State) (e : Emission), (t.emit e).lane l.val = t.lane l.val := fun _ _ => rfl
  rw [this, State.setLane_lane_self _ _ _ l.isLt]
  exact ⟨rfl, rfl, rfl, rfl⟩

theorem startTile_keeps (s : State) : (startTile s).relief.cur = s.relief.cur ∧ (startTile s).relief.ready = s.relief.ready ∧
    (startTile s).relief.drain = s.relief.drain ∧ (startTile s).relief.tileDwells = s.relief.tileDwells ∧
    (startTile s).relief.busyCycles = s.relief.busyCycles ∧ (startTile s).hbm = s.hbm ∧ (startTile s).err = s.err := by
  have he : (endStageStall s).relief.cur = s.relief.cur ∧ (endStageStall s).relief.ready = s.relief.ready ∧
    (endStageStall s).relief.drain = s.relief.drain ∧ (endStageStall s).relief.tileDwells = s.relief.tileDwells ∧
    (endStageStall s).relief.busyCycles = s.relief.busyCycles ∧ (endStageStall s).hbm = s.hbm ∧ (endStageStall s).err = s.err := by
    unfold endStageStall
    split
    · exact ⟨rfl, rfl, rfl, rfl, rfl, rfl, rfl⟩
    · generalize rclkSince s _ = n
      exact ⟨rfl, rfl, rfl, rfl, rfl, rfl, rfl⟩
  unfold startTile
  dsimp only
  repeat' split
  all_goals first | exact ⟨rfl, rfl, rfl, rfl, rfl, rfl, rfl⟩ | exact he

theorem startTile_idle (s : State) (h : s.relief.cur = none) : startTile s = s := by unfold startTile; rw [h]

theorem restage_keeps (s : State) : (restage s).relief.cur = s.relief.cur ∧ (restage s).relief.ready = s.relief.ready ∧
    (restage s).relief.drain = s.relief.drain ∧ (restage s).relief.tileDwells = s.relief.tileDwells ∧
    (restage s).relief.busyCycles = s.relief.busyCycles ∧ (restage s).hbm = s.hbm ∧ (restage s).err = s.err := by
  unfold restage
  dsimp only
  generalize ceilDiv _ _ = n
  exact ⟨rfl, rfl, rfl, rfl, rfl, rfl, rfl⟩

theorem trySwap_free (X : State) (run : Run) (c : Corr) (h1 : X.relief.acc = some run) (h2 : X.corr run.tile.pid = some c)
    (h3 : c.td ≤ run.offset) (h4 : setFree X run = true) :
    (trySwap X).relief.drain = X.relief.drain ++ [run] ∧ (trySwap X).relief.tileDwells = X.relief.tileDwells + 1 ∧
    (trySwap X).relief.busyCycles = X.relief.busyCycles + BitVec.ofNat 64 (tileCycles c.td run.mode) ∧ (trySwap X).hbm = X.hbm := by
  have he : (endDrainStall X).relief.drain = X.relief.drain ∧ (endDrainStall X).relief.tileDwells = X.relief.tileDwells ∧
      (endDrainStall X).relief.busyCycles = X.relief.busyCycles ∧ (endDrainStall X).hbm = X.hbm := by
    unfold endDrainStall
    split
    · exact ⟨rfl, rfl, rfl, rfl⟩
    · exact ⟨rfl, rfl, rfl, rfl⟩
    · generalize rclkSince X _ = n
      exact ⟨rfl, rfl, rfl, rfl⟩
  unfold trySwap
  rw [h1]
  dsimp only
  rw [h2]
  dsimp only
  rw [if_neg (by omega), if_pos h4]
  generalize hY : State.setRelief _ _ = Y
  obtain ⟨-, -, a3, a4, a5, a6, -⟩ := startTile_keeps (restage Y)
  obtain ⟨-, -, b3, b4, b5, b6, -⟩ := restage_keeps Y
  rw [a3, a4, a5, a6, b3, b4, b5, b6, ← hY]
  obtain ⟨e1, e2, e3, e4⟩ := he
  refine ⟨?_, ?_, ?_, e4⟩
  · show (endDrainStall X).relief.drain ++ [run] = _; rw [e1]
  · show (endDrainStall X).relief.tileDwells + 1 = _; rw [e2]
  · show (endDrainStall X).relief.busyCycles + _ = _; rw [e3]

theorem trySwap_held (X : State) (run : Run) (c : Corr) (h1 : X.relief.acc = some run) (h2 : X.corr run.tile.pid = some c)
    (h3 : c.td ≤ run.offset) (h4 : setFree X run = false) (h5 : X.relief.drainStall = none) :
    trySwap X = X.setRelief { X.relief with drainStall := some X.now } := by
  unfold trySwap
  rw [h1]
  dsimp only
  rw [h2]
  dsimp only
  rw [if_neg (by omega), if_neg (by simp [h4]), if_neg (by simp [h5])]

theorem ringDecline_done (s : State) (f : Fn) (n : Fin 64) (o : Offer) :
    (ringDecline s f n.val o).ring f n.val = { s.ring f n.val with
      declined := (s.ring f n.val).declined + 1, declining := true, declines := addDecline (s.ring f n.val).declines o (s.worldOfProduct o.pid) } ∧
    (ringDecline s f n.val o).out = s.out ∧ (ringDecline s f n.val o).offers = s.offers := by
  unfold ringDecline
  dsimp only
  rw [State.setRing_ring_self _ _ _ _ n.isLt]
  refine ⟨rfl, ?_, ?_⟩ <;> cases f <;> rfl

theorem ringGap_none (s : State) (f : Fn) (n pid : Nat) (h : (s.ring f n).declines = []) : ringGap s f n pid = s := by
  unfold ringGap
  dsimp only
  rw [h]
  rfl

theorem sendVector_keeps (s : State) (f g : Fn) (v i : Nat) : (sendVector s f v).ring g i = s.ring g i ∧ (sendVector s f v).offers = s.offers ∧
    (sendVector s f v).hbm = s.hbm ∧ (sendVector s f v).products = s.products ∧ ∀ e, e ∈ s.out → e ∈ (sendVector s f v).out :=
  have h := (SameData.refl s).sendVector f v
  ⟨h.ring g i, h.offers, h.hbm, h.products, fun _ he => mem_of_same h he⟩

theorem ringAppend_done (s : State) (f : Fn) (n : Fin 64) (bs : List Byte) :
    ((ringAppend s f n.val bs).ring f n.val).tail = (s.ring f n.val).tail + bs.length ∧
    ((ringAppend s f n.val bs).ring f n.val).declining = (s.ring f n.val).declining ∧
    ((ringAppend s f n.val bs).ring f n.val).declined = (s.ring f n.val).declined ∧
    (ringAppend s f n.val bs).offers = s.offers ∧ (ringAppend s f n.val bs).hbm = s.hbm ∧
    .hostWrite f (s.ring f n.val).wbAddr.toNat (leBytes 8 ((s.ring f n.val).tail + bs.length)) ∈ (ringAppend s f n.val bs).out := by
  have hw : ∀ r, (ringWrites s f r bs).offers = s.offers ∧ (ringWrites s f r bs).hbm = s.hbm ∧ (ringWrites s f r bs).link = s.link := by
    intro r; unfold ringWrites; dsimp only; split <;> exact ⟨rfl, rfl, rfl⟩
  unfold ringAppend
  dsimp only
  obtain ⟨w1, w2, w3⟩ := hw (s.ring f n.val)
  generalize ringWrites s f (s.ring f n.val) bs = X at w1 w2 w3
  split
  · obtain ⟨e1, e2, e3, -, e5⟩ := sendVector_keeps ((X.emit (.hostWrite f (s.ring f n.val).wbAddr.toNat (leBytes 8 ((s.ring f n.val).tail + bs.length)))).setRing f n.val { s.ring f n.val with tail := (s.ring f n.val).tail + bs.length, since := 0, sinceTime := none }) f f (s.ring f n.val).vector n.val
    rw [e1, e2, e3, State.setRing_ring_self _ _ _ _ n.isLt]
    refine ⟨rfl, rfl, rfl, ?_, ?_, e5 _ ?_⟩ <;> cases f <;> first | exact w1 | exact w2 | exact List.mem_cons_self ..
  · rw [State.setRing_ring_self _ _ _ _ n.isLt]
    refine ⟨rfl, rfl, rfl, ?_, ?_, ?_⟩ <;> cases f <;> first | exact w1 | exact w2 | exact List.mem_cons_self ..

theorem State.store_allocs (s : State) (a : Nat) (bs : List Byte) : (s.store a bs).hbm.allocs = s.hbm.allocs := by
  unfold State.store
  dsimp only
  refine ite_ind (P := fun t : State => t.hbm.allocs = s.hbm.allocs) rfl rfl

def Stored (s t : State) : Prop := t.relief = s.relief ∧ t.err = s.err ∧ t.offers = s.offers

theorem Stored.refl (s : State) : Stored s s := ⟨rfl, rfl, rfl⟩

theorem Stored.trans {s t u : State} (a : Stored s t) (b : Stored t u) : Stored s u :=
  ⟨b.1.trans a.1, b.2.1.trans a.2.1, b.2.2.trans a.2.2⟩

theorem Stored.foldl {α : Type} (g : State → α → State) (h : ∀ t x, Stored t (g t x)) (l : List α) (s : State) : Stored s (l.foldl g s) := by
  induction l generalizing s with
  | nil => exact Stored.refl s
  | cons x l ih => exact (h s x).trans (ih _)

theorem storeOnly (s : State) (a : Nat) (bs : List Byte) : Stored s (s.store a bs) := ⟨by simp, by simp, by simp⟩

theorem commitTile_keeps (s : State) (p : Place) (sp : Spill) :
    (commitTile s p sp none).relief = s.relief ∧ (commitTile s p sp none).err = s.err ∧ (commitTile s p sp none).offers = s.offers := by
  have hw : ∀ (t : State) (c : Corr) (a : Nat) v, Stored t (writeElem t c a v) := fun t c a v => storeOnly t a _
  have he : ∀ (t : State) i j a, Stored t (commitElem t p sp i j a).1 := by
    intro t i j a
    unfold commitElem
    dsimp only
    split
    · split
      · exact Stored.refl t
      · exact hw ..
    · split
      · exact Stored.refl t
      · split
        · exact Stored.refl t
        · exact hw ..
  have hf : ∀ (l : List ((Nat × Nat) × (Int × Int) × Int)) (a : State × List ((Nat × Nat) × (Int × Int) × Int × Bool)), Stored s a.1 → Stored s (l.foldl (fun a e =>
      let x := commitElem a.1 p sp e.1.1 e.1.2 e.2.1
      (x.1, (e.1, x.2.1, e.2.2, x.2.2) :: a.2)) a).1 := by
    intro l
    induction l with
    | nil => intro a h; exact h
    | cons e l ih => intro a h; exact ih _ (h.trans (he ..))
  have hp : ∀ (t : State) c b o es, Stored t (putElems t p c b o es) := by
    intro t c b o es
    unfold putElems
    refine Stored.foldl _ (fun u e => ?_) es t
    unfold putOut
    dsimp only
    exact ((storeOnly ..).trans (storeOnly ..))
  have hc : ∀ (t : State) c, Stored t (t.setCorr c) := fun _ _ => ⟨rfl, rfl, rfl⟩
  have hn : ∀ (t : State) n c sn, Stored t (snapStatus t n c sn) := by
    intro t n c sn; unfold snapStatus; split <;> exact ⟨rfl, rfl, rfl⟩
  have ht : ∀ (t : State) vals, Stored t (tapSnap t p sp vals) := by
    intro t vals
    unfold tapSnap
    split
    · exact Stored.refl t
    · split
      · split
        · exact Stored.refl t
        · split
          · dsimp only
            exact ((hp ..).trans (hc ..)).trans (hn ..)
          · exact Stored.refl t
      · exact Stored.refl t
  unfold commitTile
  split
  · exact ⟨rfl, rfl, rfl⟩
  · dsimp only
    have hr := hf ((tileElems p.n sp.tile).zip sp.vals) (s, []) (Stored.refl s)
    generalize List.foldl _ (s, []) _ = r at hr ⊢
    refine Stored.trans ?_ (ht _ _)
    exact ⟨hr.1, hr.2.1, hr.2.2⟩

structure RowKept (s t : State) : Prop where
  intake : t.intake = s.intake
  late : t.frieze.importLate = s.frieze.importLate

theorem RowKept.refl (s : State) : RowKept s s := ⟨rfl, rfl⟩

theorem RowKept.trans {s t u : State} (a : RowKept s t) (b : RowKept t u) : RowKept s u :=
  ⟨b.intake.trans a.intake, b.late.trans a.late⟩

theorem RowKept.of_sent {s t : State} (h : Sent s t) : RowKept s t := ⟨h.intake, by rw [h.frieze]⟩

theorem RowKept.foldl {α : Type} {s t : State} (h : RowKept s t) (g : State → α → State) (hg : ∀ u x, RowKept u (g u x)) (l : List α) :
    RowKept s (l.foldl g t) := by
  induction l generalizing t with
  | nil => exact h
  | cons x l ih => exact ih (h.trans (hg t x))

theorem RowKept.count {s t : State} (h : RowKept s t) {f : Frieze} (e : f.importLate = t.frieze.importLate) :
    RowKept s { t with frieze := f } := h.trans ⟨rfl, e⟩

theorem RowKept.sent {s t u : State} (h : RowKept s t) (k : Sent t u) : RowKept s u := h.trans (.of_sent k)

theorem RowKept.setFzProd {s t : State} (h : RowKept s t) (p : FzProd) : RowKept s (t.setFzProd p) := h.count rfl

theorem RowKept.raiseDev {s t : State} (h : RowKept s t) (c : U16) (k : Cls) (r d : Nat) : RowKept s (raiseDev t c k r d) :=
  h.sent (.of_same ((SameData.refl t).logRecord _))

theorem RowKept.freeAllocs {s t : State} (h : RowKept s t) (p : AllocKind → Bool) : RowKept s (freeAllocs t p) := h.trans ⟨rfl, rfl⟩

theorem RowKept.noteExpiry {s t : State} (h : RowKept s t) (r : Nat) : RowKept s (noteExpiry t r) := by
  unfold Machine.noteExpiry
  split
  · exact h
  · dsimp only
    split
    · exact h.count rfl
    · refine RowKept.raiseDev ?_ ..
      exact h.count rfl

theorem RowKept.noteResidue {s t : State} (h : RowKept s t) (j : Nat) : RowKept s (noteResidue t j) := by
  unfold Machine.noteResidue
  dsimp only
  split
  all_goals
    split
    · refine RowKept.raiseDev ?_ ..
      exact h.count rfl
    · exact h.count rfl

theorem RowKept.dueSwitch {s t : State} (h : RowKept s t) (r : Nat) : RowKept s (dueSwitch t r) := by
  unfold Machine.dueSwitch
  split
  · split
    · unfold switchBank
      exact h.count rfl
    · exact h
  · exact h

theorem RowKept.noteDelays {s t : State} (h : RowKept s t) (pid : Nat) (bad : List (Nat × Nat)) (b : Bool) (j : Nat) :
    RowKept s (noteDelays t pid bad b j) := by
  unfold Machine.noteDelays
  split
  · exact h
  · dsimp only
    refine (h.setFzProd _).foldl _ (fun u x => ?_) _
    refine RowKept.sent ?_ ((Sent.refl _).raiseProduct ..)
    exact (RowKept.refl u).count rfl

theorem RowKept.fetchGains {s t : State} (h : RowKept s t) (pid g : Nat) : RowKept s (fetchGains t pid g) := by
  unfold Machine.fetchGains
  split
  · exact h
  · split
    · exact h
    · dsimp only
      split
      · exact h.setFzProd _
      · refine RowKept.sent ?_ ((Sent.refl _).raiseProduct ..)
        exact h.setFzProd _

theorem RowKept.readAhead {s t : State} (h : RowKept s t) (pid g : Nat) : RowKept s (readAhead t pid g) := by
  have hu : ∀ u : State, RowKept s u → RowKept s (dropGains u pid g) := by
    intro u hu
    unfold dropGains
    split
    · exact hu.setFzProd _
    · exact hu
  unfold Machine.readAhead
  exact hu _ (h.foldl _ (fun u k => (RowKept.refl u).fetchGains pid k) _)

theorem RowKept.passRow {s t : State} (h : RowKept s t) (pid b : Nat) (r : BeamRow) : RowKept s (passRow t pid b r) := by
  unfold Machine.passRow
  split
  · exact h
  · exact (h.setFzProd _).trans ⟨rfl, rfl⟩

theorem RowKept.offerRow {s t : State} (h : RowKept s t) (pid b : Nat) (r : BeamRow) : RowKept s (offerRow t pid b r) := by
  unfold Machine.offerRow
  repeat' split
  all_goals first | exact h | exact h.passRow .. | exact (h.setFzProd _).passRow .. | exact h.setFzProd _

theorem RowKept.friezeStops {s t : State} (h : RowKept s t) (pid : Nat) : RowKept s (friezeStops t pid) := by
  unfold Machine.friezeStops
  split
  · exact h
  · split
    · dsimp only
      split
      · exact h
      · split
        · unfold dropFrieze
          refine RowKept.sent ?_ (((Sent.refl _).delProduct pid).productStopped pid)
          split
          · refine RowKept.sent ?_ ((Sent.refl _).followEntry ..)
            refine RowKept.freeAllocs ?_ _
            exact h.count rfl
          · refine RowKept.freeAllocs ?_ _
            exact h.count rfl
        · refine RowKept.sent ?_ ((((Sent.refl _).gapSuspended ..).suspendProduct pid).productStopped pid)
          refine RowKept.setFzProd ?_ _
          split
          · exact h.sent ((Sent.refl t).setProduct ..)
          · exact h
    · exact h

theorem RowKept.emitBeams {s t : State} (h : RowKept s t) (pid : Nat) : RowKept s (emitBeams t pid) := by
  have he : ∀ u, RowKept u (emitBeam u pid) := by
    intro u
    unfold emitBeam
    split
    · exact .refl u
    · dsimp only
      split
      · exact .refl u
      · split
        · refine RowKept.count (RowKept.sent ?_ ((Sent.refl _).emitKeyed ..)) rfl
          refine RowKept.count ?_ rfl
          exact (RowKept.refl u).setFzProd _
        · split
          · refine RowKept.sent ?_ ((Sent.refl _).setProduct ..)
            refine RowKept.count ?_ rfl
            exact (RowKept.refl u).setFzProd _
          · refine RowKept.count ?_ rfl
            exact (RowKept.refl u).setFzProd _
  unfold Machine.emitBeams
  split
  · exact h
  · exact (h.foldl _ (fun u _ => he u) _).friezeStops _

theorem RowKept.sumRow {s t : State} (h : RowKept s t) (pid : Nat) (r : SettledRow) (res : List Residue) (b : Bool) :
    RowKept s (sumRow t pid r res b) := by
  unfold Machine.sumRow
  split
  · exact h
  · dsimp only
    refine RowKept.emitBeams (RowKept.foldl ?_ _ (fun u x => (RowKept.refl u).offerRow ..) _) _
    refine RowKept.setFzProd ?_ _
    exact h.count rfl

theorem RowKept.prodRow {s t : State} (h : RowKept s t) (pid : Nat) (r : SettledRow) (bad : List (Nat × Nat × Nat)) (res : List Residue)
    (b : Bool) : RowKept s (prodRow t pid r bad res b) := by
  unfold Machine.prodRow
  split
  · exact h
  · split
    · exact h.friezeStops _
    · exact ((h.noteDelays ..).readAhead ..).sumRow ..

theorem drivePulse_pin (s : State) (pin : Fin 4) (o : TimeOut) (time : Nat) (h : s.pair.role ≠ .standby) :
    ∃ e, e = (roundHE (time : Int) 10240).toNat * 10240 ∧
    outPin (drivePulse { s with net := { s.net with outs := vset s.net.outs pin.val o } } pin.val time) pin.val =
      { o with pulses := o.pulses + 1, highUntil := some (e + o.width * nanos) } ∧
    (drivePulse { s with net := { s.net with outs := vset s.net.outs pin.val o } } pin.val time).out =
      .pulse pin.val e o.width :: s.out := by
  refine ⟨_, rfl, ?_⟩
  unfold drivePulse outPin
  dsimp only
  rw [if_neg h, vget_vset_self _ _ _ _ pin.isLt]
  exact ⟨vget_vset_self _ _ _ _ pin.isLt, rfl⟩

theorem tin_setTin (s : State) (f g : Fn) (p : Fin 4) (x : TimeIn) : (s.setTin f p.val x).tin g p.val = if f = g then x else s.tin g p.val := by
  cases f <;> cases g <;> simp [State.setTin, State.tin, vget_vset_self _ _ _ _ p.isLt]

theorem fifoEdge_other (s : State) (pin : Fin 4) (fa gl : Bool) (t : U96) (f g : Fn) (h : f ≠ g) :
    (fifoEdge s pin.val fa gl t f).tin g pin.val = s.tin g pin.val ∧ (fifoEdge s pin.val fa gl t f).net.stepGen = s.net.stepGen ∧ (fifoEdge s pin.val fa gl t f).plinth = s.plinth := by
  unfold fifoEdge
  dsimp only
  repeat' split
  all_goals first
  | exact ⟨rfl, rfl, rfl⟩
  | (refine ⟨by rw [tin_setTin, if_neg h], ?_, ?_⟩ <;> cases f <;> rfl)

theorem tport_set (s : State) (p : Fin 2) (x : TPort) : (s.setTport p.val x).tport p.val = x ∧ (s.setTport p.val x).tport (1 - p.val) = s.tport (1 - p.val) := by
  refine ⟨vget_vset_self _ _ _ _ p.isLt, vget_vset_ne _ _ _ _ _ ?_⟩
  omega

theorem takes_facts {s : State} {p type : Nat} {f m : List Byte} (h : takes s p type f m = true) (body : List Byte → State) :
    ptpReceive s p type f body = body m := by
  unfold takes at h
  simp only [Bool.and_eq_true, beq_iff_eq] at h
  obtain ⟨⟨⟨⟨⟨h1, h2⟩, h3⟩, h4⟩, h5⟩, h6⟩ := h
  unfold ptpReceive
  dsimp only
  rw [if_neg (by simp [h1, h2]), if_neg (by simp [h3]), h4]
  dsimp only
  rw [if_neg (by simp [h5]), if_neg (by simp [h6])]

structure TimeKept (s t : State) : Prop where
  sec : t.plinth.sec = s.plinth.sec
  ns : t.plinth.ns = s.plinth.ns
  foreign : t.net.foreign = s.net.foreign
  master : t.net.master = s.net.master
  ports : t.net.ports = s.net.ports

theorem TimeKept.refl (s : State) : TimeKept s s := ⟨rfl, rfl, rfl, rfl, rfl⟩

theorem TimeKept.trans {s t u : State} (a : TimeKept s t) (b : TimeKept t u) : TimeKept s u := by
  cases a; cases b; constructor <;> simp_all

theorem TimeKept.of_same {s t u : State} (h : TimeKept s t) (k : SameData t u) : TimeKept s u :=
  h.trans ⟨by rw [k.plinth], by rw [k.plinth], by rw [k.net], by rw [k.net], by rw [k.net]⟩

theorem TimeKept.clock {s t : State} (h : TimeKept s t) {c : Clock} : TimeKept s { t with clock := c } := h.trans ⟨rfl, rfl, rfl, rfl, rfl⟩

theorem TimeKept.setRef {s t : State} (h : TimeKept s t) (r : Nat) (x : Ref) : TimeKept s (t.setRef r x) := h.clock

theorem TimeKept.free {s t : State} (h : TimeKept s t) (m : Nat) : TimeKept s (t.free m).2 := h.trans ⟨rfl, rfl, rfl, rfl, rfl⟩

theorem TimeKept.setInc {s t : State} (h : TimeKept s t) : TimeKept s (setInc t) := by
  unfold Machine.setInc
  split
  · exact h
  · exact h.trans ⟨rfl, rfl, rfl, rfl, rfl⟩

theorem TimeKept.noteFollowed {s t : State} (h : TimeKept s t) : TimeKept s (noteFollowed t) := by
  unfold Machine.noteFollowed
  split
  · exact h
  · exact h.clock

theorem TimeKept.reselect {s t : State} (h : TimeKept s t) : TimeKept s (reselect t) := by
  unfold Machine.reselect
  split
  · split
    · exact h
    · unfold selectRef
      refine TimeKept.setInc ?_
      unfold follow
      refine TimeKept.clock (TimeKept.free (TimeKept.free (TimeKept.noteFollowed ?_) _) _)
      exact TimeKept.clock (h.noteFollowed.free _)
  · split
    · unfold enterHoldover
      refine TimeKept.of_same ?_ ((((SameData.refl _).logRecord _)).raiseAttn 5)
      refine TimeKept.setInc ?_
      exact TimeKept.clock h.noteFollowed
    · exact h

theorem TimeKept.disqualify {s t : State} (h : TimeKept s t) (r : Nat) : TimeKept s (disqualify t r) := by
  unfold Machine.disqualify
  dsimp only
  split
  · exact (h.setRef ..).of_same ((SameData.refl _).logRecord _)
  · exact h.setRef ..

theorem TimeKept.refFails {s t : State} (h : TimeKept s t) (r : Nat) : TimeKept s (refFails t r) := by
  unfold Machine.refFails
  dsimp only
  split
  · exact h
  · exact ((h.setRef ..).disqualify r).reselect

theorem TimeKept.setServo {s t : State} (h : TimeKept s t) (v : Servo) : TimeKept s (setServo t v) := by
  have hn : TimeKept s (noteLocked t) := by
    unfold noteLocked
    split
    · exact h
    · exact h.trans ⟨rfl, rfl, rfl, rfl, rfl⟩
  have h2 : ∀ n : NetTime, n.foreign = (noteLocked t).net.foreign → n.master = (noteLocked t).net.master → n.ports = (noteLocked t).net.ports →
      TimeKept s { noteLocked t with net := n } := fun n a b c => hn.trans ⟨rfl, rfl, a, b, c⟩
  unfold Machine.setServo
  split
  · refine TimeKept.setRef ?_ ..
    exact h2 _ rfl rfl rfl
  · split
    · refine TimeKept.refFails ?_ _
      exact h2 _ rfl rfl rfl
    · exact h2 _ rfl rfl rfl

theorem TimeKept.holdServo {s t : State} (h : TimeKept s t) (v : Servo) : TimeKept s (holdServo t v) := by
  unfold Machine.holdServo
  refine TimeKept.setInc ?_
  exact (h.setServo v).trans ⟨rfl, rfl, rfl, rfl, rfl⟩

theorem bestMaster_congr {s t : State} (h1 : t.net.foreign = s.net.foreign) (h2 : t.net.master = s.net.master) (h3 : t.now = s.now)
    (h4 : ∀ p, (t.tport p).enabled = (s.tport p).enabled ∧ (t.tport p).link = (s.tport p).link) : bestMaster t = bestMaster s := by
  have : qualifiedMaster t = qualifiedMaster s := by
    funext f
    unfold qualifiedMaster heardTwice
    simp only [h2, h3, (h4 _).1, (h4 _).2]
  unfold bestMaster
  rw [h1, this]

theorem selectMaster_done (s : State) : (selectMaster s).net.master = bestMaster s ∧ (selectMaster s).net.foreign = s.net.foreign ∧
    (selectMaster s).plinth.sec = s.plinth.sec ∧ (selectMaster s).net.ports = s.net.ports := by
  have h1 : ∀ t : State, t.net.master = bestMaster s → t.net.foreign = s.net.foreign → t.plinth.sec = s.plinth.sec → t.net.ports = s.net.ports →
      ∀ u, TimeKept t u → u.net.master = bestMaster s ∧ u.net.foreign = s.net.foreign ∧ u.plinth.sec = s.plinth.sec ∧ u.net.ports = s.net.ports :=
    fun t a b c d u k => ⟨k.master.trans a, k.foreign.trans b, k.sec.trans c, k.ports.trans d⟩
  have h2 : ∀ u : State, u.net.foreign = s.net.foreign → u.plinth.sec = s.plinth.sec → u.net.ports = s.net.ports → u.net.master = bestMaster s →
      ∀ b : Bool, (fun v : State => v.net.master = bestMaster s ∧ v.net.foreign = s.net.foreign ∧ v.plinth.sec = s.plinth.sec ∧ v.net.ports = s.net.ports)
        (if !disciplining u then u else if b then { setServo u .acquire with net := { (setServo u .acquire).net with refusalOpen := false } }
          else if u.net.servo = .acquire ∨ u.net.servo = .locked then holdServo u .holdover else u) := by
    intro u a b c d k
    refine h1 u d a b c _ ?_
    split
    · exact .refl _
    · split
      · exact ((TimeKept.refl _).setServo .acquire).trans ⟨rfl, rfl, rfl, rfl, rfl⟩
      · split
        · exact (TimeKept.refl _).holdServo _
        · exact .refl _
  unfold selectMaster
  exact ite_ind (P := fun v : State => v.net.master = bestMaster s ∧ v.net.foreign = s.net.foreign ∧ v.plinth.sec = s.plinth.sec ∧ v.net.ports = s.net.ports)
    ⟨rfl, rfl, rfl, rfl⟩
    (h2 { s with net := { s.net with
      master := bestMaster s, sync := none, delay := none, delayAt := none, syncLog := none, delayLog := none, meanPath := none } }
      rfl rfl rfl rfl ((bestMaster s).isSome && (s.net.master.isSome || s.net.servo != .holdover)))

theorem stepPlinth_net (s : State) (u : Nat) : (stepPlinth s u).net.valid = true ∧ (stepPlinth s u).net.stepGen = s.net.stepGen + 1 ∧
    (stepPlinth s u).net.steps = s.net.steps + 1 ∧ (stepPlinth s u).net.servo = s.net.servo := by
  have hd : ∀ (t : State) p k, (drivePulse t p k).net.valid = t.net.valid ∧ (drivePulse t p k).net.stepGen = t.net.stepGen ∧
      (drivePulse t p k).net.steps = t.net.steps ∧ (drivePulse t p k).net.servo = t.net.servo := by
    intro t p k; unfold drivePulse; dsimp only; split <;> exact ⟨rfl, rfl, rfl, rfl⟩
  have hf : ∀ (l : List Nat) (t : State) p k, (l.foldl (fun t _ => drivePulse t p k) t).net.valid = t.net.valid ∧
      (l.foldl (fun t _ => drivePulse t p k) t).net.stepGen = t.net.stepGen ∧
      (l.foldl (fun t _ => drivePulse t p k) t).net.steps = t.net.steps ∧ (l.foldl (fun t _ => drivePulse t p k) t).net.servo = t.net.servo := by
    intro l
    induction l with
    | nil => intro t p k; exact ⟨rfl, rfl, rfl, rfl⟩
    | cons a l ih =>
      intro t p k
      obtain ⟨a1, a2, a3, a4⟩ := ih (drivePulse t p k) p k
      obtain ⟨b1, b2, b3, b4⟩ := hd t p k
      exact ⟨a1.trans b1, a2.trans b2, a3.trans b3, a4.trans b4⟩
  have hp : ∀ (t : State) p, (pinStepped t p).net.valid = t.net.valid ∧ (pinStepped t p).net.stepGen = t.net.stepGen ∧
      (pinStepped t p).net.steps = t.net.steps ∧ (pinStepped t p).net.servo = t.net.servo := by
    intro t p
    unfold pinStepped
    dsimp only
    split
    · obtain ⟨a1, a2, a3, a4⟩ := hf _ _ _ _
      rw [a1, a2, a3, a4]
      exact ⟨rfl, rfl, rfl, rfl⟩
    · split
      · obtain ⟨a1, a2, a3, a4⟩ := hd _ _ _
        rw [a1, a2, a3, a4]
        exact ⟨rfl, rfl, rfl, rfl⟩
      · exact ⟨rfl, rfl, rfl, rfl⟩
    · exact ⟨rfl, rfl, rfl, rfl⟩
  have hn : (settlePull (noteFollowed (noteLocked s))).net.stepGen = s.net.stepGen ∧
      (settlePull (noteFollowed (noteLocked s))).net.steps = s.net.steps ∧ (settlePull (noteFollowed (noteLocked s))).net.servo = s.net.servo := by
    have h1 : ∀ t : State, (settlePull (noteFollowed t)).net = t.net := by
      intro t; unfold settlePull noteFollowed; split <;> rfl
    rw [h1]
    unfold noteLocked
    split <;> exact ⟨rfl, rfl, rfl⟩
  obtain ⟨n1, n2, n3⟩ := hn
  unfold stepPlinth
  simp only [List.foldl_cons, List.foldl_nil]
  generalize settlePull (noteFollowed (noteLocked s)) = T at n1 n2 n3
  simp only [(hp _ _).1, (hp _ _).2.1, (hp _ _).2.2.1, (hp _ _).2.2.2]
  exact ⟨trivial, by rw [n1], by rw [n2], n3⟩

theorem judgeOffset_first (s : State) (o : Int) (h : s.net.valid = false) : (judgeOffset s o).net.valid = true ∧
    (judgeOffset s o).net.stepGen = s.net.stepGen + 1 ∧ (judgeOffset s o).net.steps = s.net.steps + 1 ∧
    (judgeOffset s o).net.servo = s.net.servo := by
  unfold judgeOffset
  dsimp only
  rw [if_pos (by simp [h])]
  unfold stepBy
  exact stepPlinth_net _ _

structure RefsKept (s t : State) : Prop where
  refs : t.clock.refs = s.clock.refs
  net : t.net = s.net

theorem RefsKept.refl (s : State) : RefsKept s s := ⟨rfl, rfl⟩

theorem RefsKept.trans {s t u : State} (a : RefsKept s t) (b : RefsKept t u) : RefsKept s u := ⟨b.refs.trans a.refs, b.net.trans a.net⟩

theorem RefsKept.of_same {s t u : State} (h : RefsKept s t) (k : SameData t u) : RefsKept s u := h.trans ⟨by rw [k.clock], k.net⟩

theorem RefsKept.clock {s t : State} (h : RefsKept s t) {c : Clock} (e : c.refs = t.clock.refs) : RefsKept s { t with clock := c } :=
  h.trans ⟨e, rfl⟩

theorem RefsKept.noteFollowed {s t : State} (h : RefsKept s t) : RefsKept s (noteFollowed t) := by
  unfold Machine.noteFollowed
  split
  · exact h
  · exact h.clock rfl

theorem RefsKept.follow {s t : State} (h : RefsKept s t) (r : Nat) : RefsKept s (follow t r) := by
  unfold Machine.follow
  refine RefsKept.clock ?_ rfl
  exact h.noteFollowed.trans ⟨rfl, rfl⟩

theorem RefsKept.setInc {s t : State} (h : RefsKept s t) : RefsKept s (setInc t) := by
  unfold Machine.setInc
  split
  · exact h
  · exact h.trans ⟨rfl, rfl⟩

theorem RefsKept.reselect {s t : State} (h : RefsKept s t) : RefsKept s (reselect t) := by
  unfold Machine.reselect
  split
  · split
    · exact h
    · unfold selectRef
      refine RefsKept.setInc (RefsKept.follow ?_ _)
      exact h.noteFollowed.trans ⟨rfl, rfl⟩
  · split
    · unfold enterHoldover
      refine RefsKept.of_same ?_ ((((SameData.refl _).logRecord _)).raiseAttn 5)
      refine RefsKept.setInc ?_
      exact h.noteFollowed.trans ⟨rfl, rfl⟩
    · exact h

theorem RefsKept.judgePairs {s t : State} (h : RefsKept s t) (r : Nat) : RefsKept s (judgePairs t r) := by
  have hp : ∀ u a b, RefsKept u (pairDisagrees u a b) := by
    intro u a b
    unfold pairDisagrees
    dsimp only
    split
    · split
      · exact (RefsKept.refl u).clock rfl
      · refine RefsKept.of_same ?_ ((((SameData.refl _).logRecord _)).raiseAttn 4)
        exact (RefsKept.refl u).clock rfl
    · exact .refl u
  unfold Machine.judgePairs
  have h1 : RefsKept s { t with clock := { t.clock with disagree := liveDisagree t } } := h.clock rfl
  generalize ({ t with clock := { t.clock with disagree := liveDisagree t } } : State) = u at h1
  have : ∀ (l : List Nat) (u : State), RefsKept s u → RefsKept s (l.foldl (fun t q => if q = r then t else pairDisagrees t (min q r) (max q r)) u) := by
    intro l
    induction l with
    | nil => intro u h; exact h
    | cons q l ih =>
      intro u h
      refine ih _ ?_
      dsimp only
      split
      · exact h
      · exact h.trans (hp ..)
  exact this _ u h1

theorem disqualify_net (s : State) (r : Nat) : (disqualify s r).net = s.net := by
  unfold disqualify
  dsimp only
  cases (s.ref r).qualified
  · rfl
  · rw [if_pos rfl]
    exact ((SameData.refl _).logRecord _).net

theorem refFails_net (s : State) (r : Nat) : (refFails s r).net = s.net := by
  unfold refFails
  dsimp only
  by_cases h : (s.ref r).rank = 0
  · rw [if_pos h]
  · rw [if_neg h]
    rw [((RefsKept.refl _).reselect).net, disqualify_net]
    rfl

theorem disqualify_ref (s : State) (r : Fin 5) : (disqualify s r.val).ref r.val =
    { s.ref r.val with qualified := false, requalFor := none, beyondFor := none,
                       disquals := if (s.ref r.val).qualified then (s.ref r.val).disquals + 1 else (s.ref r.val).disquals } := by
  unfold disqualify
  dsimp only
  cases (s.ref r.val).qualified
  · exact vget_vset_self _ _ _ _ r.isLt
  · rw [if_pos rfl]
    unfold State.ref
    rw [show (raiseDev _ 0x0C03 .c r.val 0).clock = _ from ((SameData.refl _).logRecord _).clock]
    exact vget_vset_self _ _ _ _ r.isLt

theorem chooseRef_mem (s : State) (q : Nat) (h : chooseRef s = some q) : (s.ref q).qualified = true := by
  have hb : ∀ x ∈ bestRank s, (s.ref x).qualified = true := by
    intro x hx
    unfold bestRank at hx
    simp only [List.mem_filter] at hx
    exact hx.1.2
  have hm : ∀ (f : Nat → Nat) (l : List Nat) x, minBy f l = some x → x ∈ l := by
    intro f l
    induction l with
    | nil => intro x h; cases h
    | cons a l ih =>
      intro x h
      unfold minBy at h
      split at h
      · cases h; exact List.mem_cons_self ..
      · next y hy =>
        split at h
        · cases h; exact List.mem_cons_self ..
        · cases h; exact List.mem_cons_of_mem _ (ih _ hy)
  have hp : ∀ l x, automatic.pick s l = some x → x ∈ l := by
    intro l x hx
    unfold automatic.pick at hx
    split at hx
    · exact hm _ _ _ hx
    · exact List.mem_of_mem_head? hx
  unfold chooseRef at h
  split at h
  · next k => cases h; simp only [Bool.and_eq_true] at k; exact k.2
  · unfold automatic at h
    dsimp only at h
    split at h
    · split at h
      · next c k => cases h; exact hb _ (List.contains_iff_mem.mp k)
      · exact hb _ (hp _ _ h)
    · exact hb _ (hp _ _ h)

theorem reselect_selected (s : State) (r : Nat) (h : (s.ref r).qualified = false) : (reselect s).clock.selected ≠ some r := by
  have hn : (noteFollowed s).clock.selected = s.clock.selected := by unfold noteFollowed; split <;> rfl
  unfold reselect
  split
  · next q hq =>
    have : q ≠ r := by intro e; subst e; rw [chooseRef_mem s _ hq] at h; cases h
    split
    · next k => rw [k]; simpa using this
    · unfold selectRef
      rw [setInc_clock]
      have hf : ∀ u : State, (follow u q).clock.selected = u.clock.selected := by
        intro u
        unfold follow
        show (noteFollowed u).clock.selected = _
        unfold noteFollowed; split <;> rfl
      rw [hf]
      simpa using this
  · split
    · unfold enterHoldover
      have hr : ∀ u : State, (raiseAttn (raiseDev u 0x0C05 .l 0 0) 5).clock = u.clock := fun u => (((SameData.refl u).logRecord _).raiseAttn 5).clock
      rw [hr, setInc_clock]
      simp
    · next k => intro e; rw [e] at k; exact k rfl

theorem setServo_servo (s : State) (v : Servo) : (setServo s v).net.servo = v := by
  unfold setServo
  split
  · rfl
  · split
    · rw [refFails_net]
    · rfl

theorem historyValid_of (s : State) (k : Nat) (hk : k = 60 * second) (u : Nat) (h1 : s.clock.lockedAt = some u)
    (h2 : k ≤ s.clock.lockedTime + (s.now - u)) :
    (historyValid s).clock.histValid = true ∧ (historyValid s).clock.state = s.clock.state := by
  unfold historyValid
  rw [← hk]
  clear hk
  unfold noteFollowed
  rw [h1]
  dsimp only
  rw [if_pos (by exact h2)]
  exact ⟨rfl, rfl⟩

theorem historyValid_done (s : State) (u : Nat) (h1 : s.clock.lockedAt = some u) (h2 : 60 * second ≤ s.clock.lockedTime + (s.now - u)) :
    ∃ t, exec .holdoverHistoryValid s = .next t ∧ t.clock.histValid = true ∧ t.clock.state = s.clock.state :=
  ⟨_, rfl, historyValid_of s _ rfl u h1 h2⟩

theorem takeMsg_next (s u : State) (n : U32) (body : State → State) (h0 : s.power.inReset = false) (h1 : s.pair.role ≠ .disabled)
  (h2 : ∀ k, s.pair.lastRx = some k → (k + 1) % 2 ^ 32 = n.toNat) (h3 : u = { s with pair := { s.pair with lastRx := some n.toNat } }) :
   takeMsg s n body = .next (body u) := by
  have hr : (s.pair.role != .disabled) = true := by simp [h1]
  unfold takeMsg
  cases h : s.pair.lastRx with
  | none => simp only [hr, h0, h3, Bool.not_false, Bool.and_true, if_true]
  | some k =>
    simp only [-Nat.reducePow, decide_eq_true (h2 k h), hr, h0, h3, Bool.not_false, Bool.and_true, if_true]

theorem takeMsg_other (s : State) (n : U32) (k : Nat) (body : State → State) (h : s.pair.lastRx = some k) (h2 : (k + 1) % 2 ^ 32 ≠ n.toNat) :
   takeMsg s n body = .next s := by
  unfold takeMsg
  simp only [-Nat.reducePow, h, decide_eq_false h2, Bool.false_and]
  rfl

end Sys2Proof.Machine
end

