-- ==== Sys2Proof/WellFormed.lean ====
section
/-! DEFINITION. Which commands are well formed: operands that the types leave wider than the interface that carries them.
Every meaning is total on ill-formed commands as well. -/

namespace Sys2Proof

open Sys2Proof.Machine

/-- A BAR0 offset: BAR0 is 16 MiB (11 R340). -/
def offOk (off : Nat) : Bool := decide (off < 2 ^ 24)

/-- A non-empty span of the 40-bit HBM address space (10 R308). -/
def spanOk (addr len : Nat) : Bool := decide (1 ≤ len ∧ addr + len ≤ 2 ^ 40)

/-- A non-empty span of the 512 GiB of BAR2 (11 R340). -/
def bar2Ok (addr len : Nat) : Bool := decide (1 ≤ len ∧ addr + len ≤ 2 ^ 39)

/-- The outcomes of HBM reads and writes, by byte address: 1 to 4 of a decoder, 5 and 6 of a replay after a parity error (10
R325). -/
def eccOk (ecc : List (Nat × Nat)) : Bool := ecc.all fun e => decide (e.1 < 2 ^ 40 ∧ 1 ≤ e.2 ∧ e.2 ≤ 6)

/-- A request names an HBM byte, and a spill run is at most a page of 16 units (10 R315). -/
def reqOk (r : HbmReq) : Bool :=
  decide (r.addr < 2 ^ 40) && (match r.kind with
    | .spill _ n => decide (1 ≤ n ∧ n ≤ 16)
    | _ => true)

/-- A Clause slot holds 64 bytes (11 R344). -/
def slotOk (slot : HRead) : Bool := slot.all fun bs => bs.length == 64

/-- A host buffer read that succeeded gave HLEN bytes (11 R357, R367). -/
def dataOk (buf : HBuf) (data : HRead) : Bool := data.all fun bs => bs.length == buf.len.toNat

/-- A product ID (05 R160). -/
def pidOk (pid : Nat) : Bool := decide (pid < 4096)

/-- A Plinth time: NS below 10^9 (13 R387). -/
def timeWf (t : U96) : Bool := decide (t.toNat / 2 ^ 16 % 2 ^ 32 < 1000000000)

/-- A well-formed command. -/
def Instr.wf : Instr → Bool
  | .regAlignAccess _ off size _ => offOk off && decide (1 ≤ size ∧ size ≤ 8) && !(off % 4 == 0 && size == 4)
  | .registerWrite _ off _ => offOk off
  | .rcFieldRead _ off _ => offOk off
  | .hiLatchRead _ off => offOk off
  | .bar2Read _ addr len => bar2Ok addr len.val && eccOk len.ecc
  | .bar2Write _ addr bytes => bar2Ok addr bytes.val.length && eccOk bytes.ecc
  | .ucieLinkTrain gts0 gts1 => decide (gts0 < 64 ∧ gts1 < 64)
  | .queueVisit slot => slotOk slot
  | .clauseReread slot => slotOk slot
  | .deferredChangeEffect pid => pidOk pid
  | .intakeSetGains _ _ _ _ _ _ buf data => dataOk buf data
  | .corrInputMapLoad _ buf data => dataOk buf data
  | .beamDefine _ _ _ _ _ _ _ _ _ _ _ _ _ buf data => dataOk buf data
  | .beamDelayLoad _ _ _ _ buf data => dataOk buf data
  | .beamDelaySwap _ _ _ buf data => dataOk buf data
  | .zoomProtoLoad _ _ buf data => dataOk buf data
  | .zoomDefine _ _ _ _ _ _ _ _ _ buf data _ => dataOk buf data
  | .zoomFirLoad _ _ _ _ _ _ buf data => dataOk buf data
  | .glossLoad _ _ buf data => dataOk buf data
  | .glossMemWrite _ _ _ _ _ buf data => dataOk buf data
  | .trimRestore _ buf data => dataOk buf data
  | .oslFrameRx _ levels => levels.length == 13600
  | .drainCompare errs _ _ => errs.all fun e => decide (e.row < 32 ∧ e.col < 32 ∧ e.baseline < 256)
  | .snapshotWriteDone pid => pidOk pid
  | .gainAreaReleased pid => pidOk pid
  | .psumRecordRx _ _ record => decide (64 ≤ record.length)
  | .importWindowExpiry pid => pidOk pid
  | .dmaBurstDone _ data _ => eccOk data.ecc
  | .hbmRequestServe _ _ arrivals _ => arrivals.all reqOk
  | .hbmTempRead _ temp => decide (temp < 256)
  | .stackTrainingDone _ sid repaired _ _ _ => decide (2 ≤ sid ∧ sid ≤ 4 ∧ repaired < 16)
  | .timeInEdge _ _ _ time => timeWf time
  | .reserve _ pid _ _ => pidOk pid
  | .chainMsg _ c => decide (c.chain < 64)
  | .hbmCopy _ addr bytes => spanOk addr bytes.length
  | .yieldMsg _ entries => entries.all fun e => pidOk e.1
  | .svcStatus c => decide (c.params.length < 2 ^ 32)
  | .svcIdentify c => decide (c.params.length < 2 ^ 32)
  | .dlBegin c => decide (c.params.length < 2 ^ 32)
  | .dlData c => decide (c.params.length < 2 ^ 32)
  | .dlEnd c => decide (c.params.length < 2 ^ 32)
  | .dlAbort c => decide (c.params.length < 2 ^ 32)
  | .recoveryBoot c => decide (c.params.length < 2 ^ 32)
  | .keyProgram c => decide (c.params.length < 2 ^ 32)
  | .gNop _ f _ | .gMpy _ f _ | .gMac _ f _ | .gMsu _ f _ | .gDmac _ f _ | .gCmach _ f _ | .gCmacl _ f _
  | .gCmacjl _ f _ | .gPwr _ f _ | .gClr _ f _ | .gAdd _ f _ | .gSub _ f _ | .gAddq _ f _ | .gSubq _ f _
  | .gAddw _ f _ | .gSubw _ f _ | .gBfly _ f _ | .gTfr _ f _ | .gNeg _ f _ | .gAbs _ f _ | .gAsr _ f _ | .gAsl _ f _
  | .gTst _ f _ | .gLdq _ f _ => xferWf f.x
  | .gStw _ f _ | .gLdwMem _ f _ | .gSavw _ f _ | .gRstw _ f _ => decide (f.reg.val < 4)
  | .nowFracRead _ | .tinPopRead _ _ | .sqTailWrite _ _ _ | .cqHeadWrite _ _ _ | .qpEnable _ _ _ | .qpDisable _ _ _
  | .ringHeadWrite _ _ _ | .dmaGo _ _ _ | .dmaAbort _ _ | .dmaDisarm _ _ | .dmaCqHeadWrite _ _ _ | .logHeadWrite _ _
  | .ucieLinkDown | .ucieLinkUp | .busMasterEnableChange _ _ | .functionLevelReset _ | .clauseWaitComplete _ _
  | .followEntryWrite _ _ | .sysNop _ | .sysIdentify _ _ | .sysRingDefine _ _ _ _ _ _ _ _ | .sysRingRelease _ _
  | .sysEnvelopeQuery _ _ | .laneGroupDefine _ _ _ _ | .laneGroupRelease _ _ _ | .laneSleep _ _ _ _ | .laneWake _ _ _
  | .laneTxPrecode _ _ _ | .laneSetThresholds _ _ _ | .laneEgressBind _ _ _ | .intakeStreamDefine _ _ _ _ _ _ _ _ _
  | .intakeStreamRelease _ _ | .intakeSetSkew _ _ | .intakeSetEpoch _ _ _ _ _
  | .intakeStatsDefine _ _ _ _ _ _ _ _ _ _ | .intakeStatsRelease _ _ | .corrInputMapFree _ _
  | .corrDefine _ _ _ _ _ _ _ _ _ _ _ | .corrRelease _ _ | .corrSuspend _ _ | .corrResume _ _ | .corrSetMode _ _ _
  | .corrPlanQuery _ _ | .corrSnapshot _ _ _ _ _ _ | .corrSetRoute _ _ _ | .corrSetOutput _ _ _
  | .corrIstoreQuery _ _ | .corrFaultInject _ _ _ _ _ _ _ | .beamRelease _ _ | .beamSuspend _ _ | .beamResume _ _
  | .beamDelaySwitch _ _ _ | .beamDelayMode _ _ | .beamSetGains _ _ _ _ _ | .beamSetScale _ _ _ _ _ _
  | .beamSetRoute _ _ _ _ | .beamImportBind _ _ _ _ _ _ | .beamQuery _ _ | .zoomProtoFree _ _ | .zoomRelease _ _
  | .zoomSuspend _ _ | .zoomResume _ _ | .zoomFirSwitch _ _ _ _ _ | .zoomSetTune _ _ _ | .zoomSetAlign _ _ _
  | .zoomSetDetect _ _ _ | .zoomRebaseline _ _ _ _ | .zoomCaptureNow _ _ _ | .zoomSetRoute _ _ _ _ | .zoomQuery _ _
  | .glossStart _ _ | .glossStop _ _ | .glossAttach _ _ _ _ _ _ _ _ _ _ _ _ _ _ _ _ | .glossDetach _ _
  | .glossSetRoute _ _ _ | .glossMemRead _ _ _ _ _ _ | .glossQuery _ _ | .timePortSet _ _ _ _ _ _
  | .timeServoSet _ _ _ _ | .timeAcceptStep _ _ | .timeSet _ _ | .timeOutSet _ _ _ _ _ _ | .timeInSet _ _ _ _
  | .timeQuery _ _ | .clockRefSet _ _ _ _ _ _ _ _ _ | .clockSelect _ _ _ | .clockDpllSet _ _ _ _ | .clockQuery _ _
  | .trimRun _ _ _ | .trimSetTrigger _ _ _ | .trimSave _ _ | .worldRegionSet _ _ _ _ _ _ | .worldAssign _ _ _ _ _
  | .worldQuotaSet _ _ _ | .worldQuery _ _ | .pairConfigure _ _ _ | .pairSwap _ _ | .pairResync _ | .pairQuery _ _
  | .updateActivate _ _ _ | .updateConfirm _ _ | .updateQuery _ _ | .powerHbmRate _ _ | .powerHbmRetrain _
  | .powerHbmState _ _ _ | .powerDomain _ _ _ _ | .diagErrorLog _ _ | .diagLoopback _ _ _ _ | .frameLock _
  | .lockLoss _ | .markerHypothesisTimeout _ | .fecWindowEnd _ | .bringupStepTimeout _ | .bringupRetry _
  | .txFrameSlot _ | .txSleepEnter _ | .precodeSwitch _ | .skewWindowExpiry | .streamDown _ | .cornerTurnHalfFree _ _
  | .channelDwellFinish | .stageBlockLoadDone _ _ | .superTileEnd | .narrowFold | .preemptionPoint
  | .contextSaveDone _ | .contextRestoreDone _ | .repairWorkStart | .spillCommit | .ringRecordOffer _
  | .ringDeclineTimeout _ | .ringCoalesceTimeout _ _ | .friezeRowProcess _ _ | .delaySwapCopyDone
  | .chainRowProcess _ _ | .detectIntervalEnd _ | .captureCopyDone _ | .timeOutPulse _ | .feedFrameCopy _ _
  | .waitfSatisfied _ | .emitOpenWaitEnd _ | .derivedRecordRelease _ | .gMov _ _ _ | .gLdi _ _ _ | .gRnd _ _ _
  | .gExpw _ _ _ | .gPaddi _ _ _ | .gSetbs _ _ _ | .gSetex _ _ _ | .gClrf _ _ _ | .gBexpr _ _ _ | .gLdw _ _ _
  | .gLd _ _ _ | .gSt _ _ _ | .gBra _ _ _ | .gBeq _ _ _ | .gBne _ _ _ | .gBlt _ _ _ | .gBge _ _ _ | .gCall _ _ _
  | .gRet _ _ _ | .gLoop _ _ _ _ | .gLoopd _ _ _ _ | .gLdil _ _ _ _ | .gWaitf _ _ _ | .gEmit _ _ _ | .gEvt _ _ _
  | .gHalt _ _ | .refreshDebtTick _ | .refreshIssue _ _ | .actTableClear _ | .patrolScrubRead _ | .retrainTimer
  | .retrainStepDone _ | .hbmRateChangeDone | .pcPowerdownIdle _ _ | .selfRefreshIdle | .granuleZeroFillDone
  | .dmaChannelStart _ | .dmaTransferDone _ | .dmaPowerDeferralTimeout _ | .domainPowerUpDone _
  | .ptpSyncRx _ _ _ | .ptpFollowUpRx _ _ | .ptpAnnounceRx _ _ | .ptpDelayRespRx _ _ | .delayReqSend _
  | .ptpMasterTimeout _ | .ethFrameForward _ _ _ _ | .refMonitorGateEnd _ _ | .refActivityFail _ | .phasePullEnd
  | .dpllSettled | .xoLost | .laneTrimWindowEnd _ _ | .levelTrimComputeDone _ | .gridTestInstance _ _ _ _ _ _
  | .dieTempRead _ | .logRecordWrite _ | .armLockstep | .armHang | .armRestarted _ | .armRestartStepTimeout
  | .seqOutvoted _ | .peerFault | .takeoverComplete | .aliveWindowEnd _ | .mirrorFrameRx _ _ | .mirrorPathTimeout
  | .mirrorRetransmit | .pad | .commit _ _ | .bulk _ _ | .syncDone _ _ _ | .swap _ _ | .leave _ | .formingTimeout
  | .plannedSwapRow | .swapAckDeadline | .resetRelease _ _ _ | .resetAssert | .pwrGoodFall | .thermalTrip | .vidStep
  | .updateActivationTime | .svcRead | .bringupStageDone _ _ | .tportLinkChange _ _ | .peerFaultNHigh
  | .holdoverHistoryValid | .vddIoRise => true

end Sys2Proof
end

