-- ==== Sys2Proof/Tests/Slice0.lean ====
section
/-! SUPPORT. Tests: for every statement with hypotheses a state and operands that meet them (wit_...), an ill-formed command
for each check of Instr.wf, Gloss words written out bit by bit, and the worked examples of the spec (test_...). The values
expected come from the spec. -/

open Sys2Proof Sys2Proof.Machine Sys2Proof.Safety

namespace Sys2Proof.Tests

set_option Elab.async false

/-- The first queue pair of F0. -/
def src : Src := { fn := .f0, qp := 0, seq := 0 }

/-- The state after a command. -/
def after (s : State) (c : Instr) : State :=
  match exec c s with
  | .next t => t
  | _ => s

/-- A running queue pair of 16 slots. -/
def runQp : Qp := { Reset.qp with enable := true, state := .running }

/-- Region 0 as the boot leaves it: all of HBM, secure. -/
def region0 : Region := { Reset.region with valid := true, size := 147450 }

def stackOn : Stack := { Reset.stack with state := .active, nSid := 4, dense := true, temp := 40, trainTemp := 40 }

/-- The die in service: firmware runs, six stacks of 16 GB, the host link up, an epoch set, the front started. -/
def ready : State :=
  { State.reset with
    link := { Reset.link with up := true, mod0 := 32, mod1 := 32,
                              f0 := { Reset.fn with bme := true, qps := Reset.fn.qps.set 0 runQp } }
    err := { Reset.err with service := true }
    boot := { Reset.boot with mode := .firmware, ready := true }
    world := { Reset.world with regions := Reset.world.regions.set 0 region0 }
    hbm := { Reset.hbm with ready := true, filled := true, rate := 6400, serving := [0, 1, 2, 3, 4, 5], capacity := 147450,
                            stackTab := Vector.replicate 6 stackOn }
    intake := { Reset.intake with epochSet := true, num := 1000000, den := 1, started := true, frontTime := some 0 } }

/-- A host buffer of a length. -/
def hbuf (n : Nat) : HBuf := { addr := 0, len := BitVec.ofNat 32 n }

/-- A block of `n` bytes with values placed at byte offsets. -/
def block (n : Nat) (l : List (Nat × Nat)) : List Byte := leBytes n ((l.map fun x => x.2 * 256 ^ x.1).sum)

/-- A chain block: one slot, no half-band, D 1, one tap, detection of 1,024 samples, a capture ring of 2 MiB. -/
def chainBlock : List Byte :=
  block 128 [(1, 1), (32, 1), (34, 1), (64, 10), (65, 8), (66, 10), (67, 4), (68, 512), (70, 256), (72, 1), (74, 1),
             (76, 1000), (80, 60), (104, 6), (105, 21), (108, 64), (112, 64), (120, 64 * 2097152)]

/-- A route to ring 0. -/
def toRing : U32 := 0x40

def positions : List Byte := (List.range 16).flatMap fun i => [BitVec.ofNat 8 i, 0]

/-- Lane group 0 to 7 is up, stream 0 has 16 inputs and 4 slots, map 0 names the inputs, ring 0 of 16 MiB is active. -/
def fed : State :=
  ({ ready with
    osl := { Reset.osl with rxGroups := [{ first := 0, code := 3, world := .secure, bondReported := false, up := true }] }
    intake := { ready.intake with
      streams := [(0, { Reset.stream with
        state := .up
        entry := some { first := 0, c8 := true, inBase := 0, inCount := 16, chBase := 0, chCount := 4, source := 0,
                        world := .secure, shared := false } })] }
    maps := [{ handle := 0, world := .secure, entries := List.range 16 }] }).setRing .f0 0
      { Reset.ring with state := .active, k := 24, vector := 16, coalesce := 1, wbAddr := 0x1000 }

/-- A secure product of F0 routed to ring 0. -/
def product (pid : Nat) (kind : PKind) : Product := newProduct pid kind .secure .f0 toRing Demand.zero 4096

/-- Correlation product 1: map 0, four channels of one group, 1,024 samples a dwell, one dwell an integration. -/
def corr1 : Corr :=
  { corrFields 1 0 0 0 4 10 1 4 0 with
    groups := [{ start := 0, stop := none, stopped := false, done := 0, output := 0, ints := [] }] }

/-- The corner-turn set of product 1. -/
def set1 : CtSet :=
  { id := 0, map := 0, chBase := 0, chCount := 4, log2Td := 10, c8 := true, world := .secure, firstDwell := 0,
    halves := Vector.replicate 2 { dwell := none, full := false }, hist := [] }

def withCorr : State :=
  { fed with products := [(1, product 1 .corr)], corrs := [corr1], intake := { fed.intake with sets := [set1] } }

/-- Frieze product 2: two beams of map 0 in records of 256 samples. -/
def beam2 : FzProd := { beamFields 2 0 0 0 4 2 0 8 0 4 4 with emit := [true, true], pages := [0, 1] }

def withBeam : State :=
  { fed with products := [(2, product 2 .beam)], frieze := { Reset.frieze with prods := [beam2] } }

/-- Chain 0 on beam 0, with ZOOM 3, EVENT 4 and CAPTURE 5. -/
def chain0 : Chain :=
  { Reset.chain with
    state := .run, zoom := 3, event := some 4, capture := some 5, detect := { Reset.chain.detect with log2N := 10 },
    ringBase := 64 * 2097152, ringLog2 := 21, pre := 64, post := 64, det := { Reset.detector with det := .learn } }

def withChain : State :=
  { withBeam with
    products := [(2, product 2 .beam), (3, product 3 .zoom), (4, product 4 .evt), (5, product 5 .capture)]
    chisel := { Reset.chisel with chains := Reset.chisel.chains.set 0 chain0 } }

/-- A Gloss image of two P words. -/
def imageBytes : List Byte :=
  let b := block 40 [(0, 0x6C05), (2, 1), (4, 2), (16, 40)]
  b.take 20 ++ leBytes 4 (crc32c b).toNat ++ b.drop 24

/-- Core 0 is loaded and attached as DERIVED product 6, with two emit slots of 2 MiB. -/
def attach6 : Attach :=
  { source := none, feedBase := 0, feedLog2 := 0, inBase := 0, inLog2 := 8, unpack := [], derived := 6,
    slotBase := 128 * 2097152, slotLog2 := 21, rate := 1000, head := 0, tail := 0, recs := [], declines := [],
    declining := false, detaching := false, gapMade := false }

def withCore : State :=
  ({ fed with products := [(6, product 6 .derived)] }).setCore 0
    { Reset.core with state := .loaded, commanded := .loaded, attach := some attach6 }

/-- Statistics product 7 of stream 0. -/
def withStats : State :=
  { fed with
    products := [(7, product 7 .stats)]
    intake := { fed.intake with
      stats := [{ pid := 7, stream := 0, inBase := 0, inCount := 16, chBase := 0, chCount := 4, log2Int := 16, post := false,
                  firstStart := 0, sums := [], stale := false, rows := 0, stopping := false }] } }

/-- What a named object gives meets a condition. -/
def okAnd {α : Type} (r : Except Reply α) (p : α → Bool) : Bool :=
  match r with
  | .ok x => p x
  | .error _ => false

/-! SYS (SysClausesComplete) -/

theorem wit_sysNop : serves ready (.sysNop src) = true := by decide +kernel
theorem wit_sysIdentify : serves ready (.sysIdentify src (hbuf 64)) = true ∧
  64 ≤ (hbuf 64).len.toNat := by decide +kernel
theorem wit_sysRingDefine : serves ready (.sysRingDefine src 63 63 1 1000000 0x1000 16 0) = true ∧
    accepts (ringDefine (untake ready src) .f0 63 63 1 1000000 0x1000 16 0) = true := by decide +kernel
theorem wit_sysRingRelease : serves fed (.sysRingRelease src 0) = true ∧
  accepts (ringRelease (untake fed src) .f0 0) = true := by
  decide +kernel
theorem wit_sysEnvelopeQuery : serves ready (.sysEnvelopeQuery src (hbuf 65535)) = true ∧
    (envelopeBlock (untake ready src) .f0).length ≤ (hbuf 65535).len.toNat := by decide +kernel

/-! Lanes (LaneClausesComplete) -/

/-- Transmit group 0 of one lane. -/
def withTx : State :=
  { ready with osl := { Reset.osl with txGroups := [{ first := 0, code := 0, world := .secure, bondReported := false, up := true }] } }

theorem wit_laneGroupDefine : serves ready (.laneGroupDefine src 40 3 0) = true ∧
    accepts (laneDefine (untake ready src) .f0 40 3 0) = true := by
  decide +kernel
theorem wit_laneGroupRelease : serves withTx (.laneGroupRelease src 0 1) = true ∧
    accepts (laneRelease (untake withTx src) .f0 0 1) = true := by decide +kernel
theorem wit_laneSleep : serves withTx (.laneSleep src 0 1 3) = true ∧
    accepts (laneTransition (untake withTx src) .f0 0 1 3 (3 == 0 || decide (3 > 3))) = true := by decide +kernel
theorem wit_laneWake : serves withTx (.laneWake src 0 1) = true ∧
    accepts (laneTransition (untake withTx src) .f0 0 1 0 false) = true := by decide +kernel
theorem wit_laneTxPrecode : serves withTx (.laneTxPrecode src 0 1) = true ∧
    accepts (laneTxPrecode (untake withTx src) .f0 0 1) = true := by decide +kernel
theorem wit_laneSetThresholds : serves fed (.laneSetThresholds src 0 1048576) = true ∧
    accepts (laneThresholds (untake fed src) .f0 0 1048576) = true := by decide +kernel
theorem wit_laneEgressBind : serves withTx (.laneEgressBind src 0 255) = true ∧
    accepts (laneEgressBind (untake withTx src) .f0 0 255) = true := by decide +kernel
theorem wit_diagLoopback : serves withTx (.diagLoopback src 0 1 2) = true ∧
    accepts (diagLoopback (untake withTx src) .f0 0 1 2) = true ∧ (2 : U8).toNat ≠ 0 := by decide +kernel

/-! Intake (IntakeClausesComplete) -/

/-- Stream 1: two inputs beside those of stream 0. -/
def aStream : StreamDef :=
  { first := 0, c8 := true, inBase := 16, inCount := 2, chBase := 0, chCount := 4, source := 0, world := .secure, shared := true }

theorem wit_intakeStreamDefine : serves fed (.intakeStreamDefine src 1 0 3 16 2 0 4 0) = true ∧
    accepts (streamDefine (untake fed src) .f0 1 aStream) = true := by decide +kernel
theorem wit_intakeStreamRelease : serves { fed with intake := { fed.intake with started := false } }
  (.intakeStreamRelease src 0) = true ∧
    accepts (streamRelease (untake { fed with intake := { fed.intake with started := false } } src) .f0 0) = true ∧
    { fed with intake := { fed.intake with started := false } }.intake.started = false := by decide +kernel
theorem wit_intakeSetSkew : serves { ready with intake := { ready.intake with started := false } } (.intakeSetSkew src
  20000) = true ∧
    accepts (setSkew (untake { ready with intake := { ready.intake with started := false } } src) 20000) = true ∧
    { ready with intake := { ready.intake with started := false } }.intake.started = false := by decide +kernel
theorem wit_intakeSetEpoch : serves ready (.intakeSetEpoch src (BitVec.ofNat 96 (999999999 * 65536)) 50000000 1
  1000000000) = true ∧
    accepts (setEpoch (untake ready src) (BitVec.ofNat 96 (999999999 * 65536)) 50000000 1 1000000000) = true := by
  decide +kernel
theorem wit_intakeSetGains : serves fed (.intakeSetGains src 0 15 1 3 1 (hbuf 2) (some [0, 16])) = true ∧
    accepts (setGains (untake fed src) .f0 0 15 1 3 1 (hbuf 2) (some [0, 16])) = true := by decide +kernel
theorem wit_intakeStatsDefine : serves fed (.intakeStatsDefine src 4095 0 0 16 0 4 20 0 toRing) = true ∧
    accepts (statsDefine (untake fed src) .f0
      { pid := 4095, stream := 0, inBase := 0, inCount := 16, chBase := 0, chCount := 4, log2Int := 20, post := false,
        firstStart := 0, sums := [], stale := false, rows := 0,
          stopping := false } 0 toRing) = true := by decide +kernel
theorem wit_intakeStatsRelease : serves withStats (.intakeStatsRelease src 7) = true ∧
    accepts (statsRelease (untake withStats src) .f0 7) = true := by decide +kernel

/-! Correlation (CorrClausesComplete) -/

/-- Product 1 is suspended. -/
def corrSuspended : State :=
  let s := withCorr
  s.setProduct 1 { (s.product 1).getD (newProduct 1 .corr .secure .f0 0 Demand.zero 0) with suspended := true }

theorem wit_corrInputMapLoad : serves ready (.corrInputMapLoad src (hbuf 32) (some positions)) = true ∧
    accepts (mapLoad (untake ready src) .f0 (hbuf 32) (some positions)) = true := by decide +kernel
theorem wit_corrInputMapFree : serves fed (.corrInputMapFree src 0) = true ∧
  accepts (mapFree (untake fed src) .f0 0) = true := by
  decide +kernel
theorem wit_corrDefine : serves fed (.corrDefine src 4095 0 0x24 0 4 16 1 4 0 toRing) = true ∧
    accepts (corrDefine (untake fed src) .f0 (corrFields 4095 0 0x24 0 4 16 1 4 0) 0x24 (bits 0x2C 3 2) toRing) = true
      := by
  decide +kernel
theorem wit_corrRelease : serves withCorr (.corrRelease src 1) = true ∧
    okAnd (namedCorr (untake withCorr src) .f0 1) (fun x => !stopping x.2) = true := by decide +kernel
theorem wit_corrSuspend : serves withCorr (.corrSuspend src 1) = true ∧
    okAnd (namedCorr (untake withCorr src) .f0 1) (fun x => !stopping x.2 && !x.1.suspended) = true := by decide +kernel
theorem wit_corrResume : serves corrSuspended (.corrResume src 1) = true ∧
    accepts (corrResume (untake corrSuspended src) .f0 1) = true ∧
      corrSuspended.pair.owedTakeovers = [] := by decide +kernel
theorem wit_corrSetMode : serves withCorr (.corrSetMode src 1 1) = true ∧
    accepts (corrSetMode (untake withCorr src) .f0 1 1) = true := by decide +kernel
theorem wit_corrSetRoute : serves withCorr (.corrSetRoute src 1 toRing) = true ∧
    okAnd (findProduct (untake withCorr src) 1 [.corr] 8) (fun p => accepts (setRoute (untake withCorr src) .f0 p
      toRing 12)) = true := by
  decide +kernel
theorem wit_corrSetOutput : serves withCorr (.corrSetOutput src 1 2) = true ∧
    accepts (corrSetOutput (untake withCorr src) .f0 1 2) = true := by decide +kernel
theorem wit_corrSnapshot : serves withCorr (.corrSnapshot src 1 0 1 (256 * 2097152) 2097152) = true ∧
    accepts (corrSnapshot (untake withCorr src) src 1 0 1 (256 * 2097152) 2097152) = true := by decide +kernel
/-- A report fits the longest buffer. -/
theorem wit_report (r : Report) : (Config.reportBytes r).length ≤ (hbuf (2 ^ 32 - 1)).len.toNat :=
  List.length_take_le _ _
theorem wit_corrQueries : serves ready (.corrPlanQuery src (hbuf (2 ^ 32 - 1))) = true ∧
    serves ready (.corrIstoreQuery src (hbuf (2 ^ 32 - 1))) = true := by decide +kernel
theorem wit_corrFaultInject : serves ready (.corrFaultInject src 31 0 255 1 31 2) = true ∧
    accepts (faultInject (untake ready src) 31 0 255 1 31 2) = true ∧
    accepts (faultInject (untake ready src) 0 0 0 0 0 0) = true := by decide +kernel

/-! Frieze (BeamClausesComplete) -/

/-- Product 2 suspended. -/
def beamSuspended : State := { withBeam with products := [(2, { product 2 .beam with suspended := true })] }
/-- The delay store in single-bank mode. -/
def singleBank : State := { withBeam with frieze := { withBeam.frieze with single := true } }
/-- Product 2 imports (TAIL). -/
def importing : State := { withBeam with frieze := { withBeam.frieze with prods := [{ beam2 with role := 3 }] } }
/-- Product 2 takes its gains from a named area. -/
def namedGains : State :=
  { withBeam with frieze := { withBeam.frieze with prods := [{ beam2 with ownArea := 0, area := 128 * 2097152 }] } }

theorem wit_beamDefine : serves fed (.beamDefine src 2 0 0 0 4 2 254 8 0 4 4 toRing (hbuf 544) (some (zeros 544))) =
  true ∧
    accepts (beamDefine (untake fed src) .f0 (beamFields 2 0 0 0 4 2 254 8 0 4 4) 0 0 4 4 toRing (hbuf 544)
      (some (zeros 544))) = true := by decide +kernel
theorem wit_beamRelease : serves withBeam (.beamRelease src 2) = true ∧
    okAnd (namedBeam (untake withBeam src) .f0 2) (fun x => x.2.stop.isNone && !beamChained withBeam x.2) = true := by
  decide +kernel
theorem wit_beamSuspend : serves withBeam (.beamSuspend src 2) = true ∧
    okAnd (namedBeam (untake withBeam src) .f0 2) (fun x => x.2.stop.isNone && !x.1.suspended) = true :=
      by decide +kernel
theorem wit_beamResume : serves beamSuspended (.beamResume src 2) = true ∧
    accepts (beamResume (untake beamSuspended src) .f0 2) = true ∧ beamSuspended.pair.owedTakeovers = [] := by
  decide +kernel
theorem wit_beamDelayLoad : serves withBeam (.beamDelayLoad src 2 1 1 (hbuf 128) (some (zeros 128))) = true ∧
    accepts (delayLoad (untake withBeam src) .f0 2 1 1 (hbuf 128) (some (zeros 128))) = true := by decide +kernel
theorem wit_beamDelaySwitch : serves ready (.beamDelaySwitch src (BitVec.ofNat 96 (50000 * 65536)) 0) = true ∧
    accepts (delaySwitch (untake ready src) (BitVec.ofNat 96 (50000 * 65536)) 0) = true := by decide +kernel
theorem wit_beamDelaySwap : serves singleBank (.beamDelaySwap src 2 1 (hbuf 128) (some (zeros 128))) = true ∧
    accepts (delaySwap (untake singleBank src) src 2 1 (hbuf 128) (some (zeros 128))) = true := by decide +kernel
theorem wit_beamDelayMode : serves ready (.beamDelayMode src 1) = true ∧
  accepts (delayMode (untake ready src) 1) = true := by
  decide +kernel
theorem wit_beamSetGains : serves namedGains (.beamSetGains src 2 0 0 0) = true ∧
    accepts (beamSetGains (untake namedGains src) src 2 0 0 0) = true := by decide +kernel
theorem wit_beamSetScale : serves withBeam (.beamSetScale src 2 1 1 39 63) = true ∧
    accepts (beamSetScale (untake withBeam src) .f0 2 1 1 39 63) = true ∧
      withBeam.fzProd 2 = some beam2 := by decide +kernel
theorem wit_beamSetRoute : serves withBeam (.beamSetRoute src 2 toRing 1) = true ∧
    accepts (beamSetRoute (untake withBeam src) .f0 2 toRing 1) = true := by decide +kernel
theorem wit_beamImportBind : serves importing (.beamImportBind src 2 0 77 4095 1000) = true ∧
    accepts (importBind (untake importing src) .f0 2 0 77 4095 1000) = true := by decide +kernel
theorem wit_beamQuery : serves ready (.beamQuery src (hbuf (2 ^ 32 - 1))) = true := by decide +kernel

/-! Chains (ZoomClausesComplete) -/

/-- Prototype 7 of one branch is loaded. -/
def withProto : State :=
  { fed with chisel := { fed.chisel with
    protos := fed.chisel.protos.set 7 (some { coefs := List.replicate 16 0, world := .secure }) } }
/-- Chain 0 with a seed, suspended or running. -/
def chainAs (c : Chain) : State := { withChain with chisel := { withChain.chisel with chains := withChain.chisel.chains.set 0 c } }
def chainSuspended : State := chainAs { chain0 with state := .suspended }

theorem wit_zoomProtoLoad : serves fed (.zoomProtoLoad src 1 (hbuf 64) (some (zeros 64))) = true ∧
    accepts (protoLoad (untake fed src) .f0 1 (hbuf 64) (some (zeros 64))) = true := by decide +kernel
theorem wit_zoomProtoFree : serves withProto (.zoomProtoFree src 7) = true ∧
    accepts (protoFree (untake withProto src) .f0 7) = true := by decide +kernel
theorem wit_zoomDefine : serves withBeam (.zoomDefine src 63 1 3 4 5 toRing toRing toRing (hbuf 128) (some chainBlock)
  (some [1, 0, 0, 0])) = true ∧
    accepts (zoomDefine (untake withBeam src) .f0 63 1 (zoomUses 3 4 5 toRing toRing toRing) (some 4) (some 5) (hbuf
      128)
      (some chainBlock) (some [1, 0, 0, 0])) = true := by decide +kernel
theorem wit_zoomRelease : serves withChain (.zoomRelease src 0) = true ∧
    okAnd (namedChain (untake withChain src) .f0 0) (fun c => c.stop.isNone) = true := by decide +kernel
theorem wit_zoomSuspend : serves withChain (.zoomSuspend src 0) = true ∧
    okAnd (namedChain (untake withChain src) .f0 0) (fun c => c.stop.isNone && c.state == .run) = true :=
      by decide +kernel
theorem wit_zoomResume : serves chainSuspended (.zoomResume src 0) = true ∧
    accepts (zoomResume (untake chainSuspended src) .f0 0) = true ∧
      chainSuspended.pair.owedTakeovers = [] := by decide +kernel
theorem wit_zoomFirLoad : serves withChain (.zoomFirLoad src 0 1 1 31 0 (hbuf 4) (some (zeros 4))) = true ∧
    accepts (firLoad (untake withChain src) .f0 0 1 1 31 0 (hbuf 4) (some (zeros 4))) = true := by decide +kernel
theorem wit_zoomFirSwitch : serves withChain (.zoomFirSwitch src 0 0 4096 1000000) = true ∧
    accepts (firSwitch (untake withChain src) .f0 0 0 4096 1000000) = true := by decide +kernel
theorem wit_zoomSetTune : serves withChain (.zoomSetTune src 0 (BitVec.ofNat 256 (256 + (2 ^ 48 - 1) * 256 ^ 16))) =
  true ∧
    accepts (setTune (untake withChain src) .f0 0 (leBytes 32 (256 + (2 ^ 48 - 1) * 256 ^ 16))) = true :=
      by decide +kernel
theorem wit_zoomSetAlign : serves withChain (.zoomSetAlign src 0 4095) = true ∧
    accepts (setAlign (untake withChain src) .f0 0 (leBytes 16 4095)) = true := by decide +kernel
theorem wit_zoomSetDetect : serves withChain (.zoomSetDetect src 0 (BitVec.ofNat 320 (field chainBlock 64 40))) = true ∧
    accepts (setDetect (untake withChain src) .f0 0 ((chainBlock.drop 64).take 40)) = true := by decide +kernel
theorem wit_zoomRebaseline : serves withChain (.zoomRebaseline src 0 1 1000) = true ∧
    accepts (rebaseline (untake withChain src) .f0 0 1 1000) = true ∧
    accepts (rebaseline (untake withChain src) .f0 0 2 0) = true := by decide +kernel
theorem wit_zoomCaptureNow : serves withChain (.zoomCaptureNow src 0 0) = true ∧
    accepts (captureNow (untake withChain src) .f0 0 0) = true ∧
      freeCapSlot withChain (withChain.chain 0) = some 0 := by
  decide +kernel
theorem wit_zoomSetRoute : serves withChain (.zoomSetRoute src 0 2 toRing) = true ∧
  withChain.product 5 = some (product 5 .capture) ∧
    accepts (setRoute (untake withChain src) .f0 (product 5 .capture) toRing 12) = true := by decide +kernel
theorem wit_zoomQuery : serves ready (.zoomQuery src (hbuf (2 ^ 32 - 1))) = true := by decide +kernel

/-! Gloss (GlossClausesComplete) -/

/-- Core 0 of `withCore` in a state. -/
def coreAs (x : CoreState) : State := withCore.setCore 0 { withCore.core 0 with state := x, commanded := x }

theorem wit_glossLoad : serves fed (.glossLoad src 31 (hbuf 40) (some imageBytes)) = true ∧
    accepts (glossLoadC (untake fed src) .f0 31 (hbuf 40) (some imageBytes)) = true := by decide +kernel
theorem wit_glossStart : serves withCore (.glossStart src 0) = true ∧ withCore.pair.owedTakeovers = [] ∧
    accepts (glossStartC (untake withCore src) .f0 0) = true := by decide +kernel
theorem wit_glossStop : serves (coreAs .running) (.glossStop src 0) = true ∧
    accepts (glossStopC (untake (coreAs .running) src) .f0 0) = true := by decide +kernel
theorem wit_glossAttach : serves fed (.glossAttach src 31 14 0xFFFF 4095 0 21 21 toRing 1000 0 0 0 0 0 (128 * 2097152))
  = true ∧
    accepts (glossAttachC (untake fed src) .f0 31 14 0xFFFF 4095 0 21 21 toRing 1000 [0, 0, 0,
      0] 0 (128 * 2097152)) = true := by
  decide +kernel
theorem wit_glossDetach : serves withCore (.glossDetach src 0) = true ∧
    okAnd (namedCore (untake withCore src) .f0 0) (fun c => c.attach.any fun a => !a.detaching) = true :=
      by decide +kernel
theorem wit_glossSetRoute : serves withCore (.glossSetRoute src 0 toRing) = true ∧
    accepts (glossSetRouteC (untake withCore src) .f0 0 toRing) = true := by decide +kernel
theorem wit_glossMemRead : serves (coreAs .halted) (.glossMemRead src 0 2 16383 1 (hbuf 4)) = true ∧
    accepts (memReadC (untake (coreAs .halted) src) src 0 2 16383 1 (hbuf 4)) = true ∧ 4 * 1 ≤ (hbuf 4).len.toNat := by
  decide +kernel
theorem wit_glossMemWrite : serves (coreAs .halted) (.glossMemWrite src 0 1 32767 1 (hbuf 4) (some [255, 255, 255,
  0])) = true ∧
    accepts (memWriteC (untake (coreAs .halted) src) .f0 0 1 32767 1 (hbuf 4) (some [255, 255, 255, 0])) = true := by
  decide +kernel
theorem wit_glossQuery : serves ready (.glossQuery src (hbuf (2 ^ 32 - 1))) = true := by decide +kernel

/-! Time and clock (TimeClausesComplete) -/

/-- A refused step waits for its acceptance. -/
def refusedStep : State := { ready with net := { ready.net with refusalOpen := true, refusedId := 9 } }
/-- Reference 4 is enabled. -/
def refOn : State := { ready with clock := { ready.clock with refs := ready.clock.refs.set 4 { Reset.ref 0 with rank := 1 } } }

theorem wit_timePortSet : serves ready (.timePortSet src 1 7 127 0 0) = true ∧
  accepts (timePortSet (untake ready src) 1 7 127 0 0) = true ∧
    ready.net.foreign = [] ∧ ready.net.master = none := by decide +kernel
theorem wit_timeServoSet : serves ready (.timeServoSet src 1000000000 5 1) = true ∧
    accepts (timeServoSet (untake ready src) 1000000000 5 1) = true ∧ ready.net.servo ≠ .locked := by decide +kernel
theorem wit_timeAcceptStep : serves refusedStep (.timeAcceptStep src 9) = true ∧
    accepts (acceptStep (untake refusedStep src) 9) = true := by decide +kernel
theorem wit_timeSet : serves ready (.timeSet src (BitVec.ofNat 96 (999999999 * 65536))) = true ∧
    accepts (Sys2Proof.Machine.timeSet (untake ready src) (BitVec.ofNat 96 (999999999 * 65536))) = true :=
      by decide +kernel
theorem wit_timeOutSet : serves ready (.timeOutSet src 3 2 1000000000 (BitVec.ofNat 96 (10000 * 65536)) (1000000010 *
  65536)) = true ∧
    accepts (timeOutSet (untake ready src) .f0 3 2 1000000000 (BitVec.ofNat 96 (10000 * 65536)) (1000000010 * 65536)) =
      true ∧
    accepts (timeOutSet (untake ready src) .f0 0 0 10 0 0) = true := by decide +kernel
theorem wit_timeInSet : serves ready (.timeInSet src 3 3 1) = true ∧
  accepts (timeInSet (untake ready src) .f0 3 3 1) = true := by
  decide +kernel
theorem wit_timeQueries : serves ready (.timeQuery src (hbuf (2 ^ 32 - 1))) = true ∧
  serves ready (.clockQuery src (hbuf (2 ^ 32 - 1))) = true := by decide +kernel
theorem wit_clockRefSet : serves ready (.clockRefSet src 0 15 10000000 10000 20000 50000 600000 3600000) = true ∧
    accepts (clockRefSet (untake ready src) 0 15 10000000 10000 20000 50000 600000 3600000) = true := by decide +kernel
theorem wit_clockSelect : serves refOn (.clockSelect src 1 4) = true ∧
  accepts (clockSelect (untake refOn src) 1 4) = true ∧
    accepts (clockSelect (untake refOn src) 0 0) = true := by decide +kernel
theorem wit_clockDpllSet : serves ready (.clockDpllSet src 11 100000 200000) = true ∧
    accepts (clockDpllSet (untake ready src) 11 100000 200000) = true := by decide +kernel

/-! Trims and worlds (TrimWorldClausesComplete) -/

theorem wit_trimRun : serves ready (.trimRun src 4 0xFFFF) = true ∧
  accepts (trimRun (untake ready src) 4 0xFFFF) = true ∧
    bitOf 4 2 = true := by decide +kernel
theorem wit_trimSetTrigger : serves ready (.trimSetTrigger src 4 50000) = true ∧
    accepts (trimSetTrigger (untake ready src) 4 50000) = true ∧
      accepts (trimSetTrigger (untake ready src) 1 0) = true := by
  decide +kernel
theorem wit_trimSave : serves ready (.trimSave src (hbuf 65536)) = true ∧
    (trimImage (untake ready src)).length ≤ (hbuf 65536).len.toNat := by decide +kernel
theorem wit_worldRegionSet : serves ready (.worldRegionSet src 63 0 7 0 0) = true ∧
    accepts (regionSet (untake ready src) 63 0 7 0 0) = true := by decide +kernel
theorem wit_worldAssign : serves ready (.worldAssign src 2 255 1 1) = true ∧
    accepts (worldAssign (untake ready src) 2 255 1 1) = true := by decide +kernel
theorem wit_worldQuotaSet : serves ready (.worldQuotaSet src 18 64) = true ∧
    accepts (quotaSet (untake ready src) src 18 64) = true ∧
      usage (untake ready src) 18 ≤ (64 : Nat) := by decide +kernel
theorem wit_worldQuery : serves ready (.worldQuery src (hbuf (2 ^ 32 - 1))) = true := by decide +kernel

/-! Pair, update, power, diagnosis (DeviceClausesComplete) -/

/-- An active, protected unit with its standby. -/
def guardedActive : State :=
  { ready with pair := { Reset.pair with role := .active, guarded := true, synced := true, peer := some (.standby, true, true) } }
/-- Slot 1 holds a header. -/
def withImage : State := { ready with boot := { ready.boot with slotB := { header := some (zeros 512), chunks := [] } } }
/-- Firmware on trial in slot 0. -/
def onTrial : State := { ready with boot := { ready.boot with trial := true } }
/-- Domain 5 is off. -/
def domainOff : State := { ready with power := { ready.power with domainOn := 0xDF } }

theorem wit_pairConfigure : serves ready (.pairConfigure src 1 77) = true ∧
  accepts (pairConfigure (untake ready src) true 77) = true ∧
    accepts (pairConfigure (untake guardedActive src) false 0) = true := by decide +kernel
theorem wit_pairSwap : serves guardedActive (.pairSwap src (BitVec.ofNat 96 (1000000 * 65536))) = true ∧
  accepts (pairSwap (untake guardedActive src) 0) = true ∧
    accepts (pairSwap (untake guardedActive src) (BitVec.ofNat 96 (1000000 * 65536))) = true := by decide +kernel
theorem wit_pairResync : serves guardedActive (.pairResync src) = true ∧
    accepts (pairResync (untake guardedActive src)) = true := by decide +kernel
theorem wit_pairQuery : serves ready (.pairQuery src (hbuf (2 ^ 32 - 1))) = true := by decide +kernel
theorem wit_updateConfirm : serves onTrial (.updateConfirm src 0) = true ∧ onTrial.boot.trial = true ∧
  0 = onTrial.boot.runSlot := by
  decide +kernel
theorem wit_updateQuery : serves ready (.updateQuery src (hbuf 192)) = true ∧
    accepts (updateQuery (untake ready src) src (hbuf 192)) = true ∧ newestRecord ready = none := by decide +kernel
theorem wit_powerHbmRate : serves ready (.powerHbmRate src 8000) = true ∧
    accepts (hbmRate (untake ready src) src 6400) = true ∧ accepts (hbmRate (untake ready src) src 8000) = true := by
  decide +kernel
theorem wit_powerHbmRetrain : serves ready (.powerHbmRetrain src) = true ∧ ready.hbm.step = .idle ∧
  ready.hbm.ready = true ∧
    ready.hbm.ratePending = none := by decide +kernel
theorem wit_powerHbmState : serves ready (.powerHbmState src 2 0) = true ∧
  accepts (hbmState (untake ready src) 2 0) = true ∧
    accepts (hbmState (untake ready src) 0 63) = true := by decide +kernel
theorem wit_powerDomain : serves domainOff (.powerDomain src 5 0 1000000) = true ∧
    accepts (powerDomain (untake domainOff src) 5 0 1000000) = true ∧
    accepts (powerDomain (untake domainOff src) 5 1 0) = true ∧ domainOff.power.domainOn.getLsbD 5 = false := by
  decide +kernel
theorem wit_diagErrorLog : serves ready (.diagErrorLog src (hbuf 0)) = true ∧
    ((unconsumed ((untake ready src).log .f0)).flatMap errBytes).length ≤ (hbuf 0).len.toNat := by decide +kernel

/-! Gloss instructions (GlossMultiplyResults to GlossTrapsStop) -/

/-- Core 31 RUNNING with a state of its own and an instruction at address 16383, the last of P. -/
def running (c : Core) (g : GInstr) : State :=
  ready.setCore 31 { c with state := .running, commanded := .running, pc := 16383,
                            prog := wordPutAll 0 [g.encode.2] (wordPutAll 16383 [g.encode.1] []) }

def pf : PF := { a := 3, m := 7, n := 7, x := .none }
def rf : RF := { dst := 8, src := 9, imm := 0x3FFF }
def mf : MF := { inY := true, reg := 3, ptr := 7, upd := .step, sh := 31 }
def ef (mode : Fin 8) (opn : Bool) : EF :=
  { inY := false, ptr := 7, v := 7, mode := mode, opn := opn, cls := false, avok := false, vreq := false }

theorem wit_multiplies : ∀ op ∈ [POp.mpy, .mac, .msu, .dmac, .cmach, .cmacl, .cmacjl, .pwr],
    runs (running Reset.core (.p op pf)) 31 (.p op pf) .clean = true := by decide +kernel
theorem wit_aluOps : ∀ op ∈ [POp.clr, .add, .sub, .addq, .subq, .tfr, .neg, .abs, .tst, .nop, .ldq],
    runs (running Reset.core (.p op { pf with n := 0 })) 31 (.p op { pf with n := 0 }) .corrected = true := by decide +kernel
theorem wit_aluAccs : ∀ op ∈ [POp.addw, .subw, .bfly],
    runs (running Reset.core (.p op { pf with n := 2 })) 31 (.p op { pf with n := 2 }) .clean = true ∧ pf.a.val ≠ 2 % 4 := by
  decide +kernel
theorem wit_aluShifts : ∀ op ∈ [POp.asr, .asl], runs (running Reset.core (.p op pf)) 31 (.p op pf) .clean = true := by
  decide +kernel
theorem wit_registerOps : ∀ op ∈ [ROp.mov, .ldi, .rnd, .expw, .paddi, .setbs, .setex, .clrf, .bexpr, .ldw], ∃ f : RF,
    runs (running Reset.core (.r op f)) 31 (.r op f) .clean = true := by
  intro op h
  simp only [List.mem_cons, List.not_mem_nil, or_false] at h
  rcases h with rfl | rfl | rfl | rfl | rfl | rfl | rfl | rfl | rfl | rfl
  · exact ⟨{ dst := 31, src := 31, imm := 0 }, by decide +kernel⟩
  · exact ⟨{ dst := 7, src := 0, imm := 0x3FFF }, by decide +kernel⟩
  · exact ⟨{ dst := 7, src := 3, imm := 31 }, by decide +kernel⟩
  · exact ⟨{ dst := 7, src := 3, imm := 0 }, by decide +kernel⟩
  · exact ⟨{ dst := 7, src := 0, imm := 0x3FFF }, by decide +kernel⟩
  · exact ⟨{ dst := 7, src := 7, imm := 0 }, by decide +kernel⟩
  · exact ⟨{ dst := 7, src := 7, imm := 0 }, by decide +kernel⟩
  · exact ⟨{ dst := 0, src := 0, imm := 7 }, by decide +kernel⟩
  · exact ⟨{ dst := 7, src := 0, imm := 0 }, by decide +kernel⟩
  · exact ⟨{ dst := 3, src := 7, imm := 0 }, by decide +kernel⟩
theorem wit_memoryOps : ∀ op ∈ [MOp.ld, .st, .stw, .ldw, .savw, .rstw], ∃ f : MF,
    runs (running Reset.core (.m op f)) 31 (.m op f) .clean = true ∧ wordWfFrom 0 Reset.core.x = true ∧
      wordWfFrom 0 Reset.core.y = true := by
  intro op h
  simp only [List.mem_cons, List.not_mem_nil, or_false] at h
  rcases h with rfl | rfl | rfl | rfl | rfl | rfl
  · exact ⟨{ mf with reg := 7, sh := 0 }, by decide +kernel⟩
  · exact ⟨{ mf with reg := 7, sh := 0 }, by decide +kernel⟩
  · exact ⟨mf, by decide +kernel⟩
  · exact ⟨{ mf with sh := 0 }, by decide +kernel⟩
  · exact ⟨{ mf with sh := 0 }, by decide +kernel⟩
  · exact ⟨{ mf with sh := 0 }, by decide +kernel⟩

/-- A core whose call stack holds one return, and one whose stacks are full. -/
def called : Core := { Reset.core with calls := [5] }
def stacked : Core :=
  { Reset.core with calls := List.replicate 8 0, loops := List.replicate 4 { first := 0, last := 1, left := 2 },
                    v := Vector.replicate 8 1 }
/-- A core with an attachment, and one with an open record too; V7 holds 32,768. -/
def attached : Core := { Reset.core with attach := some attach6, v := Vector.replicate 8 32768 }
def opened : Core := { attached with opened := some { header := [], slot := 0, len := 0 } }

theorem wit_branches : ∀ op ∈ [BOp.bra, .beq, .bne, .blt, .bge, .call],
    runs (running Reset.core (.branch op 16383)) 31 (.branch op 16383) .clean = true ∧ Reset.core.calls.length < 8 := by
  decide +kernel
theorem wit_ret : runs (running called (.branch .ret 0)) 31 (.branch .ret 0) .clean = true ∧ called.calls = [5] := by
  decide +kernel
theorem wit_loops : runs (running Reset.core (.loop 1023 16383)) 31 (.loop 1023 16383) .clean = true ∧
    runs (running Reset.core (.loopd 7 0)) 31 (.loopd 7 0) .clean = true ∧ Reset.core.loops.length < 4 := by decide +kernel
theorem wit_ldil : runs (running Reset.core (.ldil 9 0xFFFFFF)) 31 (.ldil 9 0xFFFFFF) .clean = true := by decide +kernel
theorem wit_waitf : runs (running attached (.waitf 256)) 31 (.waitf 256) .clean = true ∧
    (if (256 : BitVec 14) = 0 then 16384 else (256 : BitVec 14).toNat) ≤ inboundLen attached := by decide +kernel
theorem wit_evt_halt : runs (running Reset.core (.evt 7)) 31 (.evt 7) .clean = true ∧
    runs (running Reset.core .halt) 31 .halt .clean = true := by decide +kernel
theorem wit_emitPiece : runs (running opened (.emit (ef 4 false))) 31 (.emit (ef 4 false)) .clean = true ∧
    opened.attach = some attach6 ∧ opened.opened.isSome = true ∧ opened.vr 7 = 32768 := by decide +kernel
theorem wit_emitWaits : runs (running Reset.core (.emit (ef 0 true))) 31 (.emit (ef 0 true)) .clean = true ∧
    Reset.core.attach = none ∧ Reset.core.opened = none := by decide +kernel
theorem wit_emitOpens : runs (running attached (.emit (ef 0 true))) 31 (.emit (ef 0 true)) .clean = true ∧
    attach6.detaching = false ∧ attached.opened = none ∧ vget attached.slots 0 .opened = .free ∧ attached.vr 7 = 32768 := by
  decide +kernel
theorem wit_stackTraps : runs (running { stacked with loops := [] } (.branch .call 0)) 31 (.branch .call 0) .clean = true ∧
    runs (running Reset.core (.branch .ret 0)) 31 (.branch .ret 0) .clean = true ∧
    runs (running stacked (.loop 0 0)) 31 (.loop 0 0) .clean = true ∧
    runs (running stacked (.loopd 0 0)) 31 (.loopd 0 0) .clean = true ∧ 8 ≤ stacked.calls.length ∧
    4 ≤ stacked.loops.length ∧ stacked.vr 0 % 65536 ≠ 0 ∧ stacked.attach = none := by decide +kernel
theorem wit_feedTraps : runs (running Reset.core (.waitf 0)) 31 (.waitf 0) .clean = true ∧
    runs (running Reset.core (.emit (ef 5 true))) 31 (.emit (ef 5 true)) .clean = true ∧
    runs (running { Reset.core with opened := opened.opened } (.emit (ef 0 true))) 31 (.emit (ef 0 true)) .clean = true := by
  decide +kernel

/-! Registers (RegisterAccesses, QueueRegisterWrites) -/

/-- An edge waits in FIFO 3 of F1. -/
def edged : State :=
  { ready with net := { ready.net with in1 := ready.net.in1.set 3 { Reset.timeIn with
      fifo := [{ falling := true, gen := 0, time := 5 }] } } }
theorem wit_registers : (0x104 % 4 = 0 ∧ denied ready .f1 0x104 = true) ∧ (3 % 4 ≠ 0 ∨ 4 ≠ 4) ∧
    (0x30010 % 4 = 0 ∧ denied ready .f1 0x30010 = false ∧ hiOf 0x30010 = some 0x30014) ∧
    (edged.tin .f1 3).fifo = [{ falling := true, gen := 0, time := 5 }] := by decide +kernel

/-- Pair 7 of F0 with two Clauses outstanding and one entry unread. -/
def busyQp : Qp := { runQp with sqTail := 2, cqTail := 1 }
def withPair (q : Qp) : State :=
  { ready with link := { ready.link with f0 := { ready.link.f0 with qps := (ready.link.f0.qps.set 7 q) } } }
theorem wit_tails : (withPair busyQp).qp .f0 7 = busyQp ∧ ((16 : U32).setWidth 16 - busyQp.sqHead).toNat ≤ sqDepth busyQp ∧
    sqDepth busyQp < ((17 : U32).setWidth 16 - busyQp.sqHead).toNat ∧
    ((1 : U32).setWidth 16 - busyQp.cqHead).toNat ≤ cqUsed busyQp ∧ busyQp.owed = [] ∧ busyQp.state = .running ∧
    cqUsed busyQp < ((2 : U32).setWidth 16 - busyQp.cqHead).toNat := by decide +kernel
theorem wit_enables : Reset.qp.state = .disabled ∧ bitOf (0x1B9 : U32).toNat 0 = true ∧
    configOk (ctrlSizes Reset.qp 0x1B9) = true ∧ configOk (ctrlSizes Reset.qp 0x1) = false ∧
    bitOf (0 : U32).toNat 0 = false ∧ runQp.waiting = none ∧ runQp.owed = [] ∧ unanswered ready .f0 0 = false := by
  decide +kernel
/-- Ring 0 of `fed` with 64 bytes written. -/
def halfRead : Ring := { fed.ring .f0 0 with tail := 64 }
theorem wit_ringHeads : halfRead.state ≠ .undefined ∧ halfRead.declines = [] ∧
    halfRead.head ≤ { halfRead with headLo := 64 }.headLo.toNat + (0 : U32).toNat * 2 ^ 32 ∧
    { halfRead with headLo := 64 }.headLo.toNat + (0 : U32).toNat * 2 ^ 32 ≤ halfRead.tail ∧
    halfRead.tail < halfRead.headLo.toNat + (1 : U32).toNat * 2 ^ 32 := by decide +kernel
/-- A log with one unread entry. -/
def log1 : ErrLog := { Reset.errLog with tail := 1 }
theorem wit_logHeads : ((1 : U32).setWidth 16 - log1.head).toNat ≤ (log1.tail - log1.head).toNat ∧ log1.lostSince = 0 ∧
    (log1.tail - log1.head).toNat < ((2 : U32).setWidth 16 - log1.head).toNat := by decide +kernel

/-! Queue service and host link (QueueServiceEvents, HostLinkEvents) -/

/-- The visit stands at pair 7. -/
def visiting (q : Qp) : State := { withPair q with err := { ready.err with visit := 7 } }
theorem wit_visit : idleArmature (visiting busyQp) = true ∧ visitFn 7 = .f0 ∧
    eligible (visiting busyQp) .f0 7 = true ∧ field (zeros 64) 4 4 = busyQp.expectSeq.toNat ∧
    precheck .f0 (zeros 64) = none ∧ (visiting busyQp).err.service = true ∧
    seqMatches busyQp (some (leBytes 64 (2 ^ 32))) = false ∧ seqMatches busyQp none = false := by decide +kernel
theorem wit_reread : retrying (visiting { busyQp with retry := some 1 }) = some (.f0, 7) ∧
    (visiting { busyQp with retry := some 1 }).reach .f0 = true ∧ (1 : Nat) < 2 ∧
    seqMatches { busyQp with retry := some 1 } none = false ∧ field (zeros 64) 4 4 = busyQp.expectSeq.toNat ∧
    precheck .f0 (zeros 64) = none := by decide +kernel
/-- One completion entry is owed. -/
def oweOne : Completion :=
  { seq := 1, status := 2, follow := true, followDue := false, kind := 0, a := 0, b := 0, c := 0, opcode := 0 }
theorem wit_follow : (withPair { runQp with owed := [oweOne] }).world.cuts = [] ∧
    (withPair { runQp with owed := [oweOne] }).reach .f0 = true ∧
    cqUsed { runQp with owed := [oweOne] } < 2 * sqDepth { runQp with owed := [oweOne] } := by decide +kernel
theorem wit_waitComplete : (0x0702 : U16).toNat ≠ 0x0C01 ∧
    waitReached ready { fn := .f0, qp := 7, seq := 1 } { opcode := 0x0702, seq := 1, args := [] } = true := by decide +kernel
theorem wit_deferred : withBeam.power.inReset = false ∧ withBeam.product 2 = some (product 2 .beam) ∧
    (product 2 .beam).kind ≠ .corr := by decide +kernel
theorem wit_links : ready.link.up = true ∧ { ready.link with up := false }.mod0 + { ready.link with up := false }.mod1 ≠ 0 ∧
    (ready.fn .f0).bme ≠ false ∧ (ready.fn .f1).bme ≠ true := by decide +kernel
theorem wit_flr : (∀ ch, ch < 36 → (ready.channel ch).act = none) ∧ ready.power.changing = [] ∧
    ready.power.stacksGoing = none := by decide +kernel

/-! HBM (HbmServiceEvents, HbmMaintenanceEvents) -/

/-- The last byte of HBM: stack 5, pseudo-channel 31. Its row is open. -/
def lastByte : Nat := 147450 * 2097152 - 1
def rowOpen : State := { ready with hbm := { ready.hbm with banks := [(12266, { Reset.bank with opened := some 24575 })] } }
def readLast : HbmReq := { addr := lastByte, kind := .read, overtaken := 0 }
theorem wit_requestServe : rowOpen.hbm.serving.contains 5 = true ∧ rowOpen.hbm.rateRunning = false ∧
    (rowOpen.pcAt (pcKey 5 31)).queue = [] ∧ readLast.kind = .read ∧
    (hbmPlace rowOpen readLast.addr).any (fun p => p.stack == 5 && p.pc == 31 &&
      decide ((rowOpen.bankAt (bankKey p)).opened = some p.row)) = true ∧
    poisoned rowOpen readLast.addr (readLast.addr + 1) = false := by decide +kernel
/-- Pseudo-channel 31 of stack 5 owes two refreshes. -/
def inDebt : State := { ready with hbm := { ready.hbm with pcs := [(191, { Reset.pc with debt := 2 })] } }
theorem wit_refresh : (inDebt.stack 5).state = .active ∧ inDebt.hbm.rateRunning = false ∧ (inDebt.pcAt 191).debt ≠ 0 ∧
    (inDebt.pcAt 191).queue = [] ∧ (ready.pcAt 191).debt = 0 := by decide +kernel
theorem wit_hbmTemp : (ready.stack 0).state = .active ∧ 48 ≤ 100 ∧ 48 ≤ (ready.stack 0).trainTemp + 8 ∧
    (ready.stack 0).trainTemp ≤ 48 + 8 := by decide +kernel
theorem wit_scrub : 0 % 8 = 0 ∧ 4831641600 = ready.hbm.capacity * 32768 ∧ ready.hbm.rateRunning = false := by decide +kernel
theorem wit_sleep : { inDebt with hbm := { inDebt.hbm with sleeping := true } }.hbm.sleeping = true ∧
    inDebt.hbm.rateRunning = false ∧ (∀ k, k ∈ inDebt.hbm.pcs → k.2.queue = []) := by decide +kernel

/-- The stacks are in a retraining step, or a rate change is running. -/
def retraining (t : TrainStep) : State := { ready with hbm := { ready.hbm with step := t } }
def changing : State := { ready with hbm := { ready.hbm with ratePending := some 8000, rateRunning := true } }
theorem wit_retrain : ready.hbm.step = .idle ∧ ready.hbm.ready = true ∧ ready.hbm.ratePending = none ∧
    { ready with plinth := { ready.plinth with sec := 600 } }.hbm.trainTime + 600 * second ≤
      { ready with plinth := { ready.plinth with sec := 600 } }.now ∧
    (retraining .readEye).hbm.step = .readEye ∧ (retraining .readEye).hbm.ratePending = none ∧
    (retraining .writeEye).hbm.step = .writeEye ∧ (retraining .writeEye).hbm.ratePending = none := by decide +kernel
theorem wit_rateChange : changing.hbm.ratePending = some 8000 ∧ changing.hbm.rateRunning = true ∧ changing.hbm.rateSrc = none ∧
    changing.hbm.held = [] ∧ changing.boot.trial = false := by decide +kernel
/-- Stacks 4 and 5 train, the others are off. -/
def training : State :=
  { ready with hbm := { ready.hbm with
    stackTab := ((Vector.replicate 6 Reset.stack).set 4 { Reset.stack with state := .training }).set 5
      { Reset.stack with state := .training } } }
def trainingOne : State :=
  { ready with hbm := { ready.hbm with
    stackTab := (Vector.replicate 6 Reset.stack).set 5 { Reset.stack with state := .training } } }
theorem wit_stackTrained : (training.stack 5).state = .training ∧ (4 : Fin 6) ≠ 5 ∧ (training.stack 4).state = .training ∧
    (∀ k : Fin 6, k = 5 ∨ (training.stack k.val).state ≠ .active) ∧
    configAgrees (training.setStack 5 { training.stack 5 with nSid := 4, dense := true, state := .active }) 5
      { training.stack 5 with nSid := 4, dense := true, state := .active } = true := by decide +kernel
theorem wit_stackFailed : (trainingOne.stack 5).state = .training ∧ trainingOne.boot.ready = true ∧
    (∀ k : Fin 6, k = 5 ∨ (trainingOne.stack k.val).state = .off) ∧ (∀ k, k ∈ trainingOne.hbm.pcs → k.2.queue = []) := by decide +kernel
theorem wit_zeroFill : { ready with world := { ready.world with fill := some { granules := [9] } } }.world.fill =
    some { granules := [9] } := by decide +kernel
theorem wit_domainUp : { ready with power := { ready.power with changing := [{ domain := 7, off := false, limit := 0 }] } }.power.changing =
    [{ domain := 7, off := false, limit := 0 }] := by decide +kernel

/-! DMA and BAR2 (DmaRegisterWrites, DmaTransferEvents) -/

/-- A transfer of 1,024 bytes from host memory to HBM. -/
def dmaIn : DmaSet := { Reset.dmaSet with src := 0x10000, dst := 0x100, len := 1024, srcSpace := 0, dstSpace := 1 }
def act : Active :=
  { set := dmaIn, running := true, endAs := none, ended := false, power := false, silent := false, done := 0, crc := 0,
    poisoned := false, visible := none }
/-- Channel `ch` with a completion queue. -/
def withChannel (ch : Fin 36) (c : Channel) : State :=
  { ready with dma := { Reset.dma with channels := Reset.dma.channels.set ch.val c } }
def chan : Channel := { Reset.channel with cqEnable := true }
theorem wit_dmaGo : (withChannel 35 chan).channel 35 = chan ∧ engineOf 35 ≠ 2 ∧ chanVisible (withChannel 35 chan) .f0 35 = true ∧
    bitOf (0 : U32).toNat 9 = false ∧ bitOf (0 : U32).toNat 10 = false ∧ chan.armed = false ∧ chan.cqEnable = true ∧
    chan.act = none ∧ { chan with act := some act }.act = some act ∧ { chan with armed := true }.armed = true := by
  decide +kernel
theorem wit_dmaAbort : act.running = true ∧ act.ended = false ∧ act.endAs = none ∧ act.done ≠ act.set.len.toNat ∧
    ready.power.changing = [] ∧ ready.power.stacksGoing = none ∧
    (BitVec.ofNat 16 1 - { chan with cqTail := 1 }.cqHead).toNat ≤ dmaUsed { chan with cqTail := 1 } ∧
    dmaUsed { chan with cqTail := 1 } < (BitVec.ofNat 16 2 - { chan with cqTail := 1 }.cqHead).toNat ∧
    chanVisible (withChannel 35 chan) .f1 35 = false := by decide +kernel
theorem wit_dmaStart : (withChannel 7 { chan with act := some { act with running := false } }).err.fault = false ∧
    engineBusy (withChannel 7 { chan with act := some { act with running := false } }) 0 = false ∧
    (roundRobin (withChannel 7 { chan with act := some { act with running := false } }) 0).find?
      (fun k => canStart ((withChannel 7 { chan with act := some { act with running := false } }).channel k)) = some 7 ∧
    transferCheck (withChannel 7 { chan with act := some { act with running := false } }) 7 dmaIn = none ∧
    (withChannel 7 chan).hbm.poison = [] := by decide +kernel
theorem wit_dmaBurst : burstHeld (withChannel 7 { chan with act := some act }) 7 dmaIn = false ∧ dmaIn.srcSpace = 0 ∧
    dmaIn.dstSpace = 1 ∧ burstLen act = 256 := by decide +kernel
theorem wit_dmaDone : { act with done := 1024 }.done = act.set.len.toNat ∧ act.silent = false ∧ act.set.irq = false ∧
    chan.cqHbm = false ∧ dmaRoom chan = true ∧
    (withChannel 7 chan).reach (fnOf (chanWorld (withChannel 7 chan) 7)) = true := by decide +kernel
theorem wit_dmaPower : touchesDomain 35 3 = true ∧
    { ready with power := { ready.power with changing := [{ domain := 3, off := true, limit := 0 }] } }.power.changing =
      [{ domain := 3, off := true, limit := 0 }] ∧ 0 ≤ ready.now := by decide +kernel
theorem wit_bar2 : hbmReachable ready (worldOf .f0) lastByte 1 = true ∧ hbmReachable ready (worldOf .f0) lastByte 2 = false ∧
    hbmReachable ready (worldOf .f1) 0 4 = false ∧ inOwnArea ready lastByte 1 = false ∧ ready.hbm.poison = [] ∧
    ready.hbm.rateRunning = false ∧ hbmReachable changing (worldOf .f0) lastByte 1 = true ∧
    inOwnArea changing lastByte 1 = false ∧ changing.hbm.rateRunning = true := by
  decide +kernel

/-! Lanes (LaneReceiveEvents, LaneTransmitEvents) -/

def withLane (l : Fin 52) (x : Lane) : State := { ready with osl := { Reset.osl with lanes := Reset.osl.lanes.set l.val x } }
def searching : Lane := { Reset.lane with rx := .search, tried := 63, markers := 3, winFrames := 4095 }
def lockedLane : Lane := { Reset.lane with rx := .up, locked := true, winFrames := 4095 }
theorem wit_frameRx : (withLane 51 searching).lane 51 = searching ∧ searching.rxOps = [] ∧
    (withLane 51 searching).power.inReset = false ∧ searching.loopback = 0 ∧ searching.locked = false ∧
    searching.retryDue = false ∧ searching.tried < 64 ∧ searching.markers < 4 ∧ searching.winFrames < 4096 ∧
    lockedLane.rxOps = [] ∧ lockedLane.loopback = 0 ∧ lockedLane.tried < 64 ∧ dropDue lockedLane = false ∧
    (List.replicate 13600 (0 : BitVec 2)).length = 13600 := by decide +kernel
theorem wit_lock : 4 ≤ { searching with markers := 4 }.markers ∧ dropDue { lockedLane with misses := 4 } = true ∧
    lockedLane.peerSleep = false ∧ ((withLane 0 lockedLane).laneTrim 0).run = none ∧
    4096 ≤ { lockedLane with winFrames := 4096 }.winFrames ∧ bringingUp { Reset.lane with rx := .pll } = true := by
  decide +kernel
theorem wit_retries : { searching with retryDue := true }.retryDue = true ∧ { searching with retryDue := true }.bondRetry = false ∧
    { searching with retryDue := true, bondRetry := true }.bondRetry = true ∧ { Reset.lane with rx := .pll }.rx = .pll ∧
    { Reset.lane with tx := .pll }.tx = .pll ∧ { Reset.lane with tx := .pll }.txOps = [] := by decide +kernel

/-- Lane 47 transmits for group 47; a frame of egress 0 is ready. -/
def sending : State :=
  { withLane 47 { Reset.lane with tx := .active } with
    osl := { (withLane 47 { Reset.lane with tx := .active }).osl with
      txGroups := [{ first := 47, code := 0, world := .secure, bondReported := false, up := true }]
      frames := [{ group := 47, egress := 0, seq := 0, pos := 0, firstRec := none, recs := [], bytes := zeros 3072, ready := 0 }] } }
theorem wit_txSlot : (sending.lane 47).tx = .active ∧ (sending.lane 47).loopback = 0 ∧ (sending.lane 47).txSleep = none ∧
    (sending.lane 47).precodeSwitch = none ∧ (sending.lane 47).idleOwed = 0 ∧ (47 : Nat) < 48 ∧
    (takeReady sending 47).isSome = true ∧ (takeReady (withLane 47 { Reset.lane with tx := .active }) 47).isNone = true := by
  decide +kernel
theorem wit_txSleep : { Reset.lane with tx := .active, txSleep := some 0, txOps := [3] }.txOps = [3] ∧ (3 : Nat) ≠ 0 ∧
    { Reset.lane with precodeSwitch := some (true, 0) }.precodeSwitch = some (true, 0) := by decide +kernel
/-- A row of stream 0 has waited for its skew window. -/
def waited : State :=
  { fed with
    plinth := { fed.plinth with sec := 1 }
    intake := { fed.intake with rows := [{ counter := 0, stream := 0, arrived := 0, segs := [] }] } }
theorem wit_skew : waited.intake.started = true ∧ rowExpired waited = true ∧ rowComplete (releaseRow waited) = false := by
  decide +kernel
/-- Stream 1023 is UP and has been silent for 64 us. -/
def silent : Stream := { Reset.stream with state := .up, last := some 0 }
def withSilent : State :=
  { ready with
    plinth := { ready.plinth with ns := 64000 }
    intake := { ready.intake with streams := [(1023, silent)] } }
theorem wit_streamDown : withSilent.stream 1023 = silent ∧ 0 + 64 * micros ≤ withSilent.now ∧
    rowComplete (withSilent.setStream 1023 { silent with state := .down }) = false := by decide +kernel

/-! The grid (GridEvents) -/

def tile1 : Tile := { pid := 1, dwell := 0, chan := 0, u := 0, v := 0 }
def firstRun : Run := { tile := tile1, kind := .first, mode := 0, offset := 0, folded := 0 }
def repair1 : RepInc := { tile := tile1, id := 0, phase := .retry, held := none, working := false, loc := none }
def grid (r : Relief) : State := { withCorr with relief := r }
/-- Half 1 of the set holds dwell 0, drained. -/
def drained : CtSet := { set1 with halves := #v[{ dwell := none, full := false }, { dwell := some 0, full := true }] }
theorem wit_halfFree : gated withCorr = false ∧
    [drained].find? (fun y => y.id == 0) = some drained ∧
    vget drained.halves 1 { dwell := none, full := false } = { dwell := some 0, full := true } ∧
    dwellBusy { withCorr with intake := { withCorr.intake with sets := [drained] } } 0 0 = false := by decide +kernel
theorem wit_dwellStart : slotsUsed (grid { Reset.relief with ready := [{ pid := 1, dwell := 0, chan := 3 }] }) = 0 ∧
    withCorr.trims.restoring = none ∧ nextReady (grid { Reset.relief with ready := [{ pid := 1, dwell := 0, chan := 3 }] }) =
      some { pid := 1, dwell := 0, chan := 3 } ∧ Reset.relief.acc = none ∧ Reset.relief.cur = none := by decide +kernel
theorem wit_stageLoad : { Reset.relief with stage := [{ cd := { pid := 1, dwell := 0, chan := 0 }, col := true, block := 0, loaded := false }] }.stage =
    [{ cd := { pid := 1, dwell := 0, chan := 0 }, col := true, block := 0, loaded := false }] ∧ Reset.relief.cur = none := by
  decide +kernel
theorem wit_superTile : (grid { Reset.relief with acc := some firstRun }).corr 1 = some corr1 ∧
    setFree (grid { Reset.relief with acc := some firstRun }) firstRun = true ∧
    setFree (grid { Reset.relief with acc := some firstRun, drain := [firstRun] }) firstRun = false ∧
    Reset.relief.drainStall = none ∧ { firstRun with mode := 1 }.mode = 1 ∧ firstRun.folded < corr1.td ∧
    firstRun.offset < corr1.td ∧ corr1.td ≤ { firstRun with offset := 1024 }.offset := by decide +kernel
theorem wit_drain : firstRun.kind = .first ∧ runPoisoned (grid { Reset.relief with drain := [firstRun] }) firstRun = false ∧
    Reset.relief.incidents = [] ∧ Reset.relief.injects = [] ∧
    Reset.relief.acc = none ∧ Reset.relief.cur = none := by decide +kernel
theorem wit_preempt : (waitingRepairs (grid { Reset.relief with incidents := [repair1] })).find?
      (preempts (grid { Reset.relief with incidents := [repair1] }) firstRun) = some repair1 ∧
    freeSlot (grid { Reset.relief with incidents := [repair1] }) = some 0 ∧ repair1.working = false ∧
    repair1.phase = .retry ∧ slotsUsed (grid { Reset.relief with incidents := [repair1] }) = 0 ∧
    (Reset.relief.slots.toList.all fun o => o.all CtxSlot.saved) = true ∧ Reset.relief.starter = none ∧
    { Reset.relief with starter := some 0 }.starter = some repair1.id ∧ Reset.relief.stageStall = none := by decide +kernel
theorem wit_contexts : vget (#v[none, some { run := firstRun, saved := true }] : Vector (Option CtxSlot) 2) 1 none =
    some { run := firstRun, saved := true } ∧ firstRun.offset < corr1.td := by decide +kernel

/-- The CRC's fold with each value computed at once. -/
def crcStrict : List Byte → BitVec 32 → BitVec 32
  | [], c => c
  | b :: t, c => if c.toNat < 4294967296 then crcStrict t (crcByte c b) else 0
theorem crcStrict_eq (l : List Byte) (c : BitVec 32) : crcStrict l c = l.foldl crcByte c := by
  induction l generalizing c with
  | nil => rfl
  | cons b t h => simp [crcStrict, h, c.isLt]

/-! Delivery (DeliveryEvents) -/

def offer : Offer := { dest := .ring .f0 0, pid := 2, seq := 0, rtype := 1, start := 0, time := 0, since := some 0, bytes := zeros 128 }
def offering : State := { withBeam with offers := [offer], plinth := { withBeam.plinth with ns := 2000000 } }
theorem wit_ringOffer : nextOffer offering (.ring .f0 0) = some (offer, []) ∧ offering.err.fault = false ∧ ringOpen offering .f0 0 = true ∧
    (offering.ring .f0 0).declines = [] ∧ offer.bytes.length + 96 ≤ ringFree (offering.ring .f0 0) := by decide +kernel
/-- The ring has one byte too little room, or is not defined. -/
def fullRing : Ring := { fed.ring .f0 0 with tail := 2 ^ 24 - 223 }
theorem wit_ringDecline : ringFree fullRing < offer.bytes.length + 96 ∧ ringOpen offering .f0 63 = false ∧ fullRing.declines = [] ∧
    expiredOffer offering (.ring .f0 0) = some (offer, []) := by decide +kernel
theorem wit_ringCoalesce : 0 < { fullRing with since := 1, sinceTime := some 0 }.since ∧
    0 + { fullRing with since := 1, sinceTime := some 0, timeUs := 0 }.timeUs * micros ≤ ready.now := by decide +kernel
/-- A matching instance of a two-dwell integration waits for its commit. -/
def corr2 : Corr := { corr1 with nInt := 2, begun := 1 }
def spilling : State :=
  { withCorr with corrs := [corr2], relief := { Reset.relief with spill := [{ tile := tile1, matched := true, fenced := [], vals := [] }] } }
theorem wit_spill : gated spilling = false ∧ spilling.relief.acc = none ∧ spilling.relief.cur = none ∧
    spilling.relief.spill.find? (fun x => !earlierHeld spilling x.tile) =
      some { tile := tile1, matched := true, fenced := [], vals := [] } ∧
    (placeOf spilling tile1).any (fun p => !p.last) = true := by decide +kernel
/-- A snapshot of dwell 0 whose tiles are all tapped. -/
def snapDone : Snap :=
  { firstGroup := 0, groups := 1, area := 0, dwell := 0, src := src, tapped := [(0, 0, 0), (1, 0, 0), (2, 0, 0), (3, 0, 0)],
    settled := true,
    parts := [{ group := 0, output := 0, isOpen := true, start := 0, verified := true, low := false, zeroed := 0,
                stale := false, sat := false }] }
def snapping : State :=
  { spilling with corrs := [{ corr2 with snap := some snapDone }], products := [(1, product 1 .corr)],
                  intake := { spilling.intake with front := 1024 } }
theorem wit_snapshot : snapping.corr 1 = some { corr2 with snap := some snapDone } ∧ snapping.product 1 = some (product 1 .corr) ∧
    snapDone.settled = true ∧ gated snapping = false ∧ (snapDone.dwell + 1) * corr2.td ≤ snapping.intake.front ∧
    (∀ a, a ∈ snapDone.parts →
      snapGroupDone (corrInputs snapping { corr2 with snap := some snapDone }).length { corr2 with snap := some snapDone } snapDone a = true) ∧
    (∃ g, g ∈ corr2.groups ∧ g.stopped = false) ∧ (∀ g, g ∈ corr2.groups → groupDone g = false) := by
  decide +kernel

/-! Rows (RowEvents) -/

def row0 : SettledRow := { counter := 0, parts := [], invalid := [] }
def swap0 : DelaySwap := { pid := 2, beam := 1, entries := List.replicate 16 0, row := 0, src := src }
def swapping : State := { withBeam with frieze := { withBeam.frieze with single := true, swap := some swap0 } }
theorem wit_rows : { withBeam with intake := { withBeam.intake with settled := [row0] } }.intake.settled = row0 :: [] ∧
    gated withBeam = false ∧ swapping.frieze.swap = some swap0 ∧ swapping.frieze.swaps = [] ∧ rowsBefore swapping swap0.row = false ∧
    swapping.fzProd swap0.pid = some beam2 := by decide +kernel
def leaving : FzProd :=
  { beam2 with area := 0, gains := [(1, [])], gainChange := some { area := 128 * 2097152, boundary := 256, src := src } }
theorem wit_gainArea : { withBeam with frieze := { withBeam.frieze with prods := [leaving] } }.fzProd 2 = some leaving ∧
    (leaving.gains.any fun x => x.1 ≥ 256 / 256) = true := by decide +kernel
/-- A partial record of beam 1 for product 2, imported on group 0 of unit 77. -/
def imp77 : Import := { group := 0, serial := 77, remote := 9, window := 1000, waiting := [], arrived := [] }
def importer : FzProd := { beam2 with role := 3, imp := some imp77 }
def partialBytes : List Byte :=
  block 80 [(4, 9), (40, 256), (44, 16), (48, 1), (49, 3), (56, 3698836975), (66, 4)]
theorem wit_psumCrc : recordCrcOk partialBytes = true := by
  simp only [recordCrcOk, crc32c, ← crcStrict_eq]
  decide +kernel
theorem wit_psum : recordCrcOk (zeros 80) = false ∧
    { withBeam with frieze := { withBeam.frieze with prods := [importer] } }.frieze.prods.find? (psumMatches 0 77 partialBytes) =
      some importer ∧ importer.imp = some imp77 := by decide +kernel
def beamRow : BeamRow :=
  { counter := 0, chans := List.replicate 4 { re := 0, im := 0, count := 16, short := false, bad := false },
    marks := { weightSat := false, expired := false, changed := false, gainChanged := false, importLate := false, bank := false,
               residue := 0, verified := true } }
theorem wit_chainRow : { chain0 with inbox := [beamRow] }.state = .run ∧ [beamRow].find? (fun r => r.counter == chain0.row) = some beamRow ∧
    ((chainAs chain0).chain 0).state = .run ∧ ((chainAs chain0).chain 0).inbox = [] := by decide +kernel
/-- Beam 200 belongs to no product, and row 0 has passed. -/
def silentChain : State :=
  { chainAs { chain0 with beam := 200 } with intake := { withChain.intake with front := 1 } }
theorem wit_silentRow : beamSilent silentChain (silentChain.chain 0) (silentChain.chain 0).row = true := by decide +kernel
theorem wit_intervals :
    { chain0 with dueIntervals := [{ first := 0, log2N := 10, power := 0, taint := false, sat := false, unchecked := false }] }.dueIntervals ≠ [] ∧
    chain0.capture = some 5 := by decide +kernel

/-! Gloss feed (GlossFeedEvents) -/

def waitingCore : Core := { attached with state := .running, waiting := some (.waitf 256 0), inWr := 256 }
theorem wit_waitfEnds : gated ready = false ∧ waitingCore.waiting = some (.waitf 256 0) ∧ waitingCore.state = .running ∧
    256 ≤ inboundHeld waitingCore := by decide +kernel
theorem wit_openEnds : attach6.detaching = false ∧ freeCoreSlot ready attached attach6 = some 0 ∧
    { attached with waiting := some (.emitOpen (ef 0 true) 0) }.waiting = some (.emitOpen (ef 0 true) 0) := by decide +kernel
theorem wit_feedCopy : (copyWords attach6.inBase (2 ^ attach6.inLog2) (List.replicate 257 7) attached).2.1 ≠ [] ∧
    (copyWords attach6.inBase (2 ^ attach6.inLog2) (List.replicate 256 7) attached).2.1 = [] ∧ attach6.declines = [] := by
  decide +kernel
def closedItem : DerivItem :=
  { seq := 0, slot := some 1, entry := none, start := 0, span := 0, aux := 0, time := 0, flags := 0, len := 64, cause := 0,
    first := 0, count := 0 }
theorem wit_derivedRelease : rateAllows ready { attached with closed := [closedItem] } attach6 = true ∧
    poisoned ready (slotAddr attach6 1 + 64) (slotAddr attach6 1 + 64 + closedItem.len) = false := by decide +kernel

/-! Pins, ports, PTP (PinAndPortEvents, PtpMessages) -/

def withOut (o : TimeOut) : State := { ready with net := { ready.net with outs := ready.net.outs.set 3 o } }
theorem wit_pulses : outPin (withOut { Reset.timeOut with queue := [{ time := 0, chain := 0 }] }) 3 =
      { Reset.timeOut with queue := [{ time := 0, chain := 0 }] } ∧ ready.pair.role ≠ .standby ∧ Reset.timeOut.mode = 0 ∧
    0 ≤ ready.now ∧ { Reset.timeOut with mode := 1 }.sent = 0 ∧ { Reset.timeOut with mode := 1 }.start ≤ ready.now ∧
    { Reset.timeOut with mode := 2 }.start + { Reset.timeOut with mode := 2 }.sent * { Reset.timeOut with mode := 2 }.period ≤
      ready.now := by decide +kernel
def listening : TimeIn := { Reset.timeIn with enabled := true, edges := 3 }
theorem wit_edges : edgeStamp 0 = 0 ∧ listening.enabled = true ∧ bitOf listening.edges (b2n true) = true ∧ listening.last = none ∧
    listening.fifo.length < 64 := by decide +kernel
def portOn : TPort := { Reset.tport with link := true, enabled := true, forward := true }
def ported : State := { ready with net := { ready.net with ports := #v[portOn, portOn] } }
def anEthFrame : List Byte := zeros 60 ++ leBytes 4 (ethFcs (zeros 60))
theorem wit_forward : (ported.tport 0).link = true ∧ fcsOk anEthFrame = true ∧ forwarding ported = true ∧
    (ported.tport (1 - 0)).link = true ∧ domainUp ported 7 = true := by decide +kernel

def aMaster : Announce :=
  { port := 0, identity := 0, sourcePort := 0, grandmaster := 0, priority1 := 0, clockClass := 0, accuracy := 0, variance := 0,
    priority2 := 0, stepsRemoved := 0, utcOffset := 0, domain := 0, log := 0 }
/-- A message of version 2 in domain 0, and its Ethernet frame. -/
def ptpBytes (type : Nat) : List Byte := [BitVec.ofNat 8 type, 2] ++ zeros 62
def ptpFrame (type fcs : Nat) : List Byte :=
  [0x01, 0x1B, 0x19, 0, 0, 0] ++ zeros 6 ++ [0x88, 0xF7] ++ ptpBytes type ++ leBytes 4 fcs
def sync0 : SyncIn := { port := 0, identity := 0, seq := 0, ingress := 2000000, origin := none, correction := 0 }
def delay0 : DelayOut := { port := 0, seq := 0, egress := 0 }
def following (n : NetTime → NetTime) : State :=
  { ported with net := n { ported.net with master := some aMaster, ptpOn := true, servo := .acquire } }
/-- The FCS fold with each value computed at once. -/
def fcsStrict : List Byte → BitVec 32 → BitVec 32
  | [], c => c
  | b :: t, c => if c.toNat < 4294967296 then fcsStrict t (fcsShift 8 (c ^^^ b.setWidth 32)) else 0
theorem fcsStrict_eq (l : List Byte) (c : BitVec 32) :
    fcsStrict l c = l.foldl (fun c b => fcsShift 8 (c ^^^ b.setWidth 32)) c := by
  induction l generalizing c with
  | nil => rfl
  | cons b t h => simp [fcsStrict, h, c.isLt]
theorem wit_ptpFrames : ∀ x ∈ [(0, 0x370da813), (8, 0x9582d13d), (9, 0x1ab7fca8), (0xB, 0xdfaca1c3)], fcsOk (ptpFrame x.1 x.2) = true := by
  simp only [fcsOk, ethFcs, ← fcsStrict_eq]
  decide +kernel
theorem wit_ptpTakes : ∀ x ∈ [(0, 0x370da813), (8, 0x9582d13d), (9, 0x1ab7fca8), (0xB, 0xdfaca1c3)],
    takes (following id) 0 x.1 (ptpFrame x.1 x.2) (ptpBytes x.1) = true := by
  intro x h
  have k : ((following id).tport 0).enabled = true ∧ ((following id).tport 0).link = true ∧
      ((following id).tport 0).domain = 0 ∧ ((following id).tport 0).udp = false := by decide +kernel
  have m : ptpMessage false x.1 (ptpFrame x.1 x.2) = some (ptpBytes x.1) ∧ ptpVersionOk (ptpBytes x.1) = true ∧
      ptpDomain (ptpBytes x.1) = 0 := by
    simp only [List.mem_cons, List.not_mem_nil, or_false] at h
    rcases h with rfl | rfl | rfl | rfl <;> decide +kernel
  simp [takes, k.1, k.2.1, k.2.2.1, k.2.2.2, m.1, m.2.1, m.2.2, wit_ptpFrames x h]
theorem wit_ptpSync : fromMaster (following id) 0 (ptpBytes 0) = true ∧ (following id).net.servo ≠ .holdover ∧
    sync0.origin = none ∧ sync0.port = 0 ∧ sync0.seq = ptpSeq (ptpBytes 8) := by decide +kernel
theorem wit_delayResp : fromMaster (following id) 0 (ptpBytes 9) = true ∧ delay0.port = 0 ∧ delay0.seq = ptpSeq (ptpBytes 9) ∧
    disciplining (following id) = true ∧ (following id).net.valid = false ∧ (following id).net.meanPath = none ∧
    (((1000000000000 : Nat) : Int) - 0 - 0 + ((ptpTime (ptpBytes 9) 34 : Nat) - 0 - ptpCorrection (ptpBytes 9))) / 2 >
      0 + 1000 * nanos := by decide +kernel
theorem wit_delayReq : (following id).net.master = some aMaster ∧ ((following id).tport aMaster.port).enabled = true ∧
    ((following id).tport aMaster.port).link = true ∧ aMaster.port < 2 ∧ delayReqDue (following id) = true ∧
    ((following id).net.servo = .acquire ∨ (following id).net.servo = .locked) := by decide +kernel

/-! References (ReferenceEvents) -/

def ref0 : Ref := { Reset.ref 10000000 with rank := 1 }
def refsOn : State :=
  { ready with
    plinth := { ready.plinth with sec := 60 }
    clock := { ready.clock with refs := ready.clock.refs.set 0 ref0, state := .acquire, lockedAt := some 0 } }
theorem wit_references : (refsOn.ref 0).rank ≠ 0 ∧ (1000000 * 1024 : Int).natAbs ≤ 1000000 * 1024 ∧
    (refsOn.ref 0).qualified = false ∧ within 10240000 (refsOn.ref 0).accept = true ∧
    gateMs 0 + ((refsOn.ref 0).requalFor.getD 0) < (refsOn.ref 0).requalMs ∧ refsOn.clock.state = .acquire ∧
    refsOn.clock.pull = none ∧ 60 * second ≤ refsOn.clock.lockedTime + (refsOn.now - 0) ∧
    pullLeft refsOn { left := 1000, at_ := 0 } = 0 := by decide +kernel

/-! Trims and errors (TrimEvents, ErrorEvents) -/

def trialRun : TrimRun :=
  { index := 10, dir := 1, steps := 0, best := some 5, trial := true, startCodes := [], bringUp := false }
theorem wit_laneTrim : stepFits Reset.laneTrim { trialRun with trial := false, steps := 3 } = true ∧ 4 < 5 ∧
    stepFits { Reset.laneTrim with codes := Reset.laneTrim.codes.set 10 (laneCode Reset.laneTrim 10 + 1) } trialRun = true ∧
    trialRun.steps < 3 ∧ 0 < { trialRun with steps := 1 }.steps ∧ trialRun.index = 10 := by decide +kernel
def level0 : LevelTrim := { stream := 0, start := none, sums := [], ended := true, boundary := none, replaced := [] }
theorem wit_levelTrim : ready.err.service = true ∧ gated ready = false ∧
    [level0].find? (fun l => l.stream == 0 && l.ended && l.boundary.isNone) = some level0 := by decide +kernel
def testing : State := { ready with trims := { ready.trims with gridTest := some 32 } }
theorem wit_gridTest : testing.trims.gridTest = some 32 ∧ testMayStart testing = true ∧ testErrs testing 32 ([] ++ injectCells testing true) = [] ∧
    testErrs testing 32 ([(31, 0)] ++ injectCells testing true) ≠ [] ∧
    testErrs testing 32 ([] ++ injectCells testing false) = [] := by decide +kernel
theorem wit_dieTemp : ready.power.inReset = false ∧
    { ready.trims with laneStep := 0, levelStep := 0, cellStep := 0 }.levelStep = 0 := by decide +kernel
def armed (n : Nat) : State :=
  { ready with err := { ready.err with arm := some { id := 0, cause := 0x0E01, cls := .t, failures := n } } }
theorem wit_arm : ready.err.seqState ≠ .failed ∧ ready.err.arm = none ∧ (1 : Nat) < 2 ∧ 2 ≤ 2 ∧ restarting (armed 1) = true ∧
    (armed 1).boot.keyHash = none := by decide +kernel
def fullLog : ErrLog := { Reset.errLog with tail := 1023 }
theorem wit_errorLog : logFree fullLog < 2 ∧ 2 ≤ logFree { fullLog with tail := 1022 } ∧
    ((1023 : U32).setWidth 16 - fullLog.head).toNat ≤ (fullLog.tail - fullLog.head).toNat ∧
    0 < { fullLog with lostSince := 1 }.lostSince ∧ 2 ≤ logFree { fullLog with head := (1023 : U32).setWidth 16 } := by
  decide +kernel

/-! The pair (PairLinkEvents, MirrorMessages, PairTimers) -/

def role (r : Role) : State := { ready with pair := { Reset.pair with role := r, synced := true, aliveOk := true, aliveRun := 4 } }
theorem wit_peer : (role .active).pair.peerFault = false ∧ (role .active).power.inReset = false ∧ (role .active).pair.role ≠ .disabled ∧
    decide (5 ≤ 20 ∧ 20 ≤ 20) = (role .active).pair.aliveOk ∧ decide (5 ≤ 21 ∧ 21 ≤ 20) ≠ (role .active).pair.aliveOk ∧
    4 ≤ (role .active).pair.aliveRun ∧ Reset.pair.aliveOk = false ∧ Reset.pair.aliveRun < 4 ∧ (4 < 5 ∨ 20 < 4) := by
  decide +kernel
/-- A mirror header of unit 77 in its state flags. -/
def mirrorBytes : List Byte := zeros 8 ++ block 32 [(0, 2), (2, 3), (28, 77)]
theorem wit_mirror : 48 ≤ (51 : Fin 52).val ∧ BitVec.ofNat 32 (field (mirrorBytes.drop 8) 28 4) = 77 ∧
    field (mirrorBytes.drop 8) 2 1 = 3 ∧ { Reset.pair with partner := 77 }.partner = 77 ∧ (77 : U32) ≠ Reset.pair.partner ∧
    { Reset.pair with out := [{ number := 0, type := 1, payload := [] }] }.out ≠ [] := by decide +kernel
theorem wit_messages : (role .standby).pair.lastRx = none ∧ restarting (role .standby) = false ∧ restarting (armed 1) = true ∧ commitKnown (role .standby) { fn := .f0, qp := 0, seq := 0 } = false ∧
    syncMismatch (role .standby) = 0 ∧
    syncMismatch { role .standby with pair := { (role .standby).pair with image := some (1, 6400, 0) } } ≠ 0 ∧
    0 + 8 ≤ (role .standby).hbm.capacity * granule ∧ (0xFFFFFFFF + 1) % 2 ^ 32 ≠ (1 : U32).toNat ∧
    (0xFFFFFFFF + 1) % 2 ^ 32 = (0 : U32).toNat := by decide +kernel
def plan (acked : Bool) : SwapPlan := { counter := 0, msg := 0, acked := acked }
theorem wit_timers : (role .forming).pair.peer = none ∧ (role .forming).pair.rank = false ∧ gated (role .active) = false ∧
    (plan true).counter ≤ (role .active).intake.front ∧ (plan true).counter ≤ (role .standby).counterIn 10000 ∧
    (role .active).timeAt (plan false).counter ≤ (role .active).now + 100 * micros := by decide +kernel

/-! Reset and the service port (ResetEvents, ServicePort) -/

theorem wit_release : State.reset.boot.mode = .rom ∧ ready.boot.mode = .firmware ∧ ready.power.vidTime = none := by decide +kernel
theorem wit_activation : { ready with boot := { ready.boot with activation := some (1, 0) } }.boot.activation = some (1, 0) ∧
    0 ≤ ready.now ∧ restarting ready = false ∧ ready.err.seqState ≠ .failed := by decide +kernel
def svcCmd (op : Nat) (params : List Byte) : SvcCmd :=
  { tag := 7, rsvd := 0, params := params,
    crc := crc32c (leBytes 1 op ++ leBytes 1 7 ++ leBytes 2 0 ++ leBytes 4 params.length ++ params) }
/-- A whole image header with formats 1 to 2 and an image of 4,096 bytes. -/
def imageHeader : List Byte :=
  block 512 [(0, 0x4D504657), (8, 4096), (16, 1), (18, 2), (508, 2453034859)]
def recovery : State := { ready with boot := { ready.boot with mode := .recovery } }
def loading (next : Nat) : State := { recovery with boot := { recovery.boot with download := some { slot := 1, length := 4096, next := next } } }
theorem wit_svcPlain : recovery.boot.svcPending = none ∧ recovery.boot.svcWaiting = none ∧ restarting recovery = false ∧
    svcCrcOk 0x01 (svcCmd 0x01 []) = true ∧ svcCrcOk 0x02 (svcCmd 0x02 []) = true ∧ svcCrcOk 0x13 (svcCmd 0x13 []) = true := by
  decide +kernel
theorem wit_dlBegin : svcCrcOk 0x10 (svcCmd 0x10 (1 :: leBytes 4 1048576)) = true ∧
    field (1 :: leBytes 4 1048576) 0 1 = 1 ∧ field (1 :: leBytes 4 1048576) 1 4 = 1048576 ∧ 1048576 % 4 = 0 ∧
    downloadBusy recovery 1 = false := by decide +kernel
theorem wit_dlData : svcCrcOk 0x11 (svcCmd 0x11 (leBytes 4 4092 ++ zeros 4)) = true ∧
    (loading 4092).boot.download = some { slot := 1, length := 4096, next := 4092 } ∧
    field (leBytes 4 4092 ++ zeros 4) 0 4 = 4092 ∧ ((leBytes 4 4092 ++ zeros 4).drop 4).length = min 4096 (4096 - 4092) := by
  decide +kernel
theorem wit_imageCrc : crcOk imageHeader = true := by
  simp only [crcOk, crc32c, ← crcStrict_eq]
  decide +kernel
theorem wit_dlEnd : svcCrcOk 0x12 (svcCmd 0x12 imageHeader) = true ∧ imageHeader.length = 512 ∧ field imageHeader 8 4 = 4096 :=
  ⟨by simp [svcCrcOk, svcCmd], by decide +kernel, by decide +kernel⟩
theorem wit_recoveryPort : svcCrcOk 0x20 (svcCmd 0x20 [1]) = true ∧ recovery.boot.mode = .recovery ∧ field [1] 0 1 ≤ 1 ∧
    svcCrcOk 0x30 (svcCmd 0x30 (zeros 48)) = true ∧ recovery.boot.keyHash = none ∧ (zeros 48).length = 48 := by decide +kernel

/-- Slot 1 holds an image header. -/
def withSlot : State := { ready with boot := { ready.boot with slotB := { header := some imageHeader, chunks := [] } } }
theorem wit_slotHeader : slotHeader withSlot 1 = some imageHeader := by
  have h : headerOk imageHeader = true := by
    simp only [headerOk, wit_imageCrc, Bool.and_true]
    decide +kernel
  have e : (withSlot.slot 1).header = some imageHeader := rfl
  simp only [slotHeader, e, h, if_true]
theorem wit_updateActivate : serves withSlot (.updateActivate src 1 (BitVec.ofNat 96 (100000000 * 65536))) = true ∧
    accepts (updateActivate (untake withSlot src) 1 (BitVec.ofNat 96 (100000000 * 65536))) = true := by
  refine ⟨by decide +kernel, ?_⟩
  have h : slotHeader (untake withSlot src) 1 = some imageHeader := wit_slotHeader
  simp only [updateActivate, h]
  decide +kernel

/-! Whole machine -/

theorem wit_inv : Inv State.reset ∧ State.reset.pending = [] ∧ State.reset.plinth.ns.toNat < 1000000000 :=
  ⟨⟨by decide +kernel, by decide +kernel, by decide +kernel, by decide +kernel⟩, by decide +kernel, by decide +kernel⟩
theorem wit_serving : ready.hbm.serving.Nodup ∧ (hbmPlace ready 0).isSome = true ∧ granuleMap ready 0 = 5 := by decide +kernel
theorem wit_pointers : ∃ c : Core, (vget c.ext 7 0).toNat % 65536 = 1000 ∧ bitOf (vget c.ext 7 0).toNat 16 = true ∧
    2 ^ 9 ≤ 1000 ∧ 1000 < 2 ^ (9 + 1) :=
  ⟨{ Reset.core with ext := Vector.replicate 8 (0x10000 + 1000) }, by decide +kernel⟩
theorem wit_levelGains : 65536 ≤ 1047808 ∧ 0 < 838246400 ∧ gainAt ready 0 0 0 = 4096 ∧
    4096 < 16 * ((levelGain 1047808 838246400 : Int) - 4096).natAbs := by decide +kernel

/-! Restored trims and the restarted Armature -/

/-- A trim image of no sections. -/
def trimBytes : List Byte := block 64 [(0, 0x5E7A), (2, 1), (4, 64), (60, 195882935)]
theorem wit_trimImage : imageOk trimBytes = true := by
  have h : (crc32c (trimBytes.take 60 ++ zeros 4 ++ trimBytes.drop 64)).toNat = 195882935 := by
    simp only [crc32c, ← crcStrict_eq]
    decide +kernel
  simp only [imageOk, h]
  decide +kernel
theorem wit_trimRestore : serves ready (.trimRestore src (hbuf 64) (some trimBytes)) = true ∧
    accepts (trimRestore (untake ready src) (hbuf 64) (some trimBytes)) = true := by
  refine ⟨by decide +kernel, ?_⟩
  have h : imageOk trimBytes = true := wit_trimImage
  have r : readBuf (hbuf 64) (some trimBytes) = .ok trimBytes := rfl
  unfold trimRestore
  rw [r]
  simp only [bind, Except.bind, h]
  by_cases own : field trimBytes 8 8 = Config.serial.toNat
  · simp only [own]
    decide +kernel
  · simp only [own]
    decide +kernel

/-- The strap asks for recovery, or no key is programmed; and a die whose slot 1 holds an image that verifies, as far as the
signature functions of the configuration say so (log 16). -/
theorem wit_recoveryRestart : restarting (armed 1) = true ∧ (armed 1).boot.keyHash = none ∧ (armed 1).power.inReset = false := by
  decide +kernel
def keyed : State :=
  { withSlot with boot := { withSlot.boot with keyHash := some [], maqFormat := 1 }, err := { withSlot.err with activating := true } }
theorem keyed_choice : romChoose keyed false = romRecord keyed := by
  unfold romChoose
  rw [if_neg (by decide +kernel), if_neg (by decide +kernel)]
theorem keyed_records : newestRecord keyed = none := by decide +kernel
theorem keyed_empty : verify keyed 0 = false := by
  have e : slotHeader keyed 0 = none := by decide +kernel
  simp only [verify, e, show (0 : Nat) < 2 by decide, if_true]
/-- What the tests need of the flash and of the image in a slot. -/
structure Holds (s : State) : Prop where
  slot : s.boot.slotB = keyed.boot.slotB
  set0 : s.boot.set0 = none
  set1 : s.boot.set1 = none
  format : s.boot.maqFormat = 1
  ready : s.boot.ready = true
  waiting : s.boot.svcWaiting = none
  activation : s.boot.activation = none
  held : s.commitHold = []
theorem holds_setSvcAttn (s : State) (a : Bool) (h : Holds s) : Holds (setSvcAttn s a) ∧ (setSvcAttn s a).boot.runSlot = s.boot.runSlot := by
  obtain ⟨h1, h2, h3, h4, h5, h6, h7, h8⟩ := h
  unfold setSvcAttn
  split <;> exact ⟨⟨h1, h2, h3, h4, h5, h6, h7, h8⟩, rfl⟩
theorem holds_noteResult (s : State) (r : Nat) (h : Holds s) : Holds (noteResult s r) ∧ (noteResult s r).boot.runSlot = s.boot.runSlot := by
  unfold noteResult
  split
  · exact ⟨h, rfl⟩
  · exact holds_setSvcAttn { s with boot := { s.boot with lastResult := r } } false ⟨h.1, h.2, h.3, h.4, h.5, h.6, h.7, h.8⟩
theorem holds_enterMode (s : State) (m : BootMode) (h : Holds s) : Holds (enterMode s m) ∧ (enterMode s m).boot.runSlot = s.boot.runSlot := by
  unfold enterMode
  split
  · exact ⟨h, rfl⟩
  · exact holds_setSvcAttn { s with boot := { s.boot with mode := m } } false ⟨h.1, h.2, h.3, h.4, h.5, h.6, h.7, h.8⟩
theorem holds_writeBootRec (s : State) (r : BootRec) (h : Holds s) : Holds (writeBootRec s r) := by
  obtain ⟨h1, h2, h3, h4, h5, h6, h7, h8⟩ := h
  unfold writeBootRec
  constructor <;> dsimp only <;> repeat' split
  all_goals assumption
/-- A state as bootInto hands it to the image. -/
def bootStart (s : State) (b : Bool) : State := { s with boot := { s.boot with
  runSlot := 1, trial := b, trialCount := if b then (bootRec s).count else 0, boots := s.boot.boots + 1,
  heldSettings := if b then s.boot.heldSettings else none } }
theorem bootStart_holds (s : State) (b : Bool) (h : Holds s) : Holds (bootStart s b) := ⟨h.1, h.2, h.3, h.4, h.5, h.6, h.7, h.8⟩
theorem holds_bootInto (s : State) (r : BootRec) (b : Bool) (h : Holds s) :
    Holds (bootInto (recordBoot s r) 1 b) ∧ (bootInto (recordBoot s r) 1 b).boot.runSlot = 1 := by
  have h1 := (holds_noteResult _ r.result (holds_writeBootRec s r h)).1
  have h2 := holds_enterMode _ .firmware (bootStart_holds _ b h1)
  have h3 := holds_noteResult _ (bootRec (bootStart (recordBoot s r) b)).result h2.1
  exact ⟨h3.1, h3.2.trans h2.2⟩
theorem romRecord_first (s : State) (n : Nat) (h : newestRecord s = none) (k : [0, 1].find? (verify s) = some n) :
    romRecord s = (recordBoot s { confirmed := n, trial := 0xFF, count := 0, result := 0,
                                  confirmedVersion := slotVersion s n, trialVersion := 0 }, .image n false) := by
  simp only [romRecord, h, k]
theorem keyed_holds : Holds keyed :=
  ⟨rfl, by decide +kernel, by decide +kernel, by decide +kernel, by decide +kernel, by decide +kernel, by decide +kernel, by decide +kernel⟩
theorem reads_of (s : State) (h : Holds s) (r : s.boot.runSlot = 1) : reads s 1 = true ∧ reads s (storedFormat s) = true := by
  have e : slotHeader s 1 = some imageHeader := by
    have k : headerOk imageHeader = true := by
      simp only [headerOk, wit_imageCrc, Bool.and_true]
      decide +kernel
    have x : (s.slot 1).header = some imageHeader := by
      simp only [State.slot, h.slot]
      rfl
    simp only [slotHeader, x, k, if_true]
  have w : storedFormat s = field imageHeader 18 2 := by
    simp only [storedFormat, newestSettings, h.set0, h.set1, Option.bind_none, writeFormat, r, e]
  rw [w]
  simp only [reads, r, e]
  decide +kernel
theorem found (f : Nat → Bool) (h0 : f 0 = false) (h1 : f 1 = true) : [0, 1].find? f = some 1 := by simp [List.find?, h0, h1]
/-- Every premise of the clause for a restart into an image, of a state that boots one from its only slot. -/
theorem premises (s : State) (h : verify s 1 = true) (h0 : verify s 0 = false) (hr : restarting s = true) (hs : s.boot.strapRecovery = false)
    (hc : romChoose s false = romRecord s) (hn : newestRecord s = none) (hh : Holds s) : ∃ u n trial v, restarting s = true ∧
    romChoose s s.boot.strapRecovery = (u, .image n trial) ∧ v = bootInto u n trial ∧
    reads v v.boot.maqFormat = true ∧ reads v (storedFormat v) = true ∧ v.boot.ready = true ∧ v.boot.svcWaiting = none ∧ v.boot.activation = none ∧
    v.commitHold = [] := by
  have b := holds_bootInto s
    { confirmed := 1, trial := 0xFF, count := 0, result := 0, confirmedVersion := slotVersion s 1, trialVersion := 0 } false hh
  refine ⟨_, 1, false, _, hr, ?_, rfl, ?_, ?_, b.1.ready, b.1.waiting, b.1.activation, b.1.held⟩
  · rw [hs, hc]
    exact romRecord_first s 1 hn (found _ h0 h)
  · rw [b.1.format]
    exact (reads_of _ b.1 b.2).1
  · exact (reads_of _ b.1 b.2).2
/-- Where slot 1 of that die verifies, the premises are met. -/
theorem wit_imageRestart (h : verify keyed 1 = true) : ∃ u n trial v, restarting keyed = true ∧
    romChoose keyed keyed.boot.strapRecovery = (u, .image n trial) ∧ v = bootInto u n trial ∧
    reads v v.boot.maqFormat = true ∧ reads v (storedFormat v) = true ∧ v.boot.ready = true ∧ v.boot.svcWaiting = none ∧ v.boot.activation = none ∧
    v.commitHold = [] :=
  premises keyed h keyed_empty (by decide +kernel) (by decide +kernel) keyed_choice keyed_records keyed_holds

/-! Steps and frames -/

theorem wit_queue : { ready with pending := [.sysNop src, .svcRead] }.pending = .sysNop src :: [.svcRead] ∧
    ∃ t, step { ready with pending := [] } = .next t := ⟨rfl, _, rfl⟩
theorem wit_invariantStep : Inv State.reset ∧ ∃ t, step State.reset = .next t := ⟨wit_inv.1, _, rfl⟩
theorem wit_laneFrame : laneEvent (.frameLock 0) = true ∧ ∃ t, exec (.frameLock 0) ready = .next t := ⟨rfl, _, rfl⟩
theorem wit_gridFrame : gridEvent .superTileEnd = true ∧ ∃ t, exec .superTileEnd ready = .next t := ⟨rfl, _, rfl⟩
theorem wit_memoryFrame : memoryEvent (.patrolScrubRead 2) = true ∧ poisonsWords (.patrolScrubRead 2) = true ∧
    keepsBytes .retrainTimer = true ∧ (∃ t, exec (.patrolScrubRead 2) ready = .next t) ∧ Memory.wf ready.hbm.mem = true :=
  ⟨rfl, rfl, rfl, ⟨_, rfl⟩, by decide +kernel⟩
theorem wit_timeFrame : timeEvent .phasePullEnd = true ∧ ∃ t, exec .phasePullEnd ready = .next t := ⟨rfl, _, rfl⟩
theorem wit_faultFrames : portCommand .svcRead = true ∧ errorEvent .armHang = true ∧ pairEvent .pad = true ∧
    (∃ t, exec .svcRead ready = .next t) ∧ (∃ t, exec .armHang ready = .next t) ∧ ∃ t, exec .pad ready = .next t :=
  ⟨rfl, rfl, rfl, ⟨_, rfl⟩, ⟨_, rfl⟩, _, rfl⟩
theorem wit_queueFrame : queueCommand (.sqTailWrite .f0 0 1) = true ∧ ∃ t, exec (.sqTailWrite .f0 0 1) ready = .next t :=
  ⟨rfl, _, rfl⟩
theorem wit_rowFrame : rowEvent .delaySwapCopyDone = true ∧ ∃ t, exec .delaySwapCopyDone ready = .next t := by
  refine ⟨rfl, ?_⟩
  generalize ready = s
  show ∃ t, execDelaySwapCopyDone s = .next t
  unfold execDelaySwapCopyDone
  repeat' split
  all_goals exact ⟨_, rfl⟩
theorem wit_glossFrame : coreOf (.gHalt 3 .clean) = some 3 ∧ (4 : Fin 32) ≠ 3 ∧ ∃ t, exec (.gHalt 3 .clean) ready = .next t :=
  ⟨rfl, by decide, _, rfl⟩
theorem wit_clauseFrame : clauseOf (.sysNop src) = some ⟨src, 0x0000, []⟩ ∧ ∃ t, exec (.sysNop src) ready = .next t :=
  ⟨rfl, _, rfl⟩
/-- F1 sends a secure-only Clause. -/
theorem wit_refused : isTaken ready ⟨{ src with fn := .f1 }, 0x0B00, []⟩ = true ∧
    ∃ r, (do gate (untake ready { src with fn := .f1 }) ⟨{ src with fn := .f1 }, 0x0B00, []⟩
             pairConfigure ready false 0 : Result) = .error r ∧ r.status = 0x0200 :=
  ⟨by decide +kernel, _, rfl, by decide +kernel⟩
/-- The slot taken holds another Clause. -/
theorem wit_other : isTaken { ready with err := { ready.err with taken := some { src := src, bytes := zeros 64 } } }
    ⟨src, 0x0004, bufWords (hbuf 64)⟩ = false := by decide +kernel

/-! Ill-formed commands, one for each check, and a well-formed one beside each kind -/

def zeroPf (x : Xfer) : PF := { a := 0, m := 0, n := 0, x := x }
def memField (reg : Fin 8) : MF := { inY := false, reg := reg, ptr := 0, upd := .keep, sh := 0 }
theorem test_wf_refuses :
    Instr.wf (.registerWrite .f0 0x1000000 0) = false ∧ Instr.wf (.regAlignAccess .f0 4 4 true) = false ∧
    Instr.wf (.regAlignAccess .f0 4 0 true) = false ∧ Instr.wf (.rcFieldRead .f1 0x1000000 0) = false ∧
    Instr.wf (.hiLatchRead .f1 0x1000000) = false ∧ Instr.wf (.bar2Read .f0 (2 ^ 39 - 1) ⟨2, []⟩) = false ∧
    Instr.wf (.bar2Write .f0 0 ⟨[], []⟩) = false ∧ Instr.wf (.bar2Read .f0 0 ⟨1, [(0, 7)]⟩) = false ∧
    Instr.wf (.dmaBurstDone 0 ⟨none, [(2 ^ 40, 1)]⟩ []) = false ∧ Instr.wf (.snapshotWriteDone 4096) = false ∧ Instr.wf (.ucieLinkTrain 64 0) = false ∧
    Instr.wf (.queueVisit (some [])) = false ∧ Instr.wf (.clauseReread (some [])) = false ∧
    Instr.wf (.deferredChangeEffect 4096) = false ∧ Instr.wf (.trimRestore src (hbuf 4) (some [])) = false ∧
    Instr.wf (.glossLoad src 0 (hbuf 4) (some [])) = false ∧ Instr.wf (.oslFrameRx 0 []) = false ∧
    Instr.wf (.drainCompare [{ row := 32, col := 0, baseline := 0, re := 0, im := 0, weight := 0 }] false false) = false ∧
    Instr.wf (.psumRecordRx 0 0 []) = false ∧
    Instr.wf (.hbmRequestServe 0 0 [{ addr := 2 ^ 40, kind := .read, overtaken := 0 }] 0) = false ∧
    Instr.wf (.hbmRequestServe 0 0 [{ addr := 0, kind := .spill .add 17, overtaken := 0 }] 0) = false ∧
    Instr.wf (.hbmTempRead 0 256) = false ∧ Instr.wf (.stackTrainingDone 0 1 0 true none true) = false ∧
    Instr.wf (.stackTrainingDone 0 2 16 true none true) = false ∧
    Instr.wf (.timeInEdge 0 false false (BitVec.ofNat 96 (1000000000 * 65536))) = false ∧ Instr.wf (.reserve 0 4096 0 0) = false ∧
    Instr.wf (.hbmCopy 0 (2 ^ 40) [0]) = false ∧ Instr.wf (.yieldMsg 0 [(4096, 0, 0)]) = false ∧
    Instr.wf (.chainMsg 0 { chain := 64, floor := 0, det := 0, onset := 0, frozen := false, stuck := false, flicker := 0,
                            nextCapture := 0 }) = false ∧
    Instr.wf (.gNop 0 (zeroPf (.load none none 0)) .clean) = false ∧
    Instr.wf (.gNop 0 (zeroPf (.load (some (1, .inc)) (some (1, .inc)) 0)) .clean) = false ∧
    Instr.wf (.gStw 0 (memField 4) .clean) = false := by decide +kernel
theorem test_wf_accepts : Instr.wf (.registerWrite .f0 0xFFFFFC 0) = true ∧ Instr.wf (.regAlignAccess .f0 4 8 true) = true ∧
    Instr.wf (.bar2Read .f0 (2 ^ 39 - 1) ⟨1, [(2 ^ 39 - 1, 6)]⟩) = true ∧ Instr.wf (.queueVisit (some (zeros 64))) = true ∧
    Instr.wf (.queueVisit none) = true ∧ Instr.wf (.deferredChangeEffect 4095) = true ∧
    Instr.wf (.glossLoad src 0 (hbuf 40) (some imageBytes)) = true ∧ Instr.wf (.hbmTempRead 0 255) = true ∧
    Instr.wf (.timeInEdge 0 false false (BitVec.ofNat 96 (999999999 * 65536))) = true ∧
    Instr.wf (.gNop 0 (zeroPf (.load (some (1, .inc)) (some (2, .inc)) 0)) .clean) = true ∧
    Instr.wf (.gStw 0 (memField 3) .clean) = true ∧ Instr.wf (.gLd 0 (memField 7) .clean) = true := by decide +kernel

/-! Gloss words, bit by bit from the formats (09 R290, R291, R297) -/

theorem test_words_p :
    -- MAC W2, V0, V1
    GInstr.decode 0b00000010100000010000000000000000 0 = some (.p .mac { a := 2, m := 0, n := 1, x := .none }) ∧
    -- CLR W2 with V0 := X[P1++], V1 := Y[P4++]
    GInstr.decode 0b00010000100000000110010111000100 0 =
      some (.p .clr { a := 2, m := 0, n := 0, x := .load (some (1, .inc)) (some (4, .inc)) 0 }) ∧
    -- NOP with Y[P5 + K5] := V3
    GInstr.decode 0b00000000000000001011011101100000 0 =
      some (.p .nop { a := 0, m := 0, n := 0, x := .store true 5 .step 3 }) ∧
    -- LDQ W0, V4
    GInstr.decode 0b00011110001000000000000000000000 0 = some (.p .ldq { a := 0, m := 4, n := 0, x := .none }) := by decide
theorem test_words_r_m :
    -- RND V3 from W1 with sh 23
    GInstr.decode 0b01000010000110000100000000010111 0 = some (.r .rnd { dst := 3, src := 1, imm := 23 }) ∧
    -- STW X[P2++] := W0, sh 24
    GInstr.decode 0b10000010000001001110000000000000 0 =
      some (.m .stw { inY := false, reg := 0, ptr := 2, upd := .inc, sh := 24 }) ∧
    -- LD V7 from Y[P3--]
    GInstr.decode 0b10000000111101110000000000000000 0 =
      some (.m .ld { inY := true, reg := 7, ptr := 3, upd := .dec, sh := 0 }) := by decide
theorem test_words_c :
    -- BEQ 100; LOOP 1,024 to 7; LOOPD V5 to 9
    GInstr.decode 0b11000001000000000000000001100100 0 = some (.branch .beq 100) ∧
    GInstr.decode 0b11000111111111111100000000000111 0 = some (.loop 1023 7) ∧
    GInstr.decode 0b11001000000000010100000000001001 0 = some (.loopd 5 9) ∧
    -- LDIL 9 with 0xABCDEF in the second word
    GInstr.decode 0b11001001010010000000000000000000 0xABCDEF = some (.ldil 9 0xABCDEF) ∧
    -- WAITF 256, EVT 6, HALT
    GInstr.decode 0b11001010000000000000000100000000 0 = some (.waitf 256) ∧
    GInstr.decode 0b11001100000000000000000000000110 0 = some (.evt 6) ∧
    GInstr.decode 0b11001101000000000000000000000000 0 = some .halt ∧
    -- EMIT from Y through P2, length in V1, mode 3, OPEN, CLOSE
    GInstr.decode 0b11001011101000101111000000000000 0 =
      some (.emit { inY := true, ptr := 2, v := 1, mode := 3, opn := true, cls := true, avok := false, vreq := false }) := by
  decide
/-- An opcode not listed, transfer kind 3, a load of no side, a set RSVD bit and accumulator 4. -/
theorem test_words_illegal :
    GInstr.decode 0b00001001000000000000000000000000 0 = none ∧ GInstr.decode 0b00000000000000001100000000000000 0 = none ∧
    GInstr.decode 0b00000000000000000100000000000000 0 = none ∧ GInstr.decode 0b10000000000000000000000000000001 0 = none ∧
    GInstr.decode 0b10000010010000000000000000000000 0 = none ∧ GInstr.decode 0b11001110000000000000000000000000 0 = none := by
  decide
theorem wit_glossWords : GInstr.wf (.p .mac { a := 2, m := 0, n := 1, x := .none }) = true ∧ GInstr.wf .halt = true := by decide
theorem test_table_gives_no_bits : decodeTableWord 32 0 = none ∧ decodeTableWord 0 0 = none := ⟨rfl, rfl⟩

/-! The spec's worked examples -/

/-- 10, one address: six 24 GiB stacks, STREAM with hash. -/
def addressed : State :=
  { ready with
    hbm := { ready.hbm with stackTab := Vector.replicate 6 { stackOn with nSid := 3 } }
    world := { ready.world with regions := ready.world.regions.set 0 { region0 with map := 0b100 } } }
theorem test_example_address : hbmPlace addressed 0x1234567890 =
    some { stack := 4, sid := 0, pc := 2, col := 15, bg := 2, ba := 0, row := 8286, byte := 16 } := by decide +kernel
/-- 03, one sample of Carrow Flats. -/
theorem test_example_corner_turn :
    ctOffset { set1 with c8 := false, log2Td := 14, chCount := 240 } 8192 5000 17 1234567890 = 0x8C85A588 := by decide +kernel
/-- 07, one weight and one product. -/
theorem test_example_weight : weight (12288, 2048) 7328 = ((-10953, -5934), 0) ∧
    (-10953 * 5 - (-5934) * (-3) : Int) = -72567 ∧ requantBeam (-72567) 10 127 = (-71, false) ∧
    requantBeam 3189 10 127 = (3, false) := by decide +kernel
/-- 12, an unaligned transfer: the first burst, a full one and the last. -/
def unaligned (done : Nat) : Active :=
  { set := { Reset.dmaSet with dst := 0x4000007F5, len := 10000 }, running := true, endAs := none, ended := false, power := false,
    silent := false, done := done, crc := 0, poisoned := false, visible := none }
theorem test_example_bursts : burstLen (unaligned 0) = 11 ∧ burstLen (unaligned 11) = 512 ∧
    burstLen (unaligned (11 + 19 * 512)) = 261 := by decide +kernel
/-- 17, the resource of super-tile (8, 5) of channel 17 of product 0x010. -/
theorem test_example_resource : tileRes { tile1 with pid := 0x010, chan := 17, u := 8, v := 5 } = 0x16011010 := by decide +kernel
/-- 15, the gain of 1,047,808 samples. -/
theorem test_example_gain : levelGain 1047808 838246400 = 614 := by decide +kernel
/-- 05, the VIS payload of Carrow Flats; 04, the number of super-tiles of 16 blocks and the place of (8, 5). -/
theorem test_example_records : visPayloadLen 8192 1 0 = 335585280 ∧ (tileOrder 16).length = 136 ∧
    (tileOrder 16)[56]? = some (8, 5) := by decide +kernel
/-- 03, the requantization examples; the counter rate of 5,000,000 / 196,608 as a binary32 word. -/
theorem test_example_requantize : requantSample (40, -93) 0x0133 = ((3, -7), 0) ∧ requantSample (2, 6) 0x1400 = ((2, 7), 1) ∧
    f32Ratio 5000000 (256 * 768) = 0x41CB7355 := by decide +kernel
/-- 11, the completion of the refused BEAM_DEFINE. -/
theorem test_example_completion :
    let b := completionBytes (completionOf 0 0x0400 { Reply.mk' stEnvelope 8 1056768 1048576 0xFFFFFFFF with hostRead := false }) true 0
    field b 4 2 = 0x0302 ∧ field b 7 1 = 8 ∧ field b 8 8 = 0x102000 ∧ field b 16 8 = 0x100000 ∧ field b 24 4 = 0xFFFFFFFF ∧
      field b 30 2 = 0x0400 ∧ b.length = 32 := by decide +kernel

end Sys2Proof.Tests
end

/-! # The scope statements

What a Clause leaves unchanged (O60), the access of a register (O29), and that every command answers (O3). For O60 there is one
lemma per function that the Clauses' bodies call: `Touches w s t` says that from `s` to `t` at most the parts of `w` change, and
the lemma for `f` gives it from `s` to `f t` where it holds from `s` to `t`. -/

namespace Sys2Proof.Machine

open Sys2Proof.Safety

/-! ### What a Clause may touch -/

/-- The parts of the die that only some Clauses change. -/
inductive Part where
  | maps | dma | power | plinth | clock | role | corrs | gloss

/-- From `s` to `t` at most the parts of `w` change, of those that a Part names, and the read latches, the held commits and
the queue stay. -/
structure Touches (w : Part → Prop) (s t : State) : Prop where
  latches : t.latches = s.latches
  commitHold : t.commitHold = s.commitHold
  pending : t.pending = s.pending
  maps : ¬ w .maps → t.maps = s.maps
  dma : ¬ w .dma → t.dma = s.dma
  power : ¬ w .power → t.power = s.power
  plinth : ¬ w .plinth → t.plinth = s.plinth
  clock : ¬ w .clock → t.clock = s.clock
  role : ¬ w .role → t.pair.role = s.pair.role
  corrs : ¬ w .corrs → t.corrs = s.corrs
  gloss : ¬ w .gloss → t.gloss = s.gloss

/-- Everything that Touches speaks of. -/
def units (s : State) :=
  ((s.latches, s.commitHold, s.pending), s.maps, s.dma, s.power, s.plinth, s.clock, s.pair.role, s.corrs, s.gloss)

section
variable {w : Part → Prop} {s t u : State}

theorem Touches.of_units (h : units t = units s) : Touches w s t := by
  simp only [units, Prod.mk.injEq] at h
  obtain ⟨⟨h1, h2, h3⟩, m, d, p, pl, c, r, co, g⟩ := h
  exact ⟨h1, h2, h3, fun _ => m, fun _ => d, fun _ => p, fun _ => pl, fun _ => c, fun _ => r, fun _ => co, fun _ => g⟩

/-- Where every Part may change, only the latches, the held commits and the queue stay. -/
theorem Touches.of_all (hw : ∀ p, w p) (l : t.latches = s.latches) (c : t.commitHold = s.commitHold)
    (q : t.pending = s.pending) : Touches w s t :=
  have no {p : Part} {e : Prop} (n : ¬ w p) : e := absurd (hw p) n
  ⟨l, c, q, no, no, no, no, no, no, no, no⟩

theorem Touches.refl (s : State) : Touches w s s := .of_units rfl

theorem Touches.trans (a : Touches w s t) (b : Touches w t u) : Touches w s u where
  latches := b.latches.trans a.latches
  commitHold := b.commitHold.trans a.commitHold
  pending := b.pending.trans a.pending
  maps n := (b.maps n).trans (a.maps n)
  dma n := (b.dma n).trans (a.dma n)
  power n := (b.power n).trans (a.power n)
  plinth n := (b.plinth n).trans (a.plinth n)
  clock n := (b.clock n).trans (a.clock n)
  role n := (b.role n).trans (a.role n)
  corrs n := (b.corrs n).trans (a.corrs n)
  gloss n := (b.gloss n).trans (a.gloss n)

/-- An update of none of these fields touches nothing. -/
theorem Touches.same (h : Touches w s t) (e : units u = units t) : Touches w s u := h.trans (.of_units e)

theorem Touches.of_same (h : Touches w s t) (k : SameData t u) (r : u.pair.role = t.pair.role) : Touches w s u :=
  h.same (by simp only [units, k.latches, k.commitHold, k.pending, k.maps, k.dma, k.power, k.plinth, k.clock, k.corrs, k.gloss,
    r])

theorem Touches.ite {c : Prop} {_ : Decidable c} (a : Touches w s t) (b : Touches w s u) :
    Touches w s (if c then t else u) := by
  split <;> assumption

theorem Touches.ite_fst {α : Type} {c : Prop} {_ : Decidable c} {x y : State × α} (a : Touches w s x.1)
    (b : Touches w s y.1) : Touches w s (if c then x else y).1 := by
  split <;> assumption

/-- The second branch goes on from the first. -/
theorem Touches.ite_from {c : Prop} {_ : Decidable c} (a : Touches w s t) (b : Touches w s t → Touches w s u) :
    Touches w s (if c then t else u) := .ite a (b a)

/-- The first branch goes on from the second. -/
theorem Touches.ite_onto {c : Prop} {_ : Decidable c} (b : Touches w s u) (a : Touches w s u → Touches w s t) :
    Touches w s (if c then t else u) := .ite (a b) b

theorem Touches.foldl {α : Type} {g : State → α → State} {l : List α} (h : Touches w s t)
    (hg : ∀ u x, Touches w s u → Touches w s (g u x)) : Touches w s (l.foldl g t) := by
  induction l generalizing t with
  | nil => exact h
  | cons x l ih => exact ih (hg t x h)

end

/-! ### The fields that no Clause's frame speaks of -/

section
variable {w : Part → Prop} {s t : State}

theorem Touches.withWorld (h : Touches w s t) (x) : Touches w s { t with world := x } := h.same rfl

theorem Touches.withIntake (h : Touches w s t) (x) : Touches w s { t with intake := x } := h.same rfl

theorem Touches.withRelief (h : Touches w s t) (x) : Touches w s { t with relief := x } := h.same rfl

theorem Touches.withIstore (h : Touches w s t) (x) : Touches w s { t with istore := x } := h.same rfl

theorem Touches.withHbm (h : Touches w s t) (x) : Touches w s { t with hbm := x } := h.same rfl

theorem Touches.withOsl (h : Touches w s t) (x) : Touches w s { t with osl := x } := h.same rfl

theorem Touches.withNet (h : Touches w s t) (x) : Touches w s { t with net := x } := h.same rfl

theorem Touches.withTrims (h : Touches w s t) (x) : Touches w s { t with trims := x } := h.same rfl

theorem Touches.withBoot (h : Touches w s t) (x) : Touches w s { t with boot := x } := h.same rfl

theorem Touches.withFrieze (h : Touches w s t) (x) : Touches w s { t with frieze := x } := h.same rfl

theorem Touches.withChisel (h : Touches w s t) (x) : Touches w s { t with chisel := x } := h.same rfl

end

/-! ### The fields that a Part names, where the Part may change -/

section
variable {w : Part → Prop} {s t : State}

theorem Touches.withMaps (hw : w .maps) (h : Touches w s t) (x) : Touches w s { t with maps := x } :=
  h.trans { Touches.refl t with maps := fun n => absurd hw n }

theorem Touches.withDma (hw : w .dma) (h : Touches w s t) (x) : Touches w s { t with dma := x } :=
  h.trans { Touches.refl t with dma := fun n => absurd hw n }

theorem Touches.withPower (hw : w .power) (h : Touches w s t) (x) : Touches w s { t with power := x } :=
  h.trans { Touches.refl t with power := fun n => absurd hw n }

theorem Touches.withPlinth (hw : w .plinth) (h : Touches w s t) (x) : Touches w s { t with plinth := x } :=
  h.trans { Touches.refl t with plinth := fun n => absurd hw n }

theorem Touches.withClock (hw : w .clock) (h : Touches w s t) (x) : Touches w s { t with clock := x } :=
  h.trans { Touches.refl t with clock := fun n => absurd hw n }

theorem Touches.withCorrs (hw : w .corrs) (h : Touches w s t) (x) : Touches w s { t with corrs := x } :=
  h.trans { Touches.refl t with corrs := fun n => absurd hw n }

theorem Touches.withGloss (hw : w .gloss) (h : Touches w s t) (x) : Touches w s { t with gloss := x } :=
  h.trans { Touches.refl t with gloss := fun n => absurd hw n }

theorem Touches.withPair (h : Touches w s t) (x : Pair) (hr : ¬ w .role → x.role = t.pair.role) :
    Touches w s { t with pair := x } :=
  h.trans { Touches.refl t with role := hr }

/-- An update of the pair that keeps the role. -/
theorem Touches.withPairSame (h : Touches w s t) (x : Pair) (hr : x.role = t.pair.role := by rfl) :
    Touches w s { t with pair := x } := h.withPair x fun _ => hr

end

/-! ### What a computation that may refuse yields -/

/-- Every value the computation answers with has the property. -/
structure Yields {α : Type} (P : α → Prop) (x : Except Reply α) : Prop where
  of_ok : ∀ a, x = .ok a → P a

section
variable {α β : Type} {P : α → Prop} {Q : β → Prop} {w : Part → Prop} {s t : State}

theorem Yields.ok {a : α} (h : P a) : Yields P (.ok a) := ⟨by rintro _ ⟨⟩; exact h⟩

theorem Yields.error (r : Reply) : Yields P (.error r) := ⟨by rintro _ ⟨⟩⟩

theorem Yields.bind {x : Except Reply β} {f : β → Except Reply α} (h : Yields Q x) (k : ∀ b, Q b → Yields P (f b)) :
    Yields P (x >>= f) where
  of_ok a e := by
    obtain ⟨b, hb, ha⟩ := except_bind_ok.mp e
    exact (k b (h.of_ok b hb)).of_ok a ha

/-- A check, or any step whose value does not matter, goes before. -/
theorem Yields.after {x : Except Reply β} {f : β → Except Reply α} (k : ∀ b, Yields P (f b)) : Yields P (x >>= f) :=
  .bind (Q := fun _ => True) ⟨fun _ _ => trivial⟩ fun b _ => k b

theorem Yields.ite {c : Prop} {_ : Decidable c} {x y : Except Reply α} (a : Yields P x) (b : Yields P y) :
    Yields P (if c then x else y) := by
  split <;> assumption

/-- A Clause's body answers with states that differ from `s` in the parts of `w` at most. -/
abbrev Within (w : Part → Prop) (s : State) (x : Result) : Prop := Yields (fun a => Touches w s a.1) x

end

/-! ### Records, messages and completions -/

theorem writeEntry_pair (s : State) (f : Fn) (i : Nat) : (writeEntry s f i).pair = s.pair := by
  unfold writeEntry
  dsimp only
  split
  · rfl
  · split
    · split
      · rw [(sendVector_boot ..).2]; simp
      · simp
    · rfl

theorem flushQueue_pair (s : State) (f : Fn) (i : Nat) : (flushQueue s f i).pair = s.pair := by
  have h := foldl_keeps State.pair (fun t (_ : Nat) => writeEntry t f i) (fun t _ => writeEntry_pair t f i)
    (List.range (s.qp f i).owed.length) s
  unfold flushQueue
  dsimp only
  split
  · exact h
  · simpa using h

section
variable {w : Part → Prop} {s t : State}

theorem Touches.emit (h : Touches w s t) (e : Emission) : Touches w s (t.emit e) := h.same rfl

theorem Touches.setFn (h : Touches w s t) (f : Fn) (x : FnState) : Touches w s (t.setFn f x) := by
  cases f <;> exact h.same rfl

theorem Touches.setQp (h : Touches w s t) (f : Fn) (i : Nat) (q : Qp) : Touches w s (t.setQp f i q) := h.setFn ..

theorem Touches.setRing (h : Touches w s t) (f : Fn) (i : Nat) (r : Ring) : Touches w s (t.setRing f i r) := h.setFn ..

theorem Touches.sendVector (h : Touches w s t) (f : Fn) (v : Nat) : Touches w s (sendVector t f v) :=
  h.of_same ((SameData.refl t).sendVector f v) (by rw [(sendVector_boot ..).2])

theorem Touches.raiseAttn (h : Touches w s t) (b : Nat) : Touches w s (raiseAttn t b) :=
  h.of_same ((SameData.refl t).raiseAttn b) (by rw [(raiseAttn_boot ..).2])

theorem Touches.logRecord (h : Touches w s t) (e : ErrRec) : Touches w s (logRecord t e) :=
  h.of_same ((SameData.refl t).logRecord e) (by rw [logRecord_pair])

theorem Touches.raise (h : Touches w s t) (k : U16) (cls : Cls) (x : World) (r d : Nat) : Touches w s (raise t k cls x r d) :=
  h.logRecord _

theorem Touches.raiseDev (h : Touches w s t) (k : U16) (cls : Cls) (r d : Nat) : Touches w s (raiseDev t k cls r d) :=
  h.logRecord _

theorem Touches.flushQueue (h : Touches w s t) (f : Fn) (i : Nat) : Touches w s (flushQueue t f i) :=
  h.of_same ((SameData.refl t).flushQueue f i) (by rw [flushQueue_pair])

theorem Touches.owe (h : Touches w s t) (f : Fn) (i : Nat) (x : Completion) : Touches w s (owe t f i x) :=
  .ite h ((h.setQp ..).flushQueue ..)

theorem Touches.holdCompletion (h : Touches w s t) (c : Src) (m : Nat) (b : Bool) (x : Completion) :
    Touches w s (holdCompletion t c m b x) := h.same rfl

theorem Touches.followEntry (h : Touches w s t) (c : Src) (op k a b : Nat) : Touches w s (followEntry t c op k a b) := by
  unfold Machine.followEntry
  dsimp only
  split
  · exact h.holdCompletion ..
  · exact .ite h (.ite ((h.setQp ..).flushQueue ..) (h.setQp ..))

theorem Touches.complete (h : Touches w s t) (c : Src) (op : Nat) (r : Reply) (n : Option Nat) (b : Bool := false) :
    Touches w s (complete t c op r n b) := by
  unfold Machine.complete
  dsimp only
  split
  · exact h.holdCompletion ..
  · exact h.holdCompletion ..
  · exact h.owe ..

theorem Touches.untake (h : Touches w s t) (c : Src) : Touches w s (untake t c) :=
  h.of_same (untake_same t c) (by rw [untake_pair])

theorem Touches.answered (h : Touches w s t) (c : Src) (op : Nat) (r : Reply) : Touches w s (answered c op t r) :=
  h.of_same (answered_same c op t r) (answered_role c op t r)

theorem Touches.sendMsg (h : Touches w s t) (k : Nat) (p : List Byte) : Touches w s (sendMsg t k p).1 := h.same rfl

/-! ### Running a Clause -/

theorem runAs_touches {c : Clause} {body : State → Result} {u : State} (hb : ∀ s, Within w s (body s))
    (h : runAs c s body = .next u) : Touches w s u := by
  have hk := (Touches.refl (w := w) s).untake c.src
  unfold runAs at h
  dsimp only at h
  split at h
  · cases h; exact .refl s
  · split at h
    · cases h
      refine Touches.complete ?_ ..
      exact .ite (hk.raise ..) hk
    · next v r hr =>
      obtain ⟨-, -, hr⟩ := except_bind_ok.mp hr
      have hv := (hk.trans ((hb _).of_ok _ hr)).answered c.src c.opcode r
      unfold Safety.answered at hv
      dsimp only at hv
      split at h <;> cases h <;> simp_all

/-- A Clause touches no more than its body does. -/
theorem runClause_touches {i : Instr} {body : State → Result} {u : State} (h : runClause i s body = .next u)
    (hb : ∀ s, Within w s (body s)) : Touches w s u := by
  unfold runClause at h
  split at h
  · exact runAs_touches hb h
  · cases h; exact .refl s

/-! ### Answers -/

theorem Yields.done (h : Touches w s t) (a : Nat := 0) : Within w s (done t a) := .ok h

theorem Yields.deferred (h : Touches w s t) (k b : Nat) : Within w s (deferred t k b) := .ok h

theorem Yields.deferredTime (h : Touches w s t) (a : U96) : Within w s (deferredTime t a) := .ok h

theorem Yields.waits (h : Touches w s t) (l : List Nat) : Within w s (waits t l) := .ok h

theorem Yields.answerQuery (h : Touches w s t) (c : Src) (buf : HBuf) (bs : List Byte) :
    Within w s (answerQuery t c buf bs) := .ite (.error _) (.done (h.emit _) _)

theorem Yields.answerReport (h : Touches w s t) (c : Src) (buf : HBuf) (r : Report) :
    Within w s (answerReport t c buf r) := .answerQuery h c buf _

end

/-! ### Products and their records -/

section
variable {w : Part → Prop} {s t : State}

theorem Touches.setProduct (h : Touches w s t) (pid : Nat) (p : Product) : Touches w s (t.setProduct pid p) := h.same rfl

theorem Touches.delProduct (h : Touches w s t) (pid : Nat) : Touches w s (t.delProduct pid) := h.same rfl

theorem Touches.store (h : Touches w s t) (a : Nat) (bs : List Byte) : Touches w s (t.store a bs) := by
  rw [State.store_hbmOnly]
  exact h.same rfl

theorem Touches.pushOffer (h : Touches w s t) (o : Offer) : Touches w s (pushOffer t o) := h.same rfl

theorem Touches.egressAppend (h : Touches w s t) (e pid seq : Nat) (bs : List Byte) :
    Touches w s (egressAppend t e pid seq bs) := by
  unfold Machine.egressAppend
  dsimp only
  split
  · exact h
  · exact h.same rfl

theorem Touches.handOver (h : Touches w s t) (r : HeldRec) : Touches w s (handOver t r) := by
  unfold Machine.handOver
  dsimp only
  split
  · exact (h.foldl fun _ _ hu => hu.pushOffer _).egressAppend ..
  · exact h.foldl fun _ _ hu => hu.pushOffer _

theorem Touches.emittedThrough (h : Touches w s t) (r : HeldRec) : Touches w s (emittedThrough t r) := by
  unfold Machine.emittedThrough
  split
  · exact h.setProduct ..
  · exact h

theorem Touches.release (h : Touches w s t) (r : HeldRec) : Touches w s (release t r) := by
  unfold Machine.release
  split
  · exact h.handOver r
  · exact .ite (h.same rfl) ((h.handOver r).emittedThrough r)

theorem Touches.reserveAhead (h : Touches w s t) (pid : Nat) : Touches w s (reserveAhead t pid) := by
  unfold Machine.reserveAhead
  split
  · exact h
  · exact .ite ((h.sendMsg ..).setProduct ..) h

theorem Touches.sendNumbered (h : Touches w s t) (pid seq : Nat) (r : RecOut) : Touches w s (sendNumbered t pid seq r) := by
  unfold Machine.sendNumbered
  split
  · exact h
  · exact ((h.setProduct ..).release _).reserveAhead _

theorem Touches.takeNumber (h : Touches w s t) (pid : Nat) : Touches w s (takeNumber t pid).1 := by
  unfold Machine.takeNumber
  split
  · exact h
  · exact h.setProduct ..

theorem Touches.emitNumbered (h : Touches w s t) (pid : Nat) (r : RecOut) : Touches w s (emitNumbered t pid r) :=
  .ite h ((h.takeNumber pid).sendNumbered ..)

theorem Touches.flushErrors (h : Touches w s t) (pid : Nat) (k : Option (Nat × Nat)) (a b c : Nat) :
    Touches w s (flushErrors t pid k a b c) := by
  unfold Machine.flushErrors
  split
  · exact h
  · exact (h.setProduct ..).foldl fun u _ hu => hu.emitNumbered ..

theorem Touches.emitKeyed (h : Touches w s t) (pid : Nat) (k : Option (Nat × Nat)) (r : RecOut) :
    Touches w s (emitKeyed t pid k r) := (h.flushErrors ..).emitNumbered ..

theorem Touches.emitRecord (h : Touches w s t) (pid : Nat) (r : RecOut) : Touches w s (emitRecord t pid r) := h.emitKeyed ..

theorem Touches.emitGapKeyed (h : Touches w s t) (pid : Nat) (k : Option (Nat × Nat)) (a b c d e f g : Nat) :
    Touches w s (emitGapKeyed t pid k a b c d e f g) := .ite h (((h.flushErrors ..).takeNumber pid).sendNumbered ..)

theorem Touches.gapSuspended (h : Touches w s t) (pid a b c : Nat) : Touches w s (gapSuspended t pid a b c) := h.emitGapKeyed ..

theorem Touches.oweError (h : Touches w s t) (pid : Nat) (k : Option (Nat × Nat)) (x : LogEntry) :
    Touches w s (oweError t pid k x) := by
  unfold Machine.oweError
  split
  · exact h
  · exact .ite h (h.setProduct ..)

theorem Touches.raiseProduct (h : Touches w s t) (k : U16) (pid det : Nat) (a : Affects) :
    Touches w s (raiseProduct t k pid det a) := by
  unfold Machine.raiseProduct logForProduct
  refine .ite ?_ (h.logRecord _)
  split
  · exact (h.logRecord _).emitNumbered ..
  all_goals exact (h.logRecord _).oweError ..

theorem Touches.emitPoisoned (h : Touches w s t) (pid : Nat) (r : RecOut) : Touches w s (emitPoisoned t pid r) := by
  have hp := h.raiseProduct 0x0402 pid 1 .next
  unfold Machine.emitPoisoned
  dsimp only
  split
  · exact hp
  · split
    · exact ((hp.flushErrors ..).setProduct ..).emitGapKeyed ..
    · exact (hp.flushErrors ..).emitGapKeyed ..

theorem Touches.emitFromSlot (h : Touches w s t) (pid base len : Nat) (r : RecOut) :
    Touches w s (emitFromSlot t pid base len r) := .ite (h.emitPoisoned ..) (h.emitRecord ..)

theorem Touches.releaseHeld (h : Touches w s t) (pid : Nat) : Touches w s (releaseHeld t pid) :=
  .foldl (h.same rfl) fun _ _ hu => hu.release _

theorem Touches.suspendProduct (h : Touches w s t) (pid : Nat) : Touches w s (suspendProduct t pid) := by
  unfold Machine.suspendProduct
  split
  · exact h.setProduct ..
  · exact h

/-- A cut that waited for the product has one fewer to wait for, and may owe its follow entry. -/
theorem Touches.productStopped (h : Touches w s t) (pid : Nat) : Touches w s (productStopped t pid) :=
  have hc : ∀ {u : State} (l : List Cut), Touches w s u → Touches w s { u with world := { u.world with cuts := l } } :=
    fun _ hu => hu.same rfl
  h.foldl fun u c hu => by
    dsimp only
    split
    · split
      · exact (hc _ hu).followEntry ..
      · exact hc _ hu
    · exact hu

theorem Touches.freeAllocs (h : Touches w s t) (p : AllocKind → Bool) : Touches w s (freeAllocs t p) := h.same rfl

theorem Touches.addAlloc (h : Touches w s t) (a : Alloc) : Touches w s (addAlloc t a) := h.same rfl

/-- Placing an area adds an allocation. -/
theorem Yields.place (h : Touches w s t) (x : World) (k : AllocKind) (n : Nat) :
    Yields (fun a => Touches w s a.1) (place t x k n) := by
  unfold Machine.place
  dsimp only
  split
  · exact .ok (h.addAlloc _)
  · exact .error _

/-! ### SYS Clauses -/

theorem ringDefine_within (s : State) (f : Fn) (ring vector coalesce timeUs : Nat) (wb : U64) (k : Nat) (base : U64) :
    Within w s (ringDefine s f ring vector coalesce timeUs wb k base) := by
  unfold ringDefine
  repeat refine .after fun _ => ?_
  exact .done (((Touches.refl s).setRing ..).emit _)

theorem ringRelease_within (s : State) (f : Fn) (ring : Nat) : Within w s (ringRelease s f ring) :=
  .after fun _ => .ite (.done (.refl s)) (.after fun _ => .done ((Touches.refl s).setRing ..))

/-! ### Lanes -/

theorem Touches.setLane (h : Touches w s t) (i : Nat) (x : Lane) : Touches w s (t.setLane i x) := h.same rfl

theorem Touches.setLaneTrim (h : Touches w s t) (l : Nat) (x : LaneTrim) : Touches w s (t.setLaneTrim l x) := h.same rfl

theorem Touches.startTrim (h : Touches w s t) (l : Nat) (b : Bool) : Touches w s (startTrim t l b) := h.same rfl

theorem Touches.dropTrim (h : Touches w s t) (l : Nat) : Touches w s (dropTrim t l) := by
  unfold Machine.dropTrim
  dsimp only
  split
  · exact h.same rfl
  · exact h

theorem Touches.loseTrims (h : Touches w s t) (l : Nat) : Touches w s (loseTrims t l) := (h.dropTrim l).setLaneTrim ..

theorem Touches.rxStart (h : Touches w s t) (l : Nat) : Touches w s (rxStart t l) := h.setLane ..

theorem Touches.rxDefine (h : Touches w s t) (l : Nat) : Touches w s (rxDefine t l) := (h.setLane ..).rxStart l

theorem Touches.txStart (h : Touches w s t) (l : Nat) : Touches w s (txStart t l) := h.setLane ..

theorem Touches.txDefine (h : Touches w s t) (l : Nat) : Touches w s (txDefine t l) := .ite (h.setLane ..) (h.txStart l)

theorem Touches.startSearch (h : Touches w s t) (l : Nat) : Touches w s (startSearch t l) := h.setLane ..

theorem Touches.rxEnter (h : Touches w s t) (l k : Nat) : Touches w s (rxEnter t l k) :=
  (Touches.ite (h.loseTrims l) (h.dropTrim l)).setLane ..

theorem Touches.txEnter (h : Touches w s t) (l k : Nat) : Touches w s (txEnter t l k) := h.setLane ..

theorem Touches.rxWake (h : Touches w s t) (l : Nat) : Touches w s (rxWake t l) := by
  unfold Machine.rxWake
  split
  · exact .ite (((h.setLane ..).startSearch l).startTrim ..) ((h.setLane ..).startSearch l)
  · exact (h.rxStart l).setLane ..
  · exact h.rxStart l
  · exact h

theorem Touches.rxAdvance (h : Touches w s t) (l : Nat) : Touches w s (rxAdvance t l).1 := by
  unfold Machine.rxAdvance
  split
  · exact h
  · have hw : Touches w s (if rxAsleep (t.lane l) then Machine.rxWake t l else t) := .ite (h.rxWake l) h
    exact .ite_fst (hw.setLane ..) hw
  · split
    · exact (h.rxEnter ..).setLane ..
    · exact h

theorem Touches.txAdvance (h : Touches w s t) (l : Nat) : Touches w s (txAdvance t l).1 := by
  unfold Machine.txAdvance
  dsimp only
  split
  · exact h
  · split
    · exact Touches.setLane (.ite (h.setLane ..) (h.txStart l)) ..
    · split
      · exact h.setLane ..
      · exact h
  · split
    · exact (h.txEnter ..).setLane ..
    · split
      · split
        · exact h.setLane ..
        · exact (h.txEnter ..).setLane ..
        · exact h
      · exact h

theorem Touches.rxSettle (h : Touches w s t) (l : Nat) : Touches w s (rxSettle t l) := h.foldl fun _ _ hu => hu.rxAdvance l

theorem Touches.txSettle (h : Touches w s t) (l : Nat) : Touches w s (txSettle t l) := h.foldl fun _ _ hu => hu.txAdvance l

theorem Touches.addOp (h : Touches w s t) (d l k : Nat) : Touches w s (addOp t d l k).1 := by
  unfold Machine.addOp
  dsimp only
  split
  · exact (h.setLane ..).rxSettle l
  · exact (h.setLane ..).txSettle l

/-- A fold over a state and what is gathered on the way. -/
theorem Touches.foldl_fst {α β : Type} {g : State × β → α → State × β} {l : List α} {b : β} (h : Touches w s t)
    (hg : ∀ u x, Touches w s u.1 → Touches w s (g u x).1) : Touches w s (l.foldl g (t, b)).1 := by
  have : ∀ x : State × β, Touches w s x.1 → Touches w s (l.foldl g x).1 := by
    induction l with
    | nil => exact fun _ h => h
    | cons a l ih => exact fun x hx => ih _ (hg x a hx)
  exact this (t, b) h

theorem Touches.addOps (h : Touches w s t) (d k : Nat) (l : List Nat) : Touches w s (addOps t d k l).1 :=
  h.foldl_fst fun _ _ hu => hu.addOp ..

theorem Touches.laneOff (h : Touches w s t) (d l : Nat) : Touches w s (laneOff t d l) :=
  .ite ((h.rxEnter ..).setLane ..) (.ite (h.setLane ..) ((h.setLane ..).txEnter ..))

theorem Touches.loopOff (h : Touches w s t) (l : Nat) : Touches w s (loopOff t l) :=
  .ite (Touches.txStart (.ite ((h.setLane ..).rxStart l) (h.setLane ..)) l) (.ite ((h.setLane ..).rxStart l) (h.setLane ..))

theorem laneDefine_within (s : State) (f : Fn) (first code dir : Nat) : Within w s (laneDefine s f first code dir) := by
  unfold laneDefine
  repeat refine .after fun _ => ?_
  refine .waits (Touches.foldl (.ite ?_ ?_) fun u l hu => .ite (hu.rxDefine l) (hu.txDefine l)) _
  · exact (Touches.refl s).same rfl
  · exact (Touches.refl s).same rfl

theorem laneRelease_within (s : State) (f : Fn) (first dir : Nat) : Within w s (laneRelease s f first dir) := by
  unfold laneRelease
  repeat refine .after fun _ => ?_
  refine .done (Touches.foldl (.ite ?_ ?_) fun u l hu => hu.laneOff ..)
  · exact (Touches.refl s).same rfl
  · exact (Touches.refl s).same rfl

theorem laneTransition_within (s : State) (f : Fn) (first dir k : Nat) (bad : Bool) :
    Within w s (laneTransition s f first dir k bad) := by
  unfold laneTransition
  repeat refine .after fun _ => ?_
  refine .waits (Touches.addOps (.ite ?_ (.refl s)) ..) _
  exact (Touches.refl s).same rfl

theorem laneTxPrecode_within (s : State) (f : Fn) (first enable : Nat) : Within w s (laneTxPrecode s f first enable) := by
  unfold laneTxPrecode
  repeat refine .after fun _ => ?_
  exact .done ((Touches.refl s).foldl fun _ _ hu => hu.setLane ..)

theorem laneThresholds_within (s : State) (f : Fn) (first : Nat) (v : U32) : Within w s (laneThresholds s f first v) := by
  unfold laneThresholds
  repeat refine .after fun _ => ?_
  exact .done ((Touches.refl s).foldl fun _ _ hu => hu.setLane ..)

theorem laneEgressBind_within (s : State) (f : Fn) (first egress : Nat) : Within w s (laneEgressBind s f first egress) := by
  have h : ∀ o : Osl, Touches w s { s with osl := o } := fun _ => (Touches.refl s).same rfl
  unfold laneEgressBind
  repeat refine .after fun _ => ?_
  exact .ite (.done (h _)) (.deferred (h _) _ _)

theorem diagLoopback_within (s : State) (f : Fn) (first dir mode : Nat) : Within w s (diagLoopback s f first dir mode) := by
  unfold diagLoopback
  repeat refine .after fun _ => ?_
  refine .ite (.done ?_) (.done ?_)
  · exact (Touches.refl s).foldl fun _ _ hu => hu.loopOff _
  · exact (Touches.refl s).foldl fun _ _ hu => hu.setLane ..

end

/-! ### The corner turn and the statistics -/

section
variable {w : Part → Prop} {s t : State}

theorem Touches.clearPoison (h : Touches w s t) (lo hi : Nat) : Touches w s (clearPoison t lo hi) := h.same rfl

theorem Touches.setStream (h : Touches w s t) (n : Nat) (x : Stream) : Touches w s (t.setStream n x) := h.same rfl

theorem Touches.setSet (h : Touches w s t) (x : CtSet) : Touches w s (setSet t x) := h.same rfl

theorem Touches.historyWritten (h : Touches w s t) (id d : Nat) : Touches w s (historyWritten t id d) :=
  h.foldl fun _ _ hu => hu.clearPoison ..

theorem Touches.ctOverrun (h : Touches w s t) (x : CtSet) (d : Nat) : Touches w s (ctOverrun t x d) :=
  Touches.raiseProduct (.withIntake (h.setSet _) _) ..

theorem Touches.ctDwellStart (h : Touches w s t) (x : CtSet) (k : Nat) : Touches w s (ctDwellStart t x k) := by
  unfold Machine.ctDwellStart
  refine .ite h ?_
  dsimp only
  split
  · exact h.ctOverrun ..
  · exact (h.historyWritten ..).setSet _

theorem Touches.ctWritePair (h : Touches w s t) (rows : List SettledRow) (x : CtSet) (n pos inp c g : Nat) :
    Touches w s (ctWritePair t rows x n pos inp c g) := by
  unfold Machine.ctWritePair
  split
  · exact h
  · refine h.foldl fun u k hu => ?_
    dsimp only
    split <;> exact hu.store ..

theorem Touches.ctClear (h : Touches w s t) (x : CtSet) (n c g : Nat) : Touches w s (ctClear t x n c g) :=
  h.foldl fun _ _ hu => hu.clearPoison ..

theorem Touches.dwellReady (h : Touches w s t) (id d : Nat) : Touches w s (dwellReady t id d) := h.same rfl

theorem Touches.ctGranule (h : Touches w s t) (rows : List SettledRow) (x : CtSet) (g : Nat) :
    Touches w s (ctGranule t rows x g) := by
  have hc : Touches w s ((List.range x.chCount).foldl (fun t' c => (enumFrom0 (mapEntries t x.map)).foldl
      (fun t' e => Machine.ctWritePair t' rows x (mapEntries t x.map).length e.1 e.2 c g)
      (Machine.ctClear t' x (mapEntries t x.map).length c g)) t) :=
    h.foldl fun _ _ hu => (hu.ctClear ..).foldl fun _ _ hv => hv.ctWritePair ..
  exact .ite (.ite ((hc.setSet _).dwellReady ..) (hc.setSet _)) (.ite (h.dwellReady ..) h)

theorem Touches.setStats (h : Touches w s t) (x : Stats) : Touches w s (setStats t x) := h.same rfl

theorem Touches.statGranule (h : Touches w s t) (rows : List SettledRow) (g : Nat) (x : Stats) :
    Touches w s (statGranule t rows g x) := by
  have he : ∀ r y, Touches w s (Machine.setStats (Machine.emitRecord t x.pid r) y) := fun r y => (h.emitRecord ..).setStats _
  exact .ite h (.ite (.ite (((he _ _).gapSuspended ..).suspendProduct _ |>.productStopped _) (he _ _)) (h.setStats _))

/-! ### The release front -/

theorem Touches.levelsAfter (h : Touches w s t) (k : Nat) : Touches w s (levelsAfter t k) := h.same rfl

theorem Touches.applyGains (h : Touches w s t) (k : Nat) : Touches w s (applyGains t k) := h.same rfl

theorem Touches.countGranules (h : Touches w s t) (n a b : Nat) : Touches w s (countGranules t n a b) := h.setStream ..

theorem Touches.settleGranule (h : Touches w s t) (g : Nat) : Touches w s (settleGranule t g) := by
  unfold Machine.settleGranule
  refine .ite_from (.withIntake (h.foldl fun _ _ hu => hu.countGranules ..) _) fun hv => ?_
  refine .ite_from (.levelsAfter (.applyGains (.withTrims ?_ _) _) _) fun hl => hl.withIntake _
  exact (hv.foldl fun _ _ hu => hu.ctGranule ..).foldl fun _ _ hu => hu.statGranule ..

theorem Touches.epochDev (h : Touches w s t) (k : Nat) : Touches w s (epochDev t k) :=
  .ite h (.ite (((h.withIntake _).withIntake _).raiseDev ..) (h.withIntake _))

theorem Touches.levelStart (h : Touches w s t) (k : Nat) : Touches w s (levelStart t k) := .ite h (h.withTrims _)

theorem Touches.releaseRow (h : Touches w s t) : Touches w s (releaseRow t) := by
  unfold Machine.releaseRow
  refine .epochDev ?_ _
  refine .ite_onto ?_ fun hu => hu.settleGranule _
  refine .ite (.foldl (.levelStart ?_ _) fun _ _ hu => hu.ctDwellStart ..) ?_
  · exact h.withIntake _
  · exact h.withIntake _

theorem Touches.releaseWhile (c : State → Bool) (n : Nat) (h : Touches w s t) : Touches w s (releaseWhile c n t) := by
  induction n generalizing t with
  | zero => exact h
  | succ n ih => exact .ite (ih h.releaseRow) h

theorem Touches.releaseReady (h : Touches w s t) : Touches w s (releaseReady t) := h.releaseWhile ..

theorem Touches.putGains (h : Touches w s t) (l : List ((Nat × Nat) × U16)) : Touches w s (putGains t l) := h.withIntake _

theorem Touches.takeKeptGains (h : Touches w s t) (n : Nat) (d : StreamDef) : Touches w s (takeKeptGains t n d) := by
  unfold Machine.takeKeptGains
  split
  · exact h
  · exact .ite (h.putGains _) h

theorem Touches.loadGains (h : Touches w s t) (n b : Nat) (l : List ((Nat × Nat) × U16)) (trim : Bool) :
    Touches w s (loadGains t n b l trim) := .ite_from (h.withIntake _) fun hu => hu.withTrims _

/-! ### INTAKE Clauses -/

theorem streamDefine_within (s : State) (f : Fn) (n : Nat) (d : StreamDef) : Within w s (streamDefine s f n d) := by
  unfold streamDefine
  repeat refine .after fun _ => ?_
  exact .done (((Touches.refl s).takeKeptGains ..).setStream ..) _

theorem streamRelease_within (s : State) (f : Fn) (n : Nat) : Within w s (streamRelease s f n) := by
  unfold streamRelease
  repeat refine .after fun _ => ?_
  refine .done (.releaseReady ?_) _
  exact (Touches.refl s).same rfl

theorem setSkew_within (s : State) (k : Nat) : Within w s (setSkew s k) := by
  unfold setSkew
  repeat refine .after fun _ => ?_
  exact .done (.releaseReady (.releaseWhile _ _ (.withIntake (.refl s) _))) _

theorem setEpoch_within (s : State) (t0 : U96) (num den tol : Nat) : Within w s (setEpoch s t0 num den tol) := by
  unfold setEpoch
  repeat refine .after fun _ => ?_
  exact .done (.withIntake (.refl s) _) _

theorem setGains_within (s : State) (f : Fn) (n first count chFirst chCount : Nat) (buf : HBuf) (data : HRead) :
    Within w s (setGains s f n first count chFirst chCount buf data) := by
  unfold setGains
  repeat refine .after fun _ => ?_
  refine .ite (.error _) (.after fun _ => ?_)
  exact .deferred ((Touches.refl s).loadGains ..) _ _

theorem statsDefine_within (s : State) (f : Fn) (x : Stats) (tap : Nat) (route : U32) :
    Within w s (statsDefine s f x tap route) := by
  unfold statsDefine
  repeat refine .after fun _ => ?_
  exact .done (.withIntake ((Touches.refl s).setProduct ..) _) _

theorem statsRelease_within (s : State) (f : Fn) (pid : Nat) : Within w s (statsRelease s f pid) := by
  unfold statsRelease
  refine .after fun p => ?_
  split
  · exact .error _
  · refine .done (.productStopped (.delProduct (.withIntake (.ite ?_ (.refl s)) _) _) _) _
    exact (Touches.refl s).emitRecord ..

/-! ### The Relief -/

theorem Touches.setRelief (h : Touches w s t) (r : Relief) : Touches w s (t.setRelief r) := h.withRelief r

theorem Touches.recompile (h : Touches w s t) : Touches w s (recompile t) := h.setRelief _

theorem Touches.applyCellWords (h : Touches w s t) : Touches w s (applyCellWords t) := by
  unfold Machine.applyCellWords
  split
  · exact h
  · refine .ite h (.withTrims (Touches.foldl (h.foldl fun _ _ hu => ?_) fun _ _ hu => .ite (hu.setRelief _) hu) _)
    exact .ite ((hu.setRelief _).withTrims _) (hu.setRelief _)

theorem faultInject_within (s : State) (row pos baseline comp bit mode : Nat) :
    Within w s (faultInject s row pos baseline comp bit mode) := by
  unfold faultInject
  repeat refine .after fun _ => ?_
  refine .ite (.done ((Touches.refl s).setRelief _) _) ?_
  repeat refine .after fun _ => ?_
  exact .done ((Touches.refl s).setRelief _) _

end

/-! ### Input maps -/

section
variable {w : Part → Prop} {s t : State}

theorem mapLoad_within (hw : w .maps) (s : State) (f : Fn) (buf : HBuf) (data : HRead) : Within w s (mapLoad s f buf data) := by
  unfold mapLoad
  repeat refine .after fun _ => ?_
  dsimp only
  split
  · exact .error _
  · exact .after fun _ => .done (.withMaps hw (.refl s) _) _

theorem mapFree_within (hw : w .maps) (s : State) (f : Fn) (k : Nat) : Within w s (mapFree s f k) := by
  unfold mapFree
  repeat refine .after fun _ => ?_
  exact .done (.withMaps hw (.refl s) _) _

theorem setRoute_within (s : State) (f : Fn) (p : Product) (route : U32) (off : Nat) : Within w s (setRoute s f p route off) := by
  unfold setRoute
  repeat refine .after fun _ => ?_
  exact .deferred ((Touches.refl s).setProduct ..) _ _

/-! ### Correlation products -/

/-- A set that is new adds its area. -/
theorem Yields.takeSet (h : Touches w s t) (x : World) (c : Corr) (n d : Nat) :
    Yields (fun a => Touches w s a.1) (takeSet t x c n d) := by
  unfold Machine.takeSet
  split
  · exact .ok h
  · exact .bind (.place h _ _ _) fun _ hr => .ok (hr.withIntake _)

theorem Yields.placeAreas (h : Touches w s t) (x : World) (c : Corr) (n output : Nat) :
    Yields (Touches w s) (placeAreas t x c n output) :=
  .bind (.place h _ _ _) fun _ h1 => .bind (.place h1 _ _ _) fun _ h2 => .ok h2

theorem Yields.growEmit (h : Touches w s t) (x : World) (c : Corr) (n : Nat) : Yields (Touches w s) (growEmit t x c n) :=
  .ite (.ok h) (.bind (.place (h.withHbm _) _ _ _) fun _ hr => .ok hr)

section
variable (hw : w .corrs)
include hw

theorem Touches.setCorr (h : Touches w s t) (c : Corr) : Touches w s (t.setCorr c) := .withCorrs hw h _

theorem Touches.dropCorr (h : Touches w s t) (c : Corr) : Touches w s (dropCorr t c) := by
  refine .productStopped (.recompile (.delProduct ?_ _)) _
  refine .ite_onto (.setRelief (.freeAllocs (.withCorrs hw h _) _) _) fun hr => hr.withIntake _

theorem Touches.stopGroup (h : Touches w s t) (pid q : Nat) : Touches w s (stopGroup t pid q) := by
  unfold Machine.stopGroup
  split
  · exact h
  · split
    · exact h
    · exact .ite (.ite_from (h.setCorr hw _) fun hc => (hc.gapSuspended ..).withIstore _) h

theorem Touches.checkStops (h : Touches w s t) (pid : Nat) : Touches w s (checkStops t pid) := by
  unfold Machine.checkStops
  split
  · exact h
  · have hg := fun l : List Nat => h.foldl (l := l) fun _ q hu => hu.stopGroup hw pid q
    dsimp only
    split
    · exact hg _
    · refine .ite (hg _) (.ite (.ite (hg _) ((hg _).dropCorr hw _)) (.ite (hg _) ?_))
      exact ((hg _).suspendProduct _).recompile.productStopped _

theorem Touches.stopCorr (h : Touches w s t) (c : Corr) (b : Bool) : Touches w s (stopCorr t c b).1 :=
  (h.setCorr hw _).checkStops hw _

/-! ### CORR Clauses -/

theorem corrDefine_within (s : State) (f : Fn) (c : Corr) (flags output : Nat) (route : U32) :
    Within w s (corrDefine s f c flags output route) := by
  unfold corrDefine
  iterate 18 refine .after fun _ => ?_
  refine .bind (.takeSet (w := w) ((Touches.refl s).addAlloc _) _ _ _ _) fun _ ht => ?_
  refine .bind (.placeAreas (w := w) ht _ _ _ _) fun _ ha => ?_
  exact .after fun _ => .deferred (.recompile (.withCorrs hw (ha.setProduct ..) _)) _ _

theorem corrRelease_within (s : State) (f : Fn) (pid : Nat) : Within w s (corrRelease s f pid) := by
  unfold corrRelease
  repeat refine .after fun _ => ?_
  refine .ite (.deferred ?_ _ _) (.deferred ?_ _ _)
  · exact ((Touches.refl s).setCorr hw _).checkStops hw _
  · exact (Touches.refl s).stopCorr hw _ _

theorem corrSuspend_within (s : State) (f : Fn) (pid : Nat) : Within w s (corrSuspend s f pid) := by
  unfold corrSuspend
  repeat refine .after fun _ => ?_
  exact .deferred ((Touches.refl s).stopCorr hw _ _) _ _

theorem corrResume_within (s : State) (f : Fn) (pid : Nat) : Within w s (corrResume s f pid) := by
  unfold corrResume
  repeat refine .after fun _ => ?_
  exact .deferred (.recompile (.setProduct (.setCorr hw (.refl s) _) _ _)) _ _

theorem corrSetMode_within (s : State) (f : Fn) (pid mode : Nat) : Within w s (corrSetMode s f pid mode) := by
  unfold corrSetMode
  repeat refine .after fun _ => ?_
  exact .deferred (.recompile (.setProduct (.setCorr hw (.refl s) _) _ _)) _ _

theorem corrSetOutput_within (s : State) (f : Fn) (pid output : Nat) : Within w s (corrSetOutput s f pid output) := by
  unfold corrSetOutput
  iterate 4 refine .after fun _ => ?_
  refine .bind (.growEmit (w := w) (.refl s) _ _ _) fun _ hg => .after fun _ => ?_
  exact .deferred ((hg.setCorr hw _).setProduct ..) _ _

theorem corrSnapshot_within (s : State) (src : Src) (pid first count area len : Nat) :
    Within w s (corrSnapshot s src pid first count area len) := by
  unfold corrSnapshot
  repeat refine .after fun _ => ?_
  exact .ok (.withIstore (.addAlloc (.setCorr hw (.refl s) _) _) _)

end
end

/-! ### Frieze products -/

section
variable {w : Part → Prop} {s t : State}

theorem Touches.setFzProd (h : Touches w s t) (p : FzProd) : Touches w s (t.setFzProd p) := h.withFrieze _

theorem Touches.putEntries (h : Touches w s t) (b : Bool) (l : List (Nat × Nat)) : Touches w s (putEntries t b l) :=
  .ite (h.withFrieze _) (h.withFrieze _)

theorem Touches.dropFrieze (h : Touches w s t) (pid : Nat) : Touches w s (dropFrieze t pid) := by
  have hf : ∀ (f : Frieze) p, Touches w s (Machine.freeAllocs { t with frieze := f } p) :=
    fun _ _ => (h.withFrieze _).freeAllocs _
  refine .productStopped (.delProduct ?_ _) _
  split
  · exact (hf _ _).followEntry ..
  · exact hf _ _

theorem Touches.friezeStops (h : Touches w s t) (pid : Nat) : Touches w s (friezeStops t pid) := by
  unfold Machine.friezeStops
  split
  · exact h
  · split
    · refine .ite h (.ite (h.dropFrieze _) ?_)
      refine .productStopped (.suspendProduct (.gapSuspended (.setFzProd ?_ _) _ _ _ _) _) _
      split
      · exact h.setProduct ..
      · exact h
    · exact h

theorem Touches.stopBeam (h : Touches w s t) (p : FzProd) (b : Bool) : Touches w s (stopBeam t p b).1 :=
  (h.setFzProd _).friezeStops _

theorem Touches.startSwap (h : Touches w s t) (x : DelaySwap) : Touches w s (startSwap t x) := h.withFrieze _

theorem Touches.copyArea (h : Touches w s t) (a n : Nat) : Touches w s (copyArea t a n) := .ite (h.sendMsg ..) h

/-! ### BEAM Clauses -/

theorem beamDefine_within (s : State) (f : Fn) (p : FzProd) (handle flags sh shP : Nat) (route : U32) (buf : HBuf)
    (data : HRead) : Within w s (beamDefine s f p handle flags sh shP route buf data) := by
  unfold beamDefine
  repeat refine .after fun _ => ?_
  refine .ite (.error _) ?_
  iterate 6 refine .after fun _ => ?_
  refine .bind (.place (w := w) (.refl s) _ _ _) fun _ hr => .after fun _ => ?_
  exact .deferred (.store (.putEntries (.withFrieze (hr.setProduct ..) _) _ _) _ _) _ _

theorem beamRelease_within (s : State) (f : Fn) (pid : Nat) : Within w s (beamRelease s f pid) := by
  unfold beamRelease
  repeat refine .after fun _ => ?_
  exact .ite (.deferred ((Touches.refl s).dropFrieze _) _ _) (.deferred ((Touches.refl s).stopBeam ..) _ _)

theorem beamSuspend_within (s : State) (f : Fn) (pid : Nat) : Within w s (beamSuspend s f pid) := by
  unfold beamSuspend
  repeat refine .after fun _ => ?_
  exact .deferred ((Touches.refl s).stopBeam ..) _ _

theorem beamResume_within (s : State) (f : Fn) (pid : Nat) : Within w s (beamResume s f pid) := by
  unfold beamResume
  repeat refine .after fun _ => ?_
  exact .deferred (((Touches.refl s).setFzProd _).setProduct ..) _ _

theorem delayLoad_within (s : State) (f : Fn) (pid first count : Nat) (buf : HBuf) (data : HRead) :
    Within w s (delayLoad s f pid first count buf data) := by
  unfold delayLoad
  repeat refine .after fun _ => ?_
  refine .ite (.error _) (.after fun _ => .ite (.waits ?_ _) (.waits ?_ _))
  · exact (Touches.refl s).putEntries ..
  · exact ((Touches.refl s).setFzProd _).putEntries ..

theorem delaySwitch_within (s : State) (time tRef : U96) : Within w s (delaySwitch s time tRef) := by
  unfold delaySwitch
  repeat refine .after fun _ => ?_
  exact .deferred (.withFrieze (.refl s) _) _ _

theorem delaySwap_within (s : State) (src : Src) (pid beam : Nat) (buf : HBuf) (data : HRead) :
    Within w s (delaySwap s src pid beam buf data) := by
  unfold delaySwap
  repeat refine .after fun _ => ?_
  refine .ite (.error _) (.after fun _ => .ite (.deferred ((Touches.refl s).startSwap _) _ _) ?_)
  exact .waits (.withFrieze (.refl s) _) _

theorem delayMode_within (s : State) (mode : Nat) : Within w s (delayMode s mode) := by
  unfold delayMode
  repeat refine .after fun _ => ?_
  exact .done (.withFrieze (.refl s) _) _

theorem beamSetGains_within (s : State) (src : Src) (pid which area boundary : Nat) :
    Within w s (beamSetGains s src pid which area boundary) := by
  have hg : ∀ p : FzProd, Touches w s (s.setFzProd p) := (Touches.refl s).setFzProd
  unfold beamSetGains
  iterate 3 refine .after fun _ => ?_
  refine .ite ?_ ?_
  · repeat refine .after fun _ => ?_
    exact .ok (.copyArea (.ite (hg _) ((hg _).addAlloc _)) _ _)
  · repeat refine .after fun _ => ?_
    exact .ok (.copyArea (.ite (hg _) ((hg _).addAlloc _)) _ _)

theorem beamSetScale_within (s : State) (f : Fn) (pid first count sh shP : Nat) :
    Within w s (beamSetScale s f pid first count sh shP) := by
  unfold beamSetScale
  repeat refine .after fun _ => ?_
  exact .deferred ((Touches.refl s).setFzProd _) _ _

theorem beamSetRoute_within (s : State) (f : Fn) (pid : Nat) (route : U32) (mask : Nat) :
    Within w s (beamSetRoute s f pid route mask) := by
  unfold beamSetRoute
  repeat refine .after fun _ => ?_
  exact .deferred (((Touches.refl s).setFzProd _).setProduct ..) _ _

theorem importBind_within (s : State) (f : Fn) (pid first : Nat) (serial : U32) (remote window : Nat) :
    Within w s (importBind s f pid first serial remote window) := by
  unfold importBind
  repeat refine .after fun _ => ?_
  exact .done ((Touches.refl s).setFzProd _) _

end

/-! ### Captures and events of a zoom chain -/

section
variable {w : Part → Prop} {s t : State}

theorem Touches.setChain (h : Touches w s t) (i : Nat) (c : Chain) : Touches w s (t.setChain i c) := h.withChisel _

theorem Touches.closeCapture (h : Touches w s t) (i cut : Nat) : Touches w s (closeCapture t i cut) := by
  unfold Machine.closeCapture
  dsimp only
  split
  · exact h
  · exact (h.store ..).setChain ..

theorem Touches.sendCapture (h : Touches w s t) (i : Nat) : Touches w s (sendCapture t i) := by
  unfold Machine.sendCapture
  dsimp only
  split
  · exact (h.emitFromSlot ..).setChain ..
  · exact h

theorem Touches.openCapture (h : Touches w s t) (i slot cause k : Nat) : Touches w s (openCapture t i slot cause k) :=
  .ite_onto (h.setChain ..) fun hc => hc.closeCapture ..

theorem Touches.trigger (h : Touches w s t) (i cause n : Nat) : Touches w s (trigger t i cause n).1 := by
  unfold Machine.trigger
  dsimp only
  split
  · exact h.setChain ..
  · split
    · exact h.openCapture ..
    · exact h.setChain ..

theorem Touches.requestPulse (h : Touches w s t) (i pin time : Nat) : Touches w s (requestPulse t i pin time) :=
  .ite (h.withNet _) (.ite (h.withNet _) (.ite ((h.withNet _).setChain ..) (h.withNet _)))

theorem Touches.eventPulse (h : Touches w s t) (i : Nat) (c : Chain) (x : Interval) (k : Nat) :
    Touches w s (eventPulse t i c x k) := by
  unfold Machine.eventPulse
  split
  · exact .ite (h.requestPulse ..) h
  · exact h

theorem Touches.mirrorChain (h : Touches w s t) (i : Nat) : Touches w s (mirrorChain t i) := .ite (h.sendMsg ..) h

theorem Touches.emitEvent (h : Touches w s t) (i : Nat) (x : Interval) (e : EventOut) : Touches w s (emitEvent t i x e) := by
  unfold Machine.emitEvent
  dsimp only
  split
  · exact h
  · refine .ite ((h.setChain ..).withChisel _) (.mirrorChain (.eventPulse (.setChain (.emitRecord ?_ _ _) _ _) _ _ _ _) _)
    exact .ite_fst (h.trigger ..) h

/-! ### Deciding an interval -/

theorem Touches.forceOff (h : Touches w s t) (i k : Nat) (x : Interval) : Touches w s (forceOff t i k x) :=
  .ite h ((h.setChain ..).emitEvent ..)

theorem Touches.applyRebase (h : Touches w s t) (i : Nat) : Touches w s (applyRebase t i) := by
  unfold Machine.applyRebase
  dsimp only
  split
  · exact h
  · exact h.setChain ..

theorem Touches.settleRebase (h : Touches w s t) (i n : Nat) : Touches w s (settleRebase t i n) :=
  .ite ((h.forceOff ..).applyRebase _) h

theorem Touches.chainTrimStep (h : Touches w s t) (i : Nat) (x : Interval) : Touches w s (chainTrimStep t i x) := by
  unfold Machine.chainTrimStep
  split
  · exact h
  · exact .ite h (.ite (h.withTrims _) (.setChain (h.withTrims _) _ _))

theorem Touches.decideInterval (h : Touches w s t) (i : Nat) (x : Interval) (stop : Option Nat) :
    Touches w s (decideInterval t i x stop) := by
  unfold Machine.decideInterval
  extract_lets s1 r _ _ s2 s3 c onEvent s4 c4 _ s5 own s6 c6 _ _ _ _ s7 s8
  have h1 : Touches w s s1 := (h.setChain ..).settleRebase ..
  have h3 : Touches w s s3 := by
    have h2 : Touches w s s2 := h1.setChain ..
    unfold s3
    split
    · exact .ite (h2.emitEvent ..) h2
    · exact h2
  have h4 : Touches w s s4 := .ite (h3.emitEvent ..) h3
  have h5 : Touches w s s5 := .ite ((h4.setChain ..).emitEvent ..) h4
  have ho : Touches w s own := by
    unfold own
    split
    · exact .ite (h5.emitEvent ..) h5
    · exact h5
  have h6 : Touches w s s6 := by
    unfold s6
    split
    · exact ho.forceOff ..
    · exact ho
  have h7 : Touches w s s7 := .ite h6 (.mirrorChain (.setChain (.ite h6 (h6.emitEvent ..)) _ _) _)
  exact .ite_onto (h7.chainTrimStep ..) fun h8 => h8.applyRebase _

theorem Touches.decideAll (h : Touches w s t) (i k : Nat) : Touches w s (decideAll t i k) :=
  .forceOff (.foldl (h.setChain ..) fun _ _ hu => hu.decideInterval ..) _ _ _

/-! ### Stopping a chain -/

theorem Touches.dropChain (h : Touches w s t) (i : Nat) : Touches w s (dropChain t i) :=
  .foldl (.withTrims ((h.freeAllocs _).setChain ..) _) fun _ _ hu => (hu.delProduct _).productStopped _

theorem Touches.stopChain (h : Touches w s t) (i b : Nat) (releasing : Bool) : Touches w s (stopChain t i b releasing) := by
  unfold Machine.stopChain
  extract_lets s2 s3 s4 ps s5 c d s6
  have h4 : Touches w s s4 := ((h.decideAll ..).closeCapture ..).foldl fun _ _ hu => hu.sendCapture _
  have h5 : Touches w s s5 := h4.foldl fun _ _ hu => hu.gapSuspended ..
  refine .ite (h5.dropChain _) (.foldl (h5.setChain ..) fun _ _ hu => ?_)
  exact (hu.suspendProduct _).productStopped _

theorem Touches.chainStops (h : Touches w s t) (i : Nat) : Touches w s (chainStops t i) := by
  unfold Machine.chainStops
  dsimp only
  split
  · exact .ite (h.stopChain ..) h
  · exact h

/-! ### ZOOM Clauses -/

theorem protoLoad_within (s : State) (f : Fn) (m : Nat) (buf : HBuf) (data : HRead) : Within w s (protoLoad s f m buf data) := by
  unfold protoLoad
  repeat refine .after fun _ => ?_
  split
  · exact .error _
  · repeat refine .after fun _ => ?_
    exact .done (.withChisel (.refl s) _) _

theorem protoFree_within (s : State) (f : Fn) (k : Nat) : Within w s (protoFree s f k) := by
  unfold protoFree
  repeat refine .after fun _ => ?_
  exact .done (.withChisel (.refl s) _) _

theorem Yields.chainAreas (h : Touches w s t) (i : Nat) (x : World) (c : Chain) : Yields (Touches w s) (chainAreas t i x c) :=
  .bind (.place (w := w) (s := s) (.ite (h.addAlloc _) h) _ _ _) fun _ hr => .ok hr

theorem Touches.addProducts (h : Touches w s t) (f : Fn) (c : Chain) (l : List ZoomUse) : Touches w s (addProducts t f c l) :=
  h.foldl fun _ _ hu => hu.setProduct ..

theorem zoomDefine_within (s : State) (f : Fn) (i beam : Nat) (us : List ZoomUse) (event capture : Option Nat) (buf : HBuf)
    (data coefs : HRead) : Within w s (zoomDefine s f i beam us event capture buf data coefs) := by
  unfold zoomDefine
  iterate 3 refine .after fun _ => ?_
  refine .ite (.error _) ?_
  iterate 18 refine .after fun _ => ?_
  refine .bind (.chainAreas (w := w) (.refl s) _ _ _) fun _ ha => .after fun _ => ?_
  exact .deferred ((ha.setChain ..).addProducts ..) _ _

theorem zoomStop_within (s : State) (f : Fn) (i : Nat) (releasing : Bool) : Within w s (zoomStop s f i releasing) := by
  unfold zoomStop
  repeat refine .after fun _ => ?_
  exact .ite (.deferred ((Touches.refl s).dropChain _) _ _) (.deferred (((Touches.refl s).setChain ..).chainStops _) _ _)

theorem zoomResume_within (s : State) (f : Fn) (i : Nat) : Within w s (zoomResume s f i) := by
  unfold zoomResume
  repeat refine .after fun _ => ?_
  refine .deferred (.foldl ((Touches.refl s).setChain ..) fun _ _ hu => ?_) _ _
  split
  · exact hu.setProduct ..
  · exact hu

theorem firLoad_within (s : State) (f : Fn) (i bank l sh delay : Nat) (buf : HBuf) (data : HRead) :
    Within w s (firLoad s f i bank l sh delay buf data) := by
  unfold firLoad
  repeat refine .after fun _ => ?_
  refine .ite (.error _) ?_
  repeat refine .after fun _ => ?_
  exact .done ((Touches.refl s).setChain ..) _

theorem firSwitch_within (s : State) (f : Fn) (i byTime fade : Nat) (time : U96) :
    Within w s (firSwitch s f i byTime fade time) := by
  unfold firSwitch
  repeat refine .after fun _ => ?_
  exact .deferred ((Touches.refl s).setChain ..) _ _

theorem setTune_within (s : State) (f : Fn) (i : Nat) (bs : List Byte) : Within w s (setTune s f i bs) := by
  unfold setTune
  repeat refine .after fun _ => ?_
  exact .deferred ((Touches.refl s).setChain ..) _ _

theorem setAlign_within (s : State) (f : Fn) (i : Nat) (bs : List Byte) : Within w s (setAlign s f i bs) := by
  unfold setAlign
  repeat refine .after fun _ => ?_
  exact .deferred ((Touches.refl s).setChain ..) _ _

theorem setDetect_within (s : State) (f : Fn) (i : Nat) (bs : List Byte) : Within w s (setDetect s f i bs) := by
  unfold setDetect
  repeat refine .after fun _ => ?_
  exact .deferred ((Touches.refl s).setChain ..) _ _

theorem rebaseline_within (s : State) (f : Fn) (i kind value : Nat) : Within w s (rebaseline s f i kind value) := by
  unfold rebaseline
  repeat refine .after fun _ => ?_
  exact .deferred ((Touches.refl s).setChain ..) _ _

theorem captureNow_within (s : State) (f : Fn) (i index : Nat) : Within w s (captureNow s f i index) := by
  unfold captureNow
  repeat refine .after fun _ => ?_
  split
  · exact .error _
  · exact .deferred ((Touches.refl s).openCapture ..) _ _

theorem zoomSetRoute_within (s : State) (f : Fn) (i which : Nat) (route : U32) :
    Within w s (zoomSetRoute s f i which route) := by
  unfold zoomSetRoute
  iterate 3 refine .after fun _ => ?_
  exact setRoute_within _ _ _ _ _

end

/-! ### Gloss cores -/

section
variable {w : Part → Prop} {s t : State}

theorem glossSetRouteC_within (s : State) (f : Fn) (i : Nat) (route : U32) : Within w s (glossSetRouteC s f i route) := by
  unfold glossSetRouteC
  iterate 3 refine .after fun _ => ?_
  exact setRoute_within _ _ _ _ _

theorem memReadC_within (s : State) (src : Src) (i space first count : Nat) (buf : HBuf) :
    Within w s (memReadC s src i space first count buf) := by
  unfold memReadC
  repeat refine .after fun _ => ?_
  exact .answerQuery (.refl s) _ _ _

/-- The state goes on with the DERIVED product of the core resumed. -/
theorem Yields.resumeDerived (s : State) (f : Fn) (c : Core) : Yields (Touches w s) (resumeDerived s f c) := by
  unfold Machine.resumeDerived
  split
  · exact .ite (.after fun _ => .ok ((Touches.refl s).setProduct ..)) (.ok (.refl s))
  · exact .ok (.refl s)

section
variable (hw : w .gloss)
include hw

theorem Touches.setCore (h : Touches w s t) (i : Nat) (c : Core) : Touches w s (t.setCore i c) := .withGloss hw h _

theorem Touches.onCore (h : Touches w s t) (i : Nat) (f : Core → Core) : Touches w s (onCore t i f) := h.setCore hw ..

theorem Touches.queueItem (h : Touches w s t) (i : Nat) (x : DerivItem) : Touches w s (queueItem t i x) := h.onCore hw ..

theorem Touches.numberItem (h : Touches w s t) (i pid : Nat) (x : Nat → DerivItem) : Touches w s (numberItem t i pid x) :=
  (h.takeNumber pid).queueItem hw ..

theorem Touches.queueErrors (h : Touches w s t) (i pid a b c : Nat) : Touches w s (queueErrors t i pid a b c) := by
  unfold Machine.queueErrors
  split
  · exact h
  · exact (h.setProduct ..).foldl fun _ _ hu => hu.numberItem hw ..

theorem Touches.queueDerived (h : Touches w s t) (i pid a b c : Nat) (x : Nat → DerivItem) :
    Touches w s (queueDerived t i pid a b c x) := .ite h ((h.queueErrors hw ..).numberItem hw ..)

theorem Touches.queueGap (h : Touches w s t) (i pid a b c d e : Nat) : Touches w s (queueGap t i pid a b c d e) :=
  h.queueDerived hw ..

omit hw in
theorem Touches.sendAside (h : Touches w s t) (pid : Nat) (x : DerivItem) : Touches w s (sendAside t pid x) := by
  unfold Machine.sendAside
  split
  · exact h.sendNumbered ..
  · exact h.sendNumbered ..

theorem Touches.sendAsides (h : Touches w s t) (i pid : Nat) : Touches w s (sendAsides t i pid) := by
  refine h.foldl fun u _ hu => ?_
  split
  · exact .ite ((hu.onCore hw ..).sendAside ..) hu
  · exact hu

theorem Touches.gapDerived (h : Touches w s t) (i pid k : Nat) : Touches w s (gapDerived t i pid k) :=
  (h.queueGap hw ..).sendAsides hw ..

theorem Touches.beginDetach (h : Touches w s t) (i : Nat) (a : Attach) : Touches w s (beginDetach t i a) :=
  (h.onCore hw ..).gapDerived hw ..

theorem Touches.finishDetach (h : Touches w s t) (i : Nat) : Touches w s (finishDetach t i) := by
  unfold Machine.finishDetach
  split
  · exact h
  · exact .ite h (((h.onCore hw ..).freeAllocs _).delProduct _ |>.productStopped _)

/-! ### GLOSS Clauses -/

theorem glossLoadC_within (s : State) (f : Fn) (i : Nat) (buf : HBuf) (data : HRead) :
    Within w s (glossLoadC s f i buf data) := by
  unfold glossLoadC
  repeat refine .after fun _ => ?_
  refine .ite (.error _) ?_
  split
  · exact .error _
  · exact .after fun _ => .done ((Touches.refl s).setCore hw ..) _

theorem glossStartC_within (s : State) (f : Fn) (i : Nat) : Within w s (glossStartC s f i) := by
  unfold glossStartC
  iterate 3 refine .after fun _ => ?_
  exact .bind (.resumeDerived (w := w) s f _) fun _ hr => .done (hr.setCore hw ..) _

theorem glossStopC_within (s : State) (f : Fn) (i : Nat) : Within w s (glossStopC s f i) := by
  unfold glossStopC
  repeat refine .after fun _ => ?_
  exact .ite (.waits ((Touches.refl s).setCore hw ..) _) (.waits ((Touches.refl s).setCore hw ..) _)

theorem glossAttachC_within (s : State) (f : Fn) (i log2In source derived inBase log2Feed log2Slot : Nat) (route : U32)
    (rate : Nat) (segs : List U32) (feedBase slotBase : Nat) :
    Within w s (glossAttachC s f i log2In source derived inBase log2Feed log2Slot route rate segs feedBase slotBase) := by
  have hc : ∀ c, Touches w s (s.setCore i c) := fun c => (Touches.refl s).setCore hw i c
  unfold glossAttachC
  repeat refine .after fun _ => ?_
  exact .done (.setProduct (.addAlloc (.ite ((hc _).addAlloc _) (hc _)) _) _ _) _

theorem glossDetachC_within (s : State) (f : Fn) (i : Nat) : Within w s (glossDetachC s f i) := by
  unfold glossDetachC
  repeat refine .after fun _ => ?_
  exact .deferred (((Touches.refl s).beginDetach hw ..).finishDetach hw _) _ _

theorem memWriteC_within (s : State) (f : Fn) (i space first count : Nat) (buf : HBuf) (data : HRead) :
    Within w s (memWriteC s f i space first count buf data) := by
  unfold memWriteC
  repeat refine .after fun _ => ?_
  refine .ite (.error _) ?_
  repeat refine .after fun _ => ?_
  exact .done ((Touches.refl s).setCore hw ..) _

end

/-! ### HBM -/

theorem Touches.setStack (h : Touches w s t) (i : Nat) (x : Stack) : Touches w s (t.setStack i x) := h.withHbm _

theorem Touches.setPcAt (h : Touches w s t) (k : Nat) (x : Pc) : Touches w s (t.setPcAt k x) := h.withHbm _

theorem Touches.setBankAt (h : Touches w s t) (k : Nat) (x : Bank) : Touches w s (t.setBankAt k x) := h.withHbm _

theorem Touches.activateRow (h : Touches w s t) (stack key row : Nat) : Touches w s (activateRow t stack key row).1 := by
  unfold Machine.activateRow
  dsimp only
  split
  · exact h
  · exact .ite_fst (h.setBankAt ..) ((h.setBankAt ..).withHbm _)

theorem Touches.activateAll (stack key fuel : Nat) (rows : List Nat) (h : Touches w s t) :
    Touches w s (activateAll stack key fuel rows t) := by
  induction fuel generalizing rows t with
  | zero => exact h
  | succ fuel ih =>
    cases rows with
    | nil => exact h
    | cons row rest => exact ih _ (h.activateRow ..)

theorem Touches.reachRow (h : Touches w s t) (p : HbmPlace) : Touches w s (reachRow t p) :=
  .ite ((h.setBankAt ..).setStack ..) (((h.setBankAt ..).setStack ..).activateAll ..)

theorem Touches.decidePage (h : Touches w s t) (key : Nat) (l : List HbmPlace) : Touches w s (decidePage t key l) := by
  unfold Machine.decidePage
  dsimp only
  split
  · exact h
  · refine .ite h ?_
    split <;> exact h.setBankAt ..

theorem Touches.raiseWord (h : Touches w s t) (k : U16) (cls : Cls) (a : Nat) : Touches w s (raiseWord t k cls a) := by
  unfold Machine.raiseWord
  split
  · exact h.raise ..
  · exact h.raiseDev ..

theorem Touches.poisonWord (h : Touches w s t) (a : Nat) : Touches w s (poisonWord t a) := h.withHbm _

theorem Touches.poisonCounted (h : Touches w s t) (a : Nat) : Touches w s (poisonCounted t a) := (h.poisonWord a).withHbm _

theorem Touches.readOutcome (h : Touches w s t) (stack a o : Nat) (scrub : Bool) :
    Touches w s (readOutcome t stack a o scrub) := by
  unfold Machine.readOutcome
  refine .ite (.ite h (h.withHbm _)) ?_
  split
  · exact (h.withHbm _).raiseWord ..
  · exact (h.withHbm _).raiseWord ..
  · exact .raiseWord (.ite_from (h.poisonCounted _) fun hp => hp.withHbm _) _ _ _
  · exact (h.setStack ..).raiseDev ..
  · exact h

theorem Touches.parityOutcome (h : Touches w s t) (stack : Nat) (l : List Nat) (clean : Bool) :
    Touches w s (parityOutcome t stack l clean) :=
  .ite ((h.setStack ..).raiseDev ..) (.raiseDev (.foldl (h.setStack ..) fun _ _ hu => hu.poisonCounted _) _ _ _ _)

theorem Touches.noteOrder (h : Touches w s t) (key : Nat) (b : Bool) : Touches w s (noteOrder t key b) := by
  unfold Machine.noteOrder
  dsimp only
  split
  · exact .ite (h.setPcAt ..) h
  · exact .ite h ((h.setPcAt ..).withHbm _)

theorem Touches.serveRequest (h : Touches w s t) (stack : Nat) (r : HbmReq) (p : HbmPlace) (ecc : Nat) :
    Touches w s (serveRequest t stack r p ecc) := by
  unfold Machine.serveRequest
  dsimp only
  split
  · exact (h.reachRow p).parityOutcome ..
  · exact (h.reachRow p).parityOutcome ..
  · exact .ite ((h.reachRow p).readOutcome ..) (h.reachRow p)

theorem Touches.wakeStacks (h : Touches w s t) : Touches w s (wakeStacks t) := h.withHbm _

theorem Touches.touchHbm (h : Touches w s t) (a n : Nat) : Touches w s (touchHbm t a n) := h.wakeStacks.withHbm _

theorem Touches.serveOne (h : Touches w s t) (stack pc ecc : Nat) : Touches w s (serveOne t stack pc ecc) := by
  unfold Machine.serveOne
  dsimp only
  split
  · exact h.noteOrder ..
  · exact (((h.noteOrder ..).setPcAt ..).serveRequest ..).noteOrder .. |>.decidePage ..

theorem Touches.drainQueues (h : Touches w s t) : Touches w s (drainQueues t) :=
  h.foldl fun _ _ hu => hu.foldl fun _ _ hv => hv.serveOne ..

theorem Touches.settleHbm (h : Touches w s t) : Touches w s (settleHbm t) := h.drainQueues.withHbm _

theorem Touches.startRetrain (h : Touches w s t) : Touches w s (startRetrain t) := .ite h (h.withHbm _)

theorem Touches.toSelfRefresh (h : Touches w s t) : Touches w s (toSelfRefresh t) := h.withHbm _

theorem Touches.startRateChange (h : Touches w s t) : Touches w s (startRateChange t) := h.settleHbm.toSelfRefresh.withHbm _

theorem Touches.sleepStacks (h : Touches w s t) : Touches w s (sleepStacks t) := h.settleHbm.toSelfRefresh.withHbm _

theorem Touches.moveMem (h : Touches w s t) (f : Nat → Option Nat) : Touches w s (moveMem t f) := h.withHbm _

theorem Touches.keepPlaces (h : Touches w s t) (o : State) : Touches w s (keepPlaces o t) := .ite h (h.moveMem _)

theorem Touches.remap (h : Touches w s t) (l : List Nat) : Touches w s (remap t l) :=
  .ite h ((h.drainQueues.moveMem _).withHbm _)

end

/-! ### DMA records and power -/

section
variable {w : Part → Prop} {s t : State}

theorem Touches.putRecord (h : Touches w s t) (ch : Nat) (c : Channel) (l : List Byte) : Touches w s (putRecord t ch c l) :=
  .ite (h.emit _) ((h.touchHbm ..).store ..)

/-- Two fields that one update of the model writes together. -/
theorem Touches.withPowerHbm (hp : w .power) (h : Touches w s t) (x y) : Touches w s { t with power := x, hbm := y } :=
  (withPower hp h x).withHbm y

theorem Touches.withPlinthNet (hp : w .plinth) (h : Touches w s t) (x y) : Touches w s { t with plinth := x, net := y } :=
  (withPlinth hp h x).withNet y

theorem Touches.withNetClock (hc : w .clock) (h : Touches w s t) (x y) : Touches w s { t with net := x, clock := y } :=
  withClock hc (h.withNet x) y

theorem Touches.trainStacks (h : Touches w s t) (mask : Nat) : Touches w s (trainStacks t mask) := h.withHbm _

theorem hbmRate_within (s : State) (src : Src) (rate : Nat) : Within w s (hbmRate s src rate) := by
  have hp : ∀ x : Hbm, Touches w s { s with hbm := x } := (Touches.refl s).withHbm
  unfold hbmRate
  repeat refine .after fun _ => ?_
  refine .ite (.done (.refl s) _) (.ite (.ok ?_) (.waits (hp _).startRateChange _))
  exact (hp _).withHbm _

theorem startRetrain_within (s : State) : Within w s (done (startRetrain s)) := .done (Touches.refl s).startRetrain _

section
variable (hd : w .dma)
include hd

theorem Touches.setChannel (h : Touches w s t) (ch : Nat) (c : Channel) : Touches w s (t.setChannel ch c) := .withDma hd h _

theorem Touches.writeRecord (h : Touches w s t) (ch : Nat) : Touches w s (writeRecord t ch) := by
  have hp := fun c l c' => (h.putRecord ch c l).setChannel hd ch c'
  unfold Machine.writeRecord
  dsimp only
  split
  · exact h
  · exact .ite h (.ite (h.setChannel hd ..) (.ite (.ite ((hp _ _ _).sendVector ..) (hp _ _ _)) h))

theorem Touches.endLoaded (h : Touches w s t) (ch : Nat) : Touches w s (endLoaded t ch) := by
  unfold Machine.endLoaded
  dsimp only
  split
  · exact .ite h ((h.setChannel hd ..).writeRecord hd _)
  · exact h

variable (hg : w .gloss)
include hg

theorem Touches.loseDomain (h : Touches w s t) (d : Nat) : Touches w s (loseDomain t d) := by
  refine .ite ?_ (.ite (h.withChisel _) (.ite (h.withFrieze _) (.ite ?_ (h.withNet _))))
  · exact .foldl (h.foldl fun _ _ hu => hu.setCore hg ..) fun _ _ hu => hu.setChannel hd ..
  · exact h.same rfl

variable (hp : w .power)
include hp

omit hd hg in
theorem Touches.stacksOff (h : Touches w s t) (mask : BitVec 6) : Touches w s (stacksOff t mask) :=
  .withPowerHbm hp (h.settleHbm.remap _) _ _

theorem Touches.goOff (h : Touches w s t) (d : Nat) : Touches w s (goOff t d) := by
  refine .ite ?_ (.loseDomain hd hg (.withPower hp h _) _)
  split
  · exact h.stacksOff hp _
  · exact h

theorem Touches.powerDown (h : Touches w s t) (d : Nat) : Touches w s (powerDown t d) := by
  have he : ∀ {u : State} (l : List Nat), Touches w s u → Touches w s (l.foldl Machine.endLoaded u) :=
    fun _ hu => hu.foldl fun _ _ hv => hv.endLoaded hd _
  exact .ite h (.ite ((he _ (he _ h)).goOff hd hg hp _) (he _ (he _ h)))

theorem hbmState_within (s : State) (state mask : Nat) : Within w s (hbmState s state mask) := by
  have hs : ∀ x : Hbm, Touches w s { s with hbm := x } := (Touches.refl s).withHbm
  unfold hbmState
  repeat refine .after fun _ => ?_
  split
  · exact .after fun _ => .done (Touches.refl s).sleepStacks _
  · refine .ite (.done (hs _).wakeStacks _) (.after fun _ => ?_)
    exact .done ((hs _).wakeStacks.trainStacks _) _
  · have ho := fun x => (Touches.withPower hp (.refl s) x).powerDown hd hg hp 8
    exact .ite (.done (.refl s) _) (.after fun _ => .ite (.waits (ho _) _) (.done (ho _) _))

theorem powerDomain_within (s : State) (d off limit : Nat) : Within w s (powerDomain s d off limit) := by
  have ho : ∀ x, Touches w s { s with power := x } := .withPower hp (.refl s)
  have hb : ∀ x, Touches w s (if off = 1 then Machine.powerDown { s with power := x } d else { s with power := x }) :=
    fun x => .ite ((ho x).powerDown hd hg hp d) (ho x)
  unfold powerDomain
  repeat refine .after fun _ => ?_
  exact .ite (.done (.refl s) _) (.after fun _ => .ite (.waits (hb _) _) (.done (hb _) _))

end

/-! ### The clock and the Plinth -/

theorem Touches.free (h : Touches w s t) (n : Nat) : Touches w s (t.free n).2 := h.same rfl

theorem Touches.noteLocked (h : Touches w s t) : Touches w s (noteLocked t) := by
  unfold Machine.noteLocked
  split
  · exact h
  · exact h.withNet _

theorem Touches.setTport (h : Touches w s t) (p : Nat) (x : TPort) : Touches w s (t.setTport p x) := h.withNet _

theorem Touches.drivePulse (h : Touches w s t) (pin time : Nat) : Touches w s (drivePulse t pin time) :=
  .ite h ((h.withNet _).emit _)

theorem Touches.pinStepped (h : Touches w s t) (pin : Nat) : Touches w s (pinStepped t pin) := by
  unfold Machine.pinStepped
  dsimp only
  split
  · exact .foldl (h.withNet _) fun _ _ hu => hu.drivePulse ..
  · exact .ite ((h.withNet _).drivePulse ..) h
  · exact h.withNet _

section
variable (hc : w .clock)
include hc

theorem Touches.setRef (h : Touches w s t) (r : Nat) (x : Ref) : Touches w s (t.setRef r x) := .withClock hc h _

theorem Touches.noteFollowed (h : Touches w s t) : Touches w s (noteFollowed t) := by
  unfold Machine.noteFollowed
  split
  · exact h
  · exact .withClock hc h _

theorem Touches.follow (h : Touches w s t) (r : Nat) : Touches w s (follow t r) :=
  .withClock hc (((h.noteFollowed hc).free _).free _) _

theorem Touches.settlePull (h : Touches w s t) : Touches w s (settlePull t) := .withClock hc h _

theorem Touches.disqualify (h : Touches w s t) (r : Nat) : Touches w s (disqualify t r) :=
  .ite ((h.setRef hc ..).raiseDev ..) (h.setRef hc ..)

theorem clockDpllSet_within (s : State) (code slope disagree : Nat) : Within w s (clockDpllSet s code slope disagree) := by
  unfold clockDpllSet
  repeat refine .after fun _ => ?_
  exact .done (.withClock hc ((Touches.refl s).settlePull hc) _) _

variable (hp : w .plinth)
include hp

omit hc in
theorem Touches.setInc (h : Touches w s t) : Touches w s (setInc t) := .ite h (.withPlinth hp h _)

theorem Touches.selectRef (h : Touches w s t) (r : Nat) : Touches w s (selectRef t r) :=
  .setInc hp (.follow hc (.withClock hc ((h.noteFollowed hc).free _) _) _)

theorem Touches.enterHoldover (h : Touches w s t) : Touches w s (enterHoldover t) :=
  .raiseAttn (.raiseDev (.setInc hp (.withClock hc (h.noteFollowed hc) _)) _ _ _ _) _

theorem Touches.reselect (h : Touches w s t) : Touches w s (reselect t) := by
  unfold Machine.reselect
  split
  · exact .ite h (h.selectRef hc hp _)
  · exact .ite (h.enterHoldover hc hp) h

theorem Touches.refFails (h : Touches w s t) (r : Nat) : Touches w s (refFails t r) :=
  .ite h (((h.setRef hc ..).disqualify hc _).reselect hc hp)

theorem Touches.setServo (h : Touches w s t) (v : Servo) : Touches w s (setServo t v) := by
  have hn : ∀ x, Touches w s { Machine.noteLocked t with net := x } := h.noteLocked.withNet
  exact .ite ((hn _).setRef hc ..) (.ite ((hn _).refFails hc hp _) (hn _))

theorem Touches.holdServo (h : Touches w s t) (v : Servo) : Touches w s (holdServo t v) :=
  .setInc hp ((h.setServo hc hp v).withNet _)

theorem Touches.stepPlinth (h : Touches w s t) (u : Nat) : Touches w s (stepPlinth t u) := by
  unfold Machine.stepPlinth
  refine .foldl ?_ fun _ _ hu => hu.pinStepped _
  have hl : Touches w s (Machine.settlePull (Machine.noteFollowed (Machine.noteLocked t))) :=
    (h.noteLocked.noteFollowed hc).settlePull hc
  exact .withNetClock hc (.withPlinthNet hp hl _ _) _ _

theorem Touches.selectMaster (h : Touches w s t) : Touches w s (selectMaster t) := by
  have hn : ∀ x y, Touches w s { { t with net := x } with net := y } := fun _ _ => (h.withNet _).withNet _
  refine .ite (h.withNet _) (.ite (hn _ _) (.ite ?_ (.ite ((hn _ _).holdServo hc hp _) (hn _ _))))
  exact ((hn _ _).setServo hc hp _).withNet _

/-! ### CLOCK and TIME Clauses -/

theorem clockRefSet_within (s : State) (r rank nominal accept warn reject disq requal : Nat) :
    Within w s (clockRefSet s r rank nominal accept warn reject disq requal) := by
  unfold clockRefSet
  repeat refine .after fun _ => ?_
  exact .done (((Touches.refl s).setRef hc ..).reselect hc hp) _

theorem clockSelect_within (s : State) (manual r : Nat) : Within w s (clockSelect s manual r) := by
  unfold clockSelect
  repeat refine .after fun _ => ?_
  exact .done (.reselect hc hp (.withClock hc (.refl s) _)) _

theorem timePortSet_within (s : State) (port flags domain : Nat) (ip : U32) (mac : BitVec 48) :
    Within w s (timePortSet s port flags domain ip mac) := by
  unfold timePortSet
  repeat refine .after fun _ => ?_
  exact .done (.selectMaster hc hp (.withNet (.withNet ((Touches.refl s).setTport ..) _) _)) _

theorem timeServoSet_within (s : State) (threshold code flags : Nat) : Within w s (timeServoSet s threshold code flags) := by
  have hn : ∀ x, Touches w s { s with net := x } := (Touches.refl s).withNet
  unfold timeServoSet
  repeat refine .after fun _ => ?_
  refine .ite (.done ((hn _).setServo hc hp _) _) (.ite (.done ?_ _) (.done (hn _) _))
  exact ((hn _).setServo hc hp _).withNet _

theorem timeSet_within (s : State) (time : U96) : Within w s (timeSet s time) := by
  unfold timeSet
  repeat refine .after fun _ => ?_
  exact .done ((Touches.refl s).stepPlinth hc hp _) _

end

theorem Touches.setTin (h : Touches w s t) (f : Fn) (pin : Nat) (x : TimeIn) : Touches w s (t.setTin f pin x) := by
  cases f <;> exact h.withNet _

theorem timeOutSet_within (s : State) (f : Fn) (pin mode width : Nat) (start : U96) (period : Nat) :
    Within w s (timeOutSet s f pin mode width start period) := by
  unfold timeOutSet
  repeat refine .after fun _ => ?_
  exact .done ((Touches.refl s).withNet _) _

theorem timeInSet_within (s : State) (f : Fn) (pin edges enable : Nat) : Within w s (timeInSet s f pin edges enable) := by
  unfold timeInSet
  repeat refine .after fun _ => ?_
  exact .done ((Touches.refl s).setTin ..) _

theorem acceptStep_within (s : State) (id : U32) : Within w s (acceptStep s id) := by
  unfold acceptStep
  exact .after fun _ => .waits ((Touches.refl s).withNet _) _

end

/-! ### Trims -/

section
variable {w : Part → Prop} {s t : State}

theorem Touches.startLevel (h : Touches w s t) (n : Nat) : Touches w s (startLevel t n) := h.withTrims _

theorem Touches.startChainLevel (h : Touches w s t) (i : Nat) : Touches w s (startChainLevel t i) :=
  .ite h (.setChain (h.withTrims _) _ _)

theorem Touches.startGridTest (h : Touches w s t) : Touches w s (startGridTest t) := h.withTrims _

theorem trimRun_within (s : State) (kinds which : Nat) : Within w s (trimRun s kinds which) := by
  unfold trimRun
  repeat refine .after fun _ => ?_
  refine .done (.ite_onto (.foldl (.foldl ?_ fun _ _ hu => hu.startLevel _) fun _ _ hu => hu.startChainLevel _)
    fun hu => hu.startGridTest) _
  exact (Touches.refl s).foldl fun _ _ hu => hu.startTrim ..

theorem trimSetTrigger_within (s : State) (kinds step : Nat) : Within w s (trimSetTrigger s kinds step) := by
  unfold trimSetTrigger
  repeat refine .after fun _ => ?_
  exact .done ((Touches.refl s).withTrims _) _

theorem Touches.restoreLane (h : Touches w s t) (l : Nat) (e : List Byte) : Touches w s (restoreLane t l e) :=
  .ite (h.setLaneTrim ..) h

theorem Touches.restoreGains (h : Touches w s t) (k : KeptGains) : Touches w s (restoreGains t k).1 := by
  unfold Machine.restoreGains
  split
  · exact h.withTrims _
  · split
    · dsimp only
      exact h.loadGains ..
    · exact h

theorem Touches.restoreSeed (h : Touches w s t) (i n : Nat) : Touches w s (restoreSeed t i n) :=
  .ite (h.withTrims _) (.ite (h.setChain ..) h)

theorem Touches.restoreLevels (h : Touches w s t) (l : List Byte) : Touches w s (restoreLevels t l).1 :=
  .foldl_fst (.foldl (h.withTrims _) fun _ _ hu => hu.restoreSeed ..) fun _ _ hu => hu.restoreGains _

theorem Touches.restoreCells (h : Touches w s t) (l : List Byte) : Touches w s (restoreCells t l) :=
  .ite_onto (h.withTrims _) fun hu => hu.applyCellWords

theorem trimRestore_within (s : State) (buf : HBuf) (data : HRead) : Within w s (trimRestore s buf data) := by
  unfold trimRestore
  iterate 3 refine .after fun _ => ?_
  extract_lets own s1 standby r s2
  have h1 : Touches w s s1 := .ite ((Touches.refl s).foldl fun _ _ hu => hu.restoreLane ..) (.refl s)
  have hr : Touches w s r.1 := .ite_fst h1 (h1.restoreLevels _)
  have h2 : Touches w s s2 := .ite (hr.restoreCells _) hr
  split
  · exact .deferred h2 _ _
  · exact .done h2 _

/-! ### Worlds -/

theorem regionSet_within (s : State) (n flags map base size : Nat) : Within w s (regionSet s n flags map base size) := by
  have hk : ∀ x, Touches w s (Machine.keepPlaces s { s with world := x }) :=
    fun x => ((Touches.refl s).withWorld x).keepPlaces s
  unfold regionSet
  repeat refine .after fun _ => ?_
  exact .ite (.done (hk _) _) (.waits ((hk _).withWorld _) _)

theorem Touches.clearResource (hg : w .gloss) (hd : w .dma) (h : Touches w s t) (kind i : Nat) :
    Touches w s (clearResource t kind i) := by
  unfold Machine.clearResource
  split
  · exact h.onCore hg ..
  · exact h.setChannel hd ..
  · exact h.withNet _
  · exact h

theorem Touches.moveResource (hg : w .gloss) (hd : w .dma) (h : Touches w s t) (kind i : Nat) (x : World) :
    Touches w s (moveResource t kind i x) := .ite h ((h.clearResource hg hd ..).withWorld _)

theorem worldAssign_within (hg : w .gloss) (hd : w .dma) (s : State) (kind first count x : Nat) :
    Within w s (worldAssign s kind first count x) := by
  unfold worldAssign
  repeat refine .after fun _ => ?_
  exact .done ((Touches.refl s).foldl fun _ _ hu => hu.moveResource hg hd ..) _

/-! ### Quotas -/

section
variable (hw : w .corrs)
include hw

theorem Touches.stopSelected (h : Touches w s t) (pid : Nat) : Touches w s (stopSelected t pid) := by
  unfold Machine.stopSelected
  split
  · exact h
  · split
    · split
      · exact .ite h (h.stopCorr hw ..)
      · exact h
    · split
      · exact .ite h (h.stopBeam ..)
      · exact h
    · exact h.withIntake _
    · exact h
    all_goals
      split
      · exact .ite h ((h.setChain ..).chainStops _)
      · exact h

theorem quotaCut_within (s : State) (src : Src) (item value : Nat) : Within w s (quotaCut s src item value) :=
  .ok (.withWorld (.foldl ((Touches.refl s).withWorld _) fun _ _ hu => hu.stopSelected hw _) _)

theorem quotaSet_within (s : State) (src : Src) (item value : Nat) : Within w s (quotaSet s src item value) := by
  unfold quotaSet
  repeat refine .after fun _ => ?_
  refine .ite (.done ((Touches.refl s).withWorld _) _) (.ite (quotaCut_within hw _ _ _ _) (.done ?_ _))
  exact (Touches.refl s).withWorld _

end

/-! ### Resuming Clauses -/

theorem Touches.emitTakeover (h : Touches w s t) (p : Product) (row reason time last : Nat) :
    Touches w s (emitTakeover t p row reason time last) := (h.free _).emitRecord ..

theorem Touches.payTakeover (h : Touches w s t) (row pid : Nat) : Touches w s (payTakeover t row pid) := by
  unfold Machine.payTakeover
  split
  · exact (h.withPairSame _).emitTakeover ..
  · exact h

/-- A resuming Clause pays what its products owe. -/
theorem Yields.resumed {r : Result} (h : Within w s r) (row : Nat → Nat) (pids : State → List Nat) :
    Within w s (resumed r row pids) := .bind h fun _ hx => .ok (hx.foldl fun _ _ hu => hu.payTakeover ..)

/-! ### The pair -/

theorem Touches.releaseCompletion (h : Touches w s t) (x : HeldCompletion) (y : Completion) :
    Touches w s (releaseCompletion t x y) := (h.withPairSame _).owe ..

theorem Touches.unguard (h : Touches w s t) : Touches w s (unguard t) :=
  .foldl (.foldl (h.withPairSame _) fun _ _ hu => hu.releaseHeld _) fun _ _ hu => hu.releaseCompletion ..

theorem Touches.loseGuard (h : Touches w s t) : Touches w s (loseGuard t) := .ite h.unguard h

theorem Touches.copyToPeer (h : Touches w s t) (a : Alloc) : Touches w s (copyToPeer t a) := h.foldl fun _ _ hu => hu.sendMsg ..

theorem Touches.startResync (h : Touches w s t) : Touches w s (startResync t) :=
  .foldl ((h.loseGuard.withPairSame _).sendMsg ..) fun _ _ hu => hu.copyToPeer _

theorem pairSwap_within (s : State) (time : U96) : Within w s (pairSwap s time) := by
  unfold pairSwap
  repeat refine .after fun _ => ?_
  exact .deferred (((Touches.refl s).sendMsg ..).withPairSame _) _ _

theorem pairResync_within (s : State) : Within w s (pairResync s) := by
  unfold pairResync
  exact .after fun _ => .waits (Touches.refl s).startResync _

/-! ### Updates -/

theorem updateActivate_within (s : State) (slot : Nat) (time : U96) : Within w s (updateActivate s slot time) := by
  unfold updateActivate
  repeat refine .after fun _ => ?_
  exact .deferredTime ((Touches.refl s).withBoot _) _

theorem updateConfirm_within (s : State) (slot : Nat) : Within w s (updateConfirm s slot) := by
  refine .ite (.waits (.refl s) _) ?_
  split
  · exact .ite (.error _) (.error _)
  · exact .error _

theorem Touches.freeBytes (h : Touches w s t) (n : Nat) : Touches w s (t.freeBytes n).2 := h.same rfl

theorem updateQuery_within (s : State) (src : Src) (buf : HBuf) : Within w s (updateQuery s src buf) := by
  unfold updateQuery
  split
  · exact .answerQuery (.refl s) _ _ _
  · exact .answerQuery ((Touches.refl s).freeBytes _) _ _ _

end

/-! ### PAIR_CONFIGURE and the Maquette -/

section
variable {w : Part → Prop} {s t : State}

theorem Touches.mirrorLaneUp (h : Touches w s t) (l : Nat) : Touches w s (mirrorLaneUp t l) :=
  .ite_onto (.ite (h.rxDefine l) h) fun hu => hu.txStart l

theorem Touches.programSettings (h : Touches w s t) (l : List Byte) : Touches w s (programSettings t l) := h.withBoot _

theorem Touches.storeSettings (h : Touches w s t) (x : Settings) : Touches w s (storeSettings t x) :=
  .ite (h.withBoot _) (h.programSettings _)

theorem Touches.raisePair (h : Touches w s t) (k : U16) (d : Nat) : Touches w s (raisePair t k d) := h.raiseDev ..

theorem Touches.cancelSwap (h : Touches w s t) : Touches w s (cancelSwap t) := by
  unfold Machine.cancelSwap
  split
  · exact .ite_onto (h.withPairSame _) fun hu => hu.raisePair ..
  · exact h

theorem Touches.installGroups (h : Touches w s t) (dir : Nat) (l : List LaneGroup) : Touches w s (installGroups t dir l) := by
  unfold Machine.installGroups
  refine .foldl (.foldl (.ite ?_ ?_) fun _ _ hu => hu.laneOff ..) fun _ _ hu => .ite (hu.rxDefine _) (hu.txStart _)
  · exact h.withOsl _
  · exact h.withOsl _

theorem Touches.installLinks (h : Touches w s t) (m : Maquette) : Touches w s (installLinks t m) :=
  .foldl (h.withOsl _) fun _ _ hu => hu.setLane ..

theorem Touches.installRate (h : Touches w s t) (m : Maquette) : Touches w s (installRate t m) :=
  .ite h (.ite_from (h.withHbm _) fun hu => hu.startRateChange)

/-- Carrying a Clause's effect out touches what the Clause does. -/
theorem Touches.carried (h : Touches w s t) {r : Result} (hr : Within w t r) : Touches w s (carried t r) := by
  unfold Machine.carried
  split
  · next x => exact h.trans (hr.of_ok x rfl)
  · exact h

section
variable (hw : ∀ p, w p)
include hw

theorem Touches.installNet (h : Touches w s t) (m : Maquette) : Touches w s (installNet t m) := by
  have hp : ∀ {u} p f d ip mac, Touches w s u → Touches w s (Machine.carried u (timePortSet u p f d ip mac)) :=
    fun _ _ _ _ _ hu => hu.carried (timePortSet_within (hw _) (hw _) ..)
  exact .withNet (.carried (hp _ _ _ _ _ (hp _ _ _ _ _ h)) (timeServoSet_within (hw _) (hw _) ..)) _

theorem Touches.installClock (h : Touches w s t) (m : Maquette) : Touches w s (installClock t m) := by
  unfold Machine.installClock
  refine .carried (.carried (h.foldl fun _ _ hu => ?_) (clockSelect_within (hw _) (hw _) ..)) (clockDpllSet_within (hw _) ..)
  exact .ite hu (hu.carried (clockRefSet_within (hw _) (hw _) ..))

theorem Touches.installDomains (h : Touches w s t) (m : Maquette) : Touches w s (installDomains t m) :=
  h.foldl fun _ _ hu => .ite hu (hu.carried (powerDomain_within (hw _) (hw _) (hw _) ..))

theorem Touches.installMaquette (h : Touches w s t) (m : Maquette) : Touches w s (installMaquette t m) := by
  unfold Machine.installMaquette
  refine .installRate (.installDomains hw (.installClock hw (.installNet hw (.installLinks ?_ _) _) _) _) _
  refine .installGroups (.installGroups ?_ _ _) _ _
  exact h.trans (.of_all hw rfl rfl rfl)

theorem Touches.formPair (h : Touches w s t) (partner : U32) : Touches w s (formPair t partner) :=
  .foldl (h.withPair _ fun n => absurd (hw _) n) fun _ _ hu => hu.mirrorLaneUp _

theorem Touches.leavePair (h : Touches w s t) : Touches w s (leavePair t) := by
  refine .withPair (.ite_onto ?_ fun hu => hu.installMaquette hw _) _ fun n => absurd (hw _) n
  exact .loseGuard (.cancelSwap (.ite h (h.sendMsg ..)))

theorem pairConfigure_within (s : State) (enable : Bool) (partner : U32) : Within w s (pairConfigure s enable partner) := by
  have hs := fun x => (Touches.refl (w := w) s).storeSettings x
  unfold pairConfigure
  refine .after fun _ => .done (.ite ((hs _).formPair hw _) ((hs _).leavePair hw)) _

end

end

/-! ### Every Clause -/

/-- The opcodes that change a part, as the frame of the Clauses lists them. -/
def opcodesOf : Part → List Nat
  | .maps => [0x0300, 0x0301, 0x0B00]
  | .dma => [0x0A01, 0x0B00, 0x0D02, 0x0D03]
  | .power => [0x0B00, 0x0D02, 0x0D03]
  | .plinth => [0x0700, 0x0701, 0x0703, 0x0800, 0x0801, 0x0B00]
  | .clock => [0x0700, 0x0701, 0x0703, 0x0800, 0x0801, 0x0802, 0x0B00]
  | .role => [0x0B00]
  | .corrs => [0x0302, 0x0303, 0x0304, 0x0305, 0x0306, 0x0310, 0x0312, 0x0A02, 0x0B00]
  | .gloss => [0x0600, 0x0601, 0x0602, 0x0603, 0x0604, 0x0607, 0x0A01, 0x0B00, 0x0D02, 0x0D03]

/-- The parts that an opcode may change. -/
def mayTouch (op : Nat) (p : Part) : Prop := (opcodesOf p).contains op = true

theorem not_mayTouch {op : Nat} {p : Part} (h : op ∉ opcodesOf p) : ¬ mayTouch op p := by simpa [mayTouch] using h

/-- A Clause touches the parts of its opcode at most, one case per Clause. -/
theorem clause_touches {c : Instr} {cl : Clause} {s t : State} (hc : clauseOf c = some cl) (h : exec c s = .next t) :
    Touches (mayTouch cl.opcode) s t := by
  cases c
  all_goals cases hc
  all_goals unfold exec at h
  case sysNop => exact runClause_touches h fun s => .done (.refl s)
  case sysIdentify | sysEnvelopeQuery | diagErrorLog | trimSave =>
    exact runClause_touches h fun s => .answerQuery (.refl s) ..
  case corrPlanQuery | corrIstoreQuery | beamQuery | zoomQuery | glossQuery | timeQuery | clockQuery | worldQuery | pairQuery =>
    exact runClause_touches h fun s => .answerReport (.refl s) ..
  case sysRingDefine => exact runClause_touches h fun s => ringDefine_within ..
  case sysRingRelease => exact runClause_touches h fun s => ringRelease_within ..
  case laneGroupDefine => exact runClause_touches h fun s => laneDefine_within ..
  case laneGroupRelease => exact runClause_touches h fun s => laneRelease_within ..
  case laneSleep | laneWake => exact runClause_touches h fun s => laneTransition_within ..
  case laneTxPrecode => exact runClause_touches h fun s => laneTxPrecode_within ..
  case laneSetThresholds => exact runClause_touches h fun s => laneThresholds_within ..
  case laneEgressBind => exact runClause_touches h fun s => laneEgressBind_within ..
  case diagLoopback => exact runClause_touches h fun s => diagLoopback_within ..
  case intakeStreamDefine => exact runClause_touches h fun s => streamDefine_within ..
  case intakeStreamRelease => exact runClause_touches h fun s => streamRelease_within ..
  case intakeSetSkew => exact runClause_touches h fun s => setSkew_within ..
  case intakeSetEpoch => exact runClause_touches h fun s => setEpoch_within ..
  case intakeSetGains => exact runClause_touches h fun s => setGains_within ..
  case intakeStatsDefine => exact runClause_touches h fun s => statsDefine_within ..
  case intakeStatsRelease => exact runClause_touches h fun s => statsRelease_within ..
  case corrInputMapLoad => exact runClause_touches h fun s => mapLoad_within (by rfl) ..
  case corrInputMapFree => exact runClause_touches h fun s => mapFree_within (by rfl) ..
  case corrDefine => exact runClause_touches h fun s => corrDefine_within (by rfl) ..
  case corrRelease => exact runClause_touches h fun s => corrRelease_within (by rfl) ..
  case corrSuspend => exact runClause_touches h fun s => corrSuspend_within (by rfl) ..
  case corrResume => exact runClause_touches h fun s => .resumed (corrResume_within (by rfl) ..) ..
  case corrSetMode => exact runClause_touches h fun s => corrSetMode_within (by rfl) ..
  case corrSnapshot => exact runClause_touches h fun s => corrSnapshot_within (by rfl) ..
  case corrSetRoute => exact runClause_touches h fun s => .after fun _ => setRoute_within ..
  case corrSetOutput => exact runClause_touches h fun s => corrSetOutput_within (by rfl) ..
  case corrFaultInject => exact runClause_touches h fun s => faultInject_within ..
  case beamDefine => exact runClause_touches h fun s => beamDefine_within ..
  case beamRelease => exact runClause_touches h fun s => beamRelease_within ..
  case beamSuspend => exact runClause_touches h fun s => beamSuspend_within ..
  case beamResume => exact runClause_touches h fun s => .resumed (beamResume_within ..) ..
  case beamDelayLoad => exact runClause_touches h fun s => delayLoad_within ..
  case beamDelaySwitch => exact runClause_touches h fun s => delaySwitch_within ..
  case beamDelaySwap => exact runClause_touches h fun s => delaySwap_within ..
  case beamDelayMode => exact runClause_touches h fun s => delayMode_within ..
  case beamSetGains => exact runClause_touches h fun s => beamSetGains_within ..
  case beamSetScale => exact runClause_touches h fun s => beamSetScale_within ..
  case beamSetRoute => exact runClause_touches h fun s => beamSetRoute_within ..
  case beamImportBind => exact runClause_touches h fun s => importBind_within ..
  case zoomProtoLoad => exact runClause_touches h fun s => protoLoad_within ..
  case zoomProtoFree => exact runClause_touches h fun s => protoFree_within ..
  case zoomDefine => exact runClause_touches h fun s => zoomDefine_within ..
  case zoomRelease | zoomSuspend => exact runClause_touches h fun s => zoomStop_within ..
  case zoomResume => exact runClause_touches h fun s => .resumed (zoomResume_within ..) ..
  case zoomFirLoad => exact runClause_touches h fun s => firLoad_within ..
  case zoomFirSwitch => exact runClause_touches h fun s => firSwitch_within ..
  case zoomSetTune => exact runClause_touches h fun s => setTune_within ..
  case zoomSetAlign => exact runClause_touches h fun s => setAlign_within ..
  case zoomSetDetect => exact runClause_touches h fun s => setDetect_within ..
  case zoomRebaseline => exact runClause_touches h fun s => rebaseline_within ..
  case zoomCaptureNow => exact runClause_touches h fun s => captureNow_within ..
  case zoomSetRoute => exact runClause_touches h fun s => zoomSetRoute_within ..
  case glossLoad => exact runClause_touches h fun s => glossLoadC_within (by rfl) ..
  case glossStart => exact runClause_touches h fun s => .resumed (glossStartC_within (by rfl) ..) ..
  case glossStop => exact runClause_touches h fun s => glossStopC_within (by rfl) ..
  case glossAttach => exact runClause_touches h fun s => glossAttachC_within (by rfl) ..
  case glossDetach => exact runClause_touches h fun s => glossDetachC_within (by rfl) ..
  case glossSetRoute => exact runClause_touches h fun s => glossSetRouteC_within ..
  case glossMemRead => exact runClause_touches h fun s => memReadC_within ..
  case glossMemWrite => exact runClause_touches h fun s => memWriteC_within (by rfl) ..
  case timePortSet => exact runClause_touches h fun s => timePortSet_within (by rfl) (by rfl) ..
  case timeServoSet => exact runClause_touches h fun s => timeServoSet_within (by rfl) (by rfl) ..
  case timeAcceptStep => exact runClause_touches h fun s => acceptStep_within ..
  case timeSet => exact runClause_touches h fun s => timeSet_within (by rfl) (by rfl) ..
  case timeOutSet => exact runClause_touches h fun s => timeOutSet_within ..
  case timeInSet => exact runClause_touches h fun s => timeInSet_within ..
  case clockRefSet => exact runClause_touches h fun s => clockRefSet_within (by rfl) (by rfl) ..
  case clockSelect => exact runClause_touches h fun s => clockSelect_within (by rfl) (by rfl) ..
  case clockDpllSet => exact runClause_touches h fun s => clockDpllSet_within (by rfl) ..
  case trimRun => exact runClause_touches h fun s => trimRun_within ..
  case trimSetTrigger => exact runClause_touches h fun s => trimSetTrigger_within ..
  case trimRestore => exact runClause_touches h fun s => trimRestore_within ..
  case worldRegionSet => exact runClause_touches h fun s => regionSet_within ..
  case worldAssign => exact runClause_touches h fun s => worldAssign_within (by rfl) (by rfl) ..
  case worldQuotaSet => exact runClause_touches h fun s => quotaSet_within (by rfl) ..
  case pairConfigure => exact runClause_touches h fun s => pairConfigure_within (fun p => by cases p <;> rfl) ..
  case pairSwap => exact runClause_touches h fun s => pairSwap_within ..
  case pairResync => exact runClause_touches h fun s => pairResync_within ..
  case updateActivate => exact runClause_touches h fun s => updateActivate_within ..
  case updateConfirm => exact runClause_touches h fun s => updateConfirm_within ..
  case updateQuery => exact runClause_touches h fun s => updateQuery_within ..
  case powerHbmRate => exact runClause_touches h fun s => hbmRate_within ..
  case powerHbmRetrain => exact runClause_touches h fun s => startRetrain_within ..
  case powerHbmState => exact runClause_touches h fun s => hbmState_within (by rfl) (by rfl) (by rfl) ..
  case powerDomain => exact runClause_touches h fun s => powerDomain_within (by rfl) (by rfl) (by rfl) ..

/-- Settles O60: each Clause touches the parts of its opcode at most, by one lemma for each function that the Clauses' bodies
call. -/
theorem clauseFrame : Obligations.ClauseFrame := by
  unfold Obligations.ClauseFrame
  rintro c cl _ s t hc rfl h
  obtain ⟨latches, hold, pending, maps, dma, power, plinth, clock, role, corrs, gloss⟩ := clause_touches hc h
  exact ⟨latches, hold, pending, fun n => maps (not_mayTouch n), fun n => dma (not_mayTouch n),
    fun n => power (not_mayTouch n), fun n => plinth (not_mayTouch n), fun n => clock (not_mayTouch n),
    fun n => role (not_mayTouch n), fun n => corrs (not_mayTouch n), fun n => gloss (not_mayTouch n)⟩

/-! ### Every command answers a next state -/

theorem runGloss_next (i : Nat) (g : GInstr) (e : Ecc) (s : State) : ∃ t, runGloss i g e s = .next t := by
  unfold runGloss
  dsimp only
  repeat' split
  all_goals exact ⟨_, rfl⟩

theorem takeMsg_answers (s : State) (n : U32) (f : State → State) : ∃ t, takeMsg s n f = .next t := ⟨_, rfl⟩

theorem execCommit_next (n : U32) (last : Option (Maquette × Commit)) (s : State) : ∃ t, execCommit n last s = .next t := by
  unfold execCommit
  split
  · exact takeMsg_answers ..
  · split
    · split
      · exact takeMsg_answers ..
      · exact ⟨_, rfl⟩
    · exact takeMsg_answers ..

theorem execReserve_next (n : U32) (pid : Nat) (a b : U64) (s : State) : ∃ t, execReserve n pid a b s = .next t := by
  unfold execReserve
  split
  · exact ⟨_, rfl⟩
  · exact takeMsg_answers ..

/-- Settles O3: a Clause and a Gloss instruction answer a next state on every branch, a COMMIT and a RESERVE on each of theirs,
and the body of every other command is a next state as it stands. -/
theorem everyCommandCompletes : Obligations.EveryCommandCompletes := by
  unfold Obligations.EveryCommandCompletes
  intro c s
  cases c
  case commit => exact execCommit_next ..
  case reserve => exact execReserve_next ..
  case
    sysNop | sysIdentify | sysRingDefine | sysRingRelease | sysEnvelopeQuery | laneGroupDefine | laneGroupRelease |
    laneSleep | laneWake | laneTxPrecode | laneSetThresholds | laneEgressBind | intakeStreamDefine | intakeStreamRelease
    | intakeSetSkew | intakeSetEpoch | intakeSetGains | intakeStatsDefine | intakeStatsRelease | corrInputMapLoad |
    corrInputMapFree | corrDefine | corrRelease | corrSuspend | corrResume | corrSetMode | corrPlanQuery | corrSnapshot
    | corrSetRoute | corrSetOutput | corrIstoreQuery | corrFaultInject | beamDefine | beamRelease | beamSuspend |
    beamResume | beamDelayLoad | beamDelaySwitch | beamDelaySwap | beamDelayMode | beamSetGains | beamSetScale |
    beamSetRoute | beamImportBind | beamQuery | zoomProtoLoad | zoomProtoFree | zoomDefine | zoomRelease | zoomSuspend |
    zoomResume | zoomFirLoad | zoomFirSwitch | zoomSetTune | zoomSetAlign | zoomSetDetect | zoomRebaseline |
    zoomCaptureNow | zoomSetRoute | zoomQuery | glossLoad | glossStart | glossStop | glossAttach | glossDetach |
    glossSetRoute | glossMemRead | glossMemWrite | glossQuery | timePortSet | timeServoSet | timeAcceptStep | timeSet |
    timeOutSet | timeInSet | timeQuery | clockRefSet | clockSelect | clockDpllSet | clockQuery | trimRun |
    trimSetTrigger | trimSave | trimRestore | worldRegionSet | worldAssign | worldQuotaSet | worldQuery | pairConfigure
    | pairSwap | pairResync | pairQuery | updateActivate | updateConfirm | updateQuery | powerHbmRate | powerHbmRetrain
    | powerHbmState | powerDomain | diagErrorLog | diagLoopback =>
    unfold exec
    exact runClause_next _ s _
  case
    gNop | gMpy | gMac | gMsu | gDmac | gCmach | gCmacl | gCmacjl | gPwr | gClr | gAdd | gSub | gAddq | gSubq | gAddw |
    gSubw | gBfly | gTfr | gNeg | gAbs | gAsr | gAsl | gTst | gLdq | gMov | gLdi | gRnd | gExpw | gPaddi | gSetbs |
    gSetex | gClrf | gBexpr | gLdw | gLd | gSt | gStw | gLdwMem | gSavw | gRstw | gBra | gBeq | gBne | gBlt | gBge |
    gCall | gRet | gLoop | gLoopd | gLdil | gWaitf | gEmit | gEvt | gHalt =>
    unfold exec
    exact runGloss_next ..
  all_goals exact ⟨_, rfl⟩

/-! ### Accesses to registers -/

section
variable {s : State} {f : Fn} {off : Nat}

theorem denied_f0 (s : State) (off : Nat) : denied s .f0 off = false := rfl

theorem latchEffect_latchesOnly (s : State) (f : Fn) (off : Nat) :
    latchEffect s f off = { s with latches := (latchEffect s f off).latches } := by
  unfold latchEffect
  split <;> rfl

@[simp] theorem latchEffect_out (s : State) (f : Fn) (off : Nat) : (latchEffect s f off).out = s.out := by
  rw [latchEffect_latchesOnly]

@[simp] theorem latchEffect_tin (s : State) (f g : Fn) (off pin : Nat) : (latchEffect s f off).tin g pin = s.tin g pin := by
  rw [latchEffect_latchesOnly]
  cases g <;> rfl

/-- A read of a low word leaves its high half in the latch. -/
theorem latchEffect_latches {hi : Nat} (h : hiOf off = some hi) :
    (latchEffect s f off).latches = tabSet (latchKey f hi) (BitVec.ofNat 32 (regValue s f hi)) s.latches := by
  simp only [latchEffect, h]

theorem readWord_allowed (d : Nat) (h : denied s f off = false) : readWord s f off d =
    (readEffect (latchEffect s f off) f off d).emit (.readData f off (BitVec.ofNat 32 (readValue s f off))) := by
  simp [readWord, h]

theorem readWord_allowed_out (d : Nat) (h : denied s f off = false) :
    (readWord s f off d).out = .readData f off (BitVec.ofNat 32 (readValue s f off)) :: s.out := by
  rw [readWord_allowed d h, State.emit, (readEffect_keeps ..).2, latchEffect_out]

theorem readWord_denied (d : Nat) (h : denied s .f1 off = true) :
    readWord s .f1 off d = (raise s 1 .c .nonsecure (regRes .f1 off) 0).emit (.readData .f1 off 0) := by
  simp [readWord, readValue, h, denied_raise]

theorem regRead_aligned (d : Nat) (h : off % 4 = 0) : regRead s f off d = readWord s f off d := by simp [regRead, h]

/-- A pop of a FIFO that is not empty. -/
theorem tinPop_cons {pin : Nat} {e : TinEntry} {rest : List TinEntry} (h : (s.tin f pin).fifo = e :: rest) :
    (tinPop s f pin).1 = s.setTin f pin { s.tin f pin with fifo := rest, latched := e.time } := by
  simp [tinPop, h]

theorem readEffect_tinPop (s : State) (f : Fn) (pin : Fin 4) (d : Nat) :
    readEffect s f (0xB0300 + 0x20 * pin.val) d = (tinPop s f pin.val).1 := by
  match pin with
  | 0 | 1 | 2 | 3 => rfl

/-- A write of ATTN_MASK sets the mask and nothing else of the host link. -/
theorem attnWrite_link (s : State) (l : HostLink) : (attnWrite s l).link = l := by
  unfold attnWrite attnFollow
  split <;> rfl

/-! ### The accesses of the statement -/

theorem regAlignAccess_aligned (s : State) (f : Fn) (w : Bool) (h : off % 4 = 0) :
    exec (.regAlignAccess f off 4 w) s = .next s := by
  show execRegAlignAccess f off 4 w s = _
  simp [execRegAlignAccess, h]

theorem regAlignAccess_misaligned (s : State) (f : Fn) {size : Nat} (w : Bool) (h : off % 4 ≠ 0 ∨ size ≠ 4) :
    ∃ t, exec (.regAlignAccess f off size w) s = .next t ∧ SameData s t ∧
      t.err = (raise s 0x0002 .c (worldOf f) (regRes f off) 0).err ∧ (w = false → t.out.head? = some (.readData f off 0)) := by
  have hn : ¬ (off % 4 = 0 ∧ size = 4) := fun ⟨ha, hs⟩ => h.elim (· ha) (· hs)
  have hr : SameData s (alignRecord s f off) := (SameData.refl s).raise ..
  cases w with
  | true => exact ⟨alignRecord s f off, by show execRegAlignAccess .. = _; simp [execRegAlignAccess, hn], hr, rfl, nofun⟩
  | false =>
    exact ⟨(alignRecord s f off).emit (.readData f off 0), by show execRegAlignAccess .. = _; simp [execRegAlignAccess, hn],
      hr.emit _, rfl, fun _ => rfl⟩

theorem registerWrite_misaligned (s : State) (f : Fn) (val : U32) (h : off % 4 ≠ 0) :
    exec (.registerWrite f off val) s = .next (raise s 0x0002 .c (worldOf f) (regRes f off) 0) := by
  show execRegisterWrite f off val s = _
  simp [execRegisterWrite, regWrite, h, alignRecord]

theorem registerWrite_denied (val : U32) (h : off % 4 = 0) (hd : denied s .f1 off = true) :
    exec (.registerWrite .f1 off val) s = .next (raise s 0x0001 .c .nonsecure (regRes .f1 off) 0) := by
  show execRegisterWrite .f1 off val s = _
  simp [execRegisterWrite, regWrite, h, writeWord, hd, denied_raise]

theorem registerWrite_attnMask (s : State) (val : U32) : exec (.registerWrite .f0 0x104 val) s =
    .next (attnWrite s { s.link with attnMask := BitVec.ofNat 11 val.toNat }) := rfl

theorem rcFieldRead_aligned (s : State) (f : Fn) (d : Nat) (h : off % 4 = 0) :
    exec (.rcFieldRead f off d) s = .next (readWord s f off d) :=
  congrArg Host.Outcome.next (regRead_aligned d h)

theorem hiLatchRead_aligned (s : State) (f : Fn) (h : off % 4 = 0) :
    exec (.hiLatchRead f off) s = .next (readWord s f off 0) :=
  congrArg Host.Outcome.next (regRead_aligned 0 h)

theorem readWord_asmPeak (s : State) (d : Nat) :
    (readWord s .f0 0x28008 d).intake = { s.intake with asmPeak := d % 2 ^ 24 } := by
  rw [readWord_allowed d (denied_f0 ..), latchEffect_latchesOnly]
  rfl

theorem readWord_stagePeak (s : State) (d : Nat) :
    (readWord s .f0 0x30028 d).relief = { s.relief with stagePeak := d % 2 ^ 7 } := by
  rw [readWord_allowed d (denied_f0 ..), latchEffect_latchesOnly]
  rfl

theorem readWord_hiLatch {hi : Nat} (h : denied s f off = false) (hh : hiOf off = some hi) :
    tabGet (latchKey f hi) (readWord s f off 0).latches = some (BitVec.ofNat 32 (regValue s f hi)) := by
  rw [readWord_allowed 0 h, State.emit_latches, (readEffect_keeps ..).1, latchEffect_latches hh, tabGet_tabSet]

theorem denied_timeRegs (s : State) (f : Fn) (pin : Fin 4) :
    denied s f 0xB0004 = false ∧ denied s f (0xB0300 + 0x20 * pin.val) = false := by
  match f, pin with
  | .f0, _ => exact ⟨rfl, rfl⟩
  | .f1, 0 | .f1, 1 | .f1, 2 | .f1, 3 => exact ⟨rfl, rfl⟩

theorem readWord_nowFrac (s : State) (f : Fn) : (readWord s f 0xB0004 0).plinth = (match f with
    | .f0 => { s.plinth with latch0 := some (timeField s.now) }
    | .f1 => { s.plinth with latch1 := some (timeField s.now) }) := by
  rw [readWord_allowed 0 (denied_timeRegs s f 0).1, latchEffect_latchesOnly]
  cases f <;> rfl

theorem readWord_tinPop {pin : Fin 4} {e : TinEntry} {rest : List TinEntry} (h : (s.tin f pin.val).fifo = e :: rest) :
    (readWord s f (0xB0300 + 0x20 * pin.val) 0).tin f pin.val = { s.tin f pin.val with fifo := rest, latched := e.time } := by
  rw [← latchEffect_tin s f f (0xB0300 + 0x20 * pin.val)] at h ⊢
  rw [readWord_allowed 0 (denied_timeRegs s f pin).2, readEffect_tinPop, tinPop_cons h]
  exact (tin_setTin ..).trans (if_pos rfl)

end

/-- Settles O29: an access is a record of its class, or the effect of the register on a state whose latches alone have changed. -/
theorem registerAccesses : Obligations.RegisterAccesses := by
  unfold Obligations.RegisterAccesses
  intro s f off val d
  refine ⟨fun w h => regAlignAccess_aligned s f w h, fun size w h => regAlignAccess_misaligned s f w h, fun h => ?_,
    fun h hd => ?_, ?_, fun h hd => ?_, ?_, ?_, fun hi h hd hh => ?_, ?_, fun pin e rest h => ?_⟩
  · exact ⟨_, registerWrite_misaligned s f val h, (SameData.refl s).raise .., rfl⟩
  · exact ⟨_, registerWrite_denied val h hd, (SameData.refl s).raise .., rfl⟩
  · refine ⟨_, registerWrite_attnMask s val, ?_, ?_⟩ <;> rw [attnWrite_link]
  · rw [rcFieldRead_aligned s .f1 d h, readWord_denied d hd]
    exact ⟨_, rfl, ((SameData.refl s).raise ..).emit _, rfl, rfl⟩
  · exact ⟨_, rcFieldRead_aligned s .f0 d rfl, readWord_asmPeak s d, readWord_allowed_out d (denied_f0 ..)⟩
  · exact ⟨_, rcFieldRead_aligned s .f0 d rfl, readWord_stagePeak s d, readWord_allowed_out d (denied_f0 ..)⟩
  · exact ⟨_, hiLatchRead_aligned s f h, readWord_hiLatch hd hh, readWord_allowed_out 0 hd⟩
  · exact ⟨_, rfl, readWord_allowed_out 0 (denied_timeRegs s f 0).1, readWord_nowFrac s f⟩
  · have ht := readWord_tinPop h
    exact ⟨_, rfl, by rw [ht], by rw [ht], readWord_allowed_out 0 (denied_timeRegs s f pin).2⟩

end Sys2Proof.Machine

/-! # A Clause that is not accepted, and the step (O1, O7) -/

namespace Sys2Proof.Machine
open Sys2Proof.Safety

/-- A Clause's command is the Clause's body run. -/
theorem exec_eq_runClause {c : Instr} {cl : Clause} (hc : clauseOf c = some cl) :
    ∃ body, ∀ s, exec c s = runClause c s body := by
  cases c
  all_goals cases hc
  all_goals
    apply Exists.intro
    intro s
    unfold exec
    exact Eq.refl (runClause _ s _)

/-! ### Completions leave the boot state and the pair's role -/

section
variable (s : State) (f : Fn) (i : Nat)

theorem writeEntry_boot : (writeEntry s f i).boot = s.boot := by
  unfold writeEntry
  dsimp only
  split
  · rfl
  · split
    · split
      · rw [(sendVector_boot ..).1]; simp
      · simp
    · rfl

theorem flushQueue_boot : (flushQueue s f i).boot = s.boot := by
  have h := foldl_keeps State.boot (fun t (_ : Nat) => writeEntry t f i) (fun t _ => writeEntry_boot t f i)
    (List.range (s.qp f i).owed.length) s
  unfold flushQueue
  dsimp only
  split
  · exact h
  · simpa using h

theorem owe_boot (x : Completion) : (owe s f i x).boot = s.boot := by
  unfold owe
  dsimp only
  split
  · rfl
  · rw [flushQueue_boot, State.setQp_boot]

theorem owe_pair (x : Completion) : (owe s f i x).pair = s.pair := by
  unfold owe
  dsimp only
  split
  · rfl
  · rw [flushQueue_pair, State.setQp_pair]

end

/-- A completion may join the held ones of the pair, and changes nothing else of the pair and the boot state. -/
theorem complete_pair_boot (s : State) (src : Src) (op : Nat) (r : Reply) (n : Option Nat) (b : Bool := false) :
    (complete s src op r n b).pair = { s.pair with heldCompletions := (complete s src op r n b).pair.heldCompletions } ∧
      (complete s src op r n b).boot = s.boot := by
  unfold complete
  dsimp only
  split
  · exact ⟨rfl, rfl⟩
  · exact ⟨rfl, rfl⟩
  · rw [owe_pair, owe_boot]
    exact ⟨rfl, rfl⟩

/-! ### A Clause that is not accepted -/

theorem runAs_idle {s : State} {c : Clause} (body : State → Result) (h : s.err.service = false ∨ isTaken s c = false) :
    runAs c s body = .next s := by
  unfold runAs
  rcases h with h | h <;> simp [h]

/-- A check or the body that answers an error: the record of a failed host read, where there is one, and the completion. -/
theorem runAs_error {s : State} {c : Clause} {body : State → Result} {r : Reply} (hs : s.err.service = true)
    (ht : isTaken s c = true) (hr : (do gate (untake s c.src) c; body (untake s c.src) : Result) = .error r) :
    runAs c s body = .next (complete
      (if r.hostRead then raise (untake s c.src) 0x0905 .l (worldOf c.src.fn) (qpRes c.src.fn c.src.qp.val)
        ((untake s c.src).qp c.src.fn c.src.qp.val).expectSeq.toNat else untake s c.src) c.src c.opcode r none) := by
  unfold runAs
  simp only [hs, ht, hr, Bool.not_true, Bool.or_self, Bool.false_eq_true, if_false]

/-- The record of a failed host read leaves the data, the pair and the boot state. -/
theorem noteRead_same (s : State) (c : Clause) (b : Bool) (k : U16) (det : Nat) :
    let t := if b then raise (untake s c.src) k .l (worldOf c.src.fn) (qpRes c.src.fn c.src.qp.val) det else untake s c.src
    SameData s t ∧ t.pair = s.pair ∧ t.boot = s.boot := by
  have hu := untake_same s c.src
  cases b with
  | true => exact ⟨hu.raise .., (logRecord_pair ..).trans (untake_pair ..), (logRecord_boot ..).trans (untake_boot ..)⟩
  | false => exact ⟨hu, untake_pair .., untake_boot ..⟩

/-- Settles O1: the step's branch for a queue with a front. -/
theorem stepRunsFrontCommand : Obligations.StepRunsFrontCommand := by
  unfold Obligations.StepRunsFrontCommand
  intro s c rest h
  unfold step
  rw [h]

/-- Settles O7: an error status ends in the completion of the Clause, after the record of a failed host read where there is one. -/
theorem refusedClauseChangesNothing : Obligations.RefusedClauseChangesNothing := by
  unfold Obligations.RefusedClauseChangesNothing
  refine ⟨fun c cl hc => exec_eq_runClause hc, fun c cl body s hc => ?_⟩
  rw [runClause_of hc]
  refine ⟨runAs_idle body, fun r hs ht hr => ⟨_, runAs_error hs ht hr, ?_⟩⟩
  obtain ⟨hd, hp, hb⟩ := noteRead_same s cl r.hostRead _ _
  obtain ⟨cp, cb⟩ := complete_pair_boot _ cl.src cl.opcode r none
  refine ⟨hd.complete .., ?_, ?_, ?_⟩
  · rw [cp, ← hp]
  · rw [cp, ← hp]
  · rw [cb, hb]
end Sys2Proof.Machine

/-! # Queue service (O31) -/

namespace Sys2Proof.Machine
open Sys2Proof.Safety

section
variable {s : State} {f : Fn} {i : Fin 8}

/-! ### Visits and re-reads -/

theorem emit_qp (s : State) (e : Emission) (f : Fn) (i : Nat) : (s.emit e).qp f i = s.qp f i := by cases f <;> rfl

theorem withErr_qp (s : State) (e : ErrState) (f : Fn) (i : Nat) : ({ s with err := e } : State).qp f i = s.qp f i := by
  cases f <;> rfl

theorem setQp_err (s : State) (f : Fn) (i : Nat) (q : Qp) : (s.setQp f i q).err = s.err := by simp

/-- The read of a slot leaves the pair and the errors, and is on the record. -/
theorem readSlot_keeps (s : State) (f : Fn) (i : Nat) : SameData s (readSlot s f i) ∧
    .hostRead f (slotAddress (s.qp f i)) 64 ∈ (readSlot s f i).out ∧ (readSlot s f i).qp f i = s.qp f i ∧
    (readSlot s f i).err = s.err :=
  ⟨(SameData.refl s).emit _, List.mem_cons_self .., emit_qp .., rfl⟩

/-- A Clause that passes the first checks is taken: the slot counts as taken, and the Armature holds the Clause. -/
theorem takeClause_passed {bytes : List Byte} (h : precheck f bytes = none) :
    SameData s (takeClause s f i bytes) ∧
    (takeClause s f i bytes).err = { s.err with
      taken := some { src := { fn := f, qp := i, seq := (s.qp f i.val).expectSeq }, bytes := bytes.take 64 } } ∧
    (takeClause s f i bytes).qp f i.val = { s.qp f i.val with
      sqHead := (s.qp f i.val).sqHead + 1, expectSeq := (s.qp f i.val).expectSeq + 1, retry := none } := by
  simp only [takeClause, h, takeSlot, withErr_qp, setQp_err, State.setQp_qp_self _ _ _ _ i.isLt]
  exact ⟨((SameData.refl s).setQp ..).setErr _, trivial, trivial⟩

/-- The state after the Armature has moved on to the next queue and has read the slot of this one. -/
def visited (s : State) (f : Fn) (i : Nat) : State :=
  readSlot { s with err := { s.err with visit := (s.err.visit + 1) % 16 } } f i

theorem visited_keeps (s : State) (f : Fn) (i : Nat) : SameData s (visited s f i) ∧
    .hostRead f (slotAddress (s.qp f i)) 64 ∈ (visited s f i).out ∧ (visited s f i).qp f i = s.qp f i ∧
    (visited s f i).err = { s.err with visit := (s.err.visit + 1) % 16 } := by
  obtain ⟨hd, ho, hq, he⟩ := readSlot_keeps { s with err := { s.err with visit := (s.err.visit + 1) % 16 } } f i
  rw [withErr_qp] at ho hq
  exact ⟨((SameData.refl s).setErr _).trans hd, ho, hq, he⟩

theorem queueVisit_eligible (hs : s.err.service = true) (hi : idleArmature s = true) (hf : visitFn s.err.visit = f)
    (hv : s.err.visit % 8 = i.val) (he : eligible s f i.val = true) (slot : HRead) : queueVisit s slot =
      if seqMatches (s.qp f i.val) slot then takeClause (visited s f i.val) f i (slot.getD [])
      else (visited s f i.val).setQp f i.val { s.qp f i.val with retry := some 0 } := by
  subst hf
  rw [← (visited_keeps s _ i.val).2.2.1]
  unfold queueVisit
  rw [if_neg (by simp [hs, hi])]
  dsimp only
  rw [visit_fin hv, if_neg (by simp [he])]
  rfl

/-- The state after the Armature has read a slot again, for the n-th time. -/
def reread (s : State) (f : Fn) (i n : Nat) : State :=
  (readSlot s f i).setQp f i { s.qp f i with rereads := (s.qp f i).rereads + 1, retry := some n }

theorem reread_keeps (s : State) (f : Fn) (i : Fin 8) (n : Nat) : SameData s (reread s f i.val n) ∧
    .hostRead f (slotAddress (s.qp f i.val)) 64 ∈ (reread s f i.val n).out ∧
    (reread s f i.val n).qp f i.val = { s.qp f i.val with rereads := (s.qp f i.val).rereads + 1, retry := some n } ∧
    (reread s f i.val n).err = s.err := by
  obtain ⟨hd, ho, -, he⟩ := readSlot_keeps s f i.val
  refine ⟨hd.setQp .., ?_, State.setQp_qp_self _ _ _ _ i.isLt, (setQp_err ..).trans he⟩
  simpa [reread] using ho

theorem clauseReread_retrying (hs : s.err.service = true) (hr : retrying s = some (f, i)) (hh : s.reach f = true)
    (slot : HRead) (n : Nat) (hn : n = ((s.qp f i.val).retry.getD 0) + 1) : clauseReread s slot =
      if seqMatches (s.qp f i.val) slot then
        takeClause (raise (reread s f i.val n) 0x0901 .t (worldOf f) (qpRes f i.val) (s.qp f i.val).expectSeq.toNat) f i
          (slot.getD [])
      else if n ≥ 3 then stale (reread s f i.val n) f i slot else reread s f i.val n := by
  subst hn
  unfold clauseReread
  rw [if_neg (by simp [hs]), hr]
  dsimp only
  rw [if_neg (by simp [hh])]
  rfl

/-! ### Owed completions and waits -/

theorem cutFollows_none (h : s.world.cuts = []) (f : Fn) (i : Nat) : cutFollows s f i = s := by simp [cutFollows, h]

/-- One entry that can be written, on a queue whose vector may send a message. -/
theorem writeEntry_one {x : Completion} {q : Qp} (hq : q = s.qp f i.val) (ho : q.owed = [x]) (hr : s.reach f = true)
    (hu : cqUsed q < 2 * sqDepth q) :
    .hostWrite f (q.cqBase.toNat + 32 * (q.cqTail.toNat % 2 ^ q.cqLog2.toNat)) (completionBytes x q.phase q.sqHead) ∈
      (writeEntry s f i.val).out ∧
    ∃ b, (writeEntry s f i.val).qp f i.val = { q with cqTail := q.cqTail + 1, phase := b, owed := [] } := by
  subst hq
  simp only [writeEntry, ho, hr, hu, decide_true, Bool.and_self, if_true]
  split
  · exact ⟨mem_of_same ((SameData.refl _).sendVector ..) (by simp [State.emit]),
      ⟨_, by rw [sendVector_qp, State.setQp_qp_self _ _ _ _ i.isLt]⟩⟩
  · exact ⟨by simp [State.emit], ⟨_, State.setQp_qp_self _ _ _ _ i.isLt⟩⟩

theorem drained_owed_cqTail (q : Qp) : (drained q).owed = q.owed ∧ (drained q).cqTail = q.cqTail := by
  unfold drained
  split <;> exact ⟨rfl, rfl⟩

theorem setQp_out (s : State) (f : Fn) (i : Nat) (q : Qp) : (s.setQp f i q).out = s.out := by simp

theorem flushQueue_single {x : Completion} (ho : (s.qp f i.val).owed = [x]) : flushQueue s f i.val =
    if unanswered (writeEntry s f i.val) f i.val then writeEntry s f i.val
    else (writeEntry s f i.val).setQp f i.val (drained ((writeEntry s f i.val).qp f i.val)) := by
  unfold flushQueue
  rw [ho]
  rfl

/-- A queue that owes one entry, which can be written. -/
theorem flushQueue_one {x : Completion} {q : Qp} (hq : q = s.qp f i.val) (ho : q.owed = [x]) (hr : s.reach f = true)
    (hu : cqUsed q < 2 * sqDepth q) :
    .hostWrite f (q.cqBase.toNat + 32 * (q.cqTail.toNat % 2 ^ q.cqLog2.toNat)) (completionBytes x q.phase q.sqHead) ∈
      (flushQueue s f i.val).out ∧
    ((flushQueue s f i.val).qp f i.val).owed = [] ∧ ((flushQueue s f i.val).qp f i.val).cqTail = q.cqTail + 1 := by
  obtain ⟨hout, b, hqp⟩ := writeEntry_one hq ho hr hu
  rw [flushQueue_single (hq ▸ ho)]
  split
  · exact ⟨hout, by rw [hqp], by rw [hqp]⟩
  · rw [State.setQp_qp_self _ _ _ _ i.isLt, setQp_out, (drained_owed_cqTail _).1, (drained_owed_cqTail _).2, hqp]
    exact ⟨hout, rfl, rfl⟩

theorem complete_waiting (s : State) (src : Src) (op : Nat) (r : Reply) (n : Option Nat) (b : Bool) :
    ((complete s src op r n b).qp src.fn src.qp.val).waiting = (s.qp src.fn src.qp.val).waiting := by
  have hold : ∀ m w x, ((holdCompletion s src m w x).qp src.fn src.qp.val) = s.qp src.fn src.qp.val := by
    intro m w x
    cases src.fn <;> rfl
  unfold complete
  dsimp only
  split
  · rw [hold]
  · rw [hold]
  · unfold owe
    dsimp only
    split
    · rfl
    · rw [flushQueue_waiting, State.setQp_qp_self _ _ _ _ src.qp.isLt]

/-- Only UPDATE_CONFIRM still does something when its wait ends. -/
theorem waitEffect_none {w : Waiting} (h : w.opcode.toNat ≠ 0x0C01) : waitEffect s w = s := by
  unfold waitEffect
  split
  · next heq _ => exact absurd heq h
  · rfl

theorem waitComplete_reached {w : Waiting} (hs : s.err.service = true) (hw : (s.qp f i.val).waiting = some w)
    (hn : w.opcode.toNat ≠ 0x0C01) (hr : waitReached s { fn := f, qp := i, seq := w.seq } w = true) :
    SameData s (waitComplete s f i) ∧ ((waitComplete s f i).qp f i.val).waiting = none := by
  unfold waitComplete
  rw [hw]
  dsimp only
  rw [if_neg (by simp [hs, hr]), waitEffect_none hn]
  refine ⟨((SameData.refl s).setQp ..).complete _ _ _ _ true, ?_⟩
  rw [complete_waiting, State.setQp_qp_self _ _ _ _ i.isLt]

theorem deferredEffect_product {pid : Nat} {p : Product} (hr : s.power.inReset = false) (hp : s.product pid = some p)
    (hk : p.kind ≠ .corr) : deferredEffect s pid = s.setProduct pid (settleDemand s.intake.front p) := by
  simp [deferredEffect, settleProduct, hr, hp, hk]

end

/-- Settles O31: each event is its one branch under the statement's conditions. -/
theorem queueServiceEvents : Obligations.QueueServiceEvents := by
  unfold Obligations.QueueServiceEvents
  rintro s f i q rfl hs
  refine ⟨fun bytes hi hf hv he hseq hp => ?_, fun slot hi hf hv he hm => ?_, fun slot n hr hh hq hm hn => ?_,
    fun bytes hr hh hseq hp => ?_, fun x hc ho _ hh hu => ?_, fun w hw hn hr => ?_, fun pid p hr hp hk => ?_⟩
  · obtain ⟨hd, hout, hqp, herr⟩ := visited_keeps s f i.val
    obtain ⟨kd, ke, kq⟩ := takeClause_passed (s := visited s f i.val) (i := i) hp
    refine ⟨_, congrArg Host.Outcome.next ((queueVisit_eligible hs hi hf hv he (some bytes)).trans (if_pos (by simp [seqMatches, hseq]))),
      hd.trans kd, mem_of_same kd hout, ?_, ?_, ?_⟩
    · rw [Option.getD_some, ke, herr]
    · rw [Option.getD_some, ke, hqp]
    · rw [Option.getD_some, kq, hqp]
  · obtain ⟨hd, hout, hqp, herr⟩ := visited_keeps s f i.val
    refine ⟨_, congrArg Host.Outcome.next ((queueVisit_eligible hs hi hf hv he slot).trans (if_neg (by simp [hm]))), hd.setQp .., ?_,
      (setQp_err ..).trans herr, State.setQp_qp_self _ _ _ _ i.isLt⟩
    rwa [setQp_out]
  · obtain ⟨hd, hout, hqp, herr⟩ := reread_keeps s f i (n + 1)
    have h : clauseReread s slot = reread s f i.val (n + 1) := by
      rw [clauseReread_retrying hs hr hh slot (n + 1) (by rw [hq]; rfl), if_neg (by simp [hm]), if_neg (by omega)]
    exact ⟨_, congrArg Host.Outcome.next h, hd, hout, herr, hqp⟩
  · obtain ⟨hd, hout, hqp, -⟩ := reread_keeps s f i ((s.qp f i.val).retry.getD 0 + 1)
    have hra := (SameData.refl (reread s f i.val ((s.qp f i.val).retry.getD 0 + 1))).raise 0x0901 .t (worldOf f)
      (qpRes f i.val) (s.qp f i.val).expectSeq.toNat
    obtain ⟨kd, ke, kq⟩ := takeClause_passed (s := raise (reread s f i.val ((s.qp f i.val).retry.getD 0 + 1)) 0x0901 .t
      (worldOf f) (qpRes f i.val) (s.qp f i.val).expectSeq.toNat) (i := i) hp
    rw [raise_qp, hqp] at ke kq
    exact ⟨_, congrArg Host.Outcome.next ((clauseReread_retrying hs hr hh (some bytes) _ rfl).trans (if_pos (by simp [seqMatches, hseq]))),
      (hd.trans hra).trans kd, mem_of_same kd (mem_of_same hra hout), by rw [Option.getD_some, ke], kq⟩
  · obtain ⟨hout, howed, htail⟩ := flushQueue_one rfl ho hh hu
    have h : followEntryWrite s f i.val = flushQueue s f i.val := by simp [followEntryWrite, hs, cutFollows_none hc]
    exact ⟨_, congrArg Host.Outcome.next h, (SameData.refl s).flushQueue .., hout, howed, htail⟩
  · exact ⟨_, rfl, waitComplete_reached hs hw hn hr⟩
  · exact ⟨_, rfl, deferredEffect_product hr hp hk⟩
end Sys2Proof.Machine

/-! # The grid (O39) -/

namespace Sys2Proof.Machine
open Sys2Proof.Safety

section
variable {s : State}

/-! ### Where the shared steps of the grid do nothing -/

theorem setRelief_setRelief (s : State) (r q : Relief) : (s.setRelief r).setRelief q = s.setRelief q := rfl

theorem setRelief_self (s : State) : s.setRelief s.relief = s := rfl

theorem makeChanges_none (h : s.relief.incidents = []) : makeChanges s = s := by
  unfold makeChanges
  rw [h]
  split <;> rfl

/-- A waiting retry changes neither bypass nor fence. -/
theorem makeChanges_retry {i : RepInc} (h : s.relief.incidents = [i]) (hp : i.phase = .retry) : makeChanges s = s := by
  unfold makeChanges
  rw [h]
  split
  · rfl
  · simp [makeChange, hp]

theorem trySwap_idle (h : s.relief.acc = none) : trySwap s = s := by
  unfold trySwap
  rw [h]

/-- A run with samples to take goes on. -/
theorem trySwap_running {run : Run} {c : Corr} (ha : s.relief.acc = some run) (hc : s.corr run.tile.pid = some c)
    (ho : run.offset < c.td) : trySwap s = s := by
  unfold trySwap
  rw [ha]
  dsimp only
  rw [hc]
  exact if_pos ho

theorem applyCellWords_none (h : s.trims.restoring = none) : applyCellWords s = s := by
  unfold applyCellWords
  rw [h]

theorem endDrainStall_none (h : s.relief.drainStall = none) : endDrainStall s = s := by
  unfold endDrainStall
  rw [h]
  cases s.istore.emitStall.isSome <;> rfl

theorem endStageStall_none (h : s.relief.stageStall = none) : endStageStall s = s := by
  unfold endStageStall
  rw [h]

theorem waitingRepairs_none (h : s.relief.incidents = []) : waitingRepairs s = [] := by
  unfold waitingRepairs
  rw [h]
  rfl

/-! ### Dwells, blocks and halves -/

theorem startDwell_next {cd : ChanDwell} (h : nextReady s = some cd) :
    (startDwell s).relief.cur = some (cd, 0) ∧ (startDwell s).relief.ready = s.relief.ready.filter (· != cd) ∧
    (startDwell s).hbm = s.hbm ∧ (startDwell s).err = s.err := by
  unfold startDwell
  rw [h]
  dsimp only
  split <;>
  · obtain ⟨tc, tr, -, -, -, th, te⟩ := startTile_keeps (restage _)
    obtain ⟨rc, rr, -, -, -, rh, re⟩ := restage_keeps _
    exact ⟨tc.trans rc, tr.trans rr, th.trans rh, te.trans re⟩

theorem freeHalf_drained {x : CtSet} {h d : Nat}
    (hx : vget x.halves h { dwell := none, full := false } = { dwell := some d, full := true })
    (hb : dwellBusy s x.id d = false) :
    freeHalf s x h = { x with halves := vset x.halves h { dwell := none, full := false } } := by
  unfold freeHalf
  rw [hx]
  exact if_pos (by simp [hb])

end

section
variable {s : State} (hg : gated s = false)
include hg

theorem execChannelDwellFinish_idle (ha : s.relief.acc = none) (hs : slotsUsed s = 0) (hc : s.relief.cur = none)
    (hr : s.trims.restoring = none) : execChannelDwellFinish s = .next (startDwell s) := by
  unfold execChannelDwellFinish
  rw [if_neg (by simp [hg, ha, hs]), hc, applyCellWords_none hr]

theorem execStageBlockLoadDone_first {col : Bool} {b : Nat} {x : StageSlot} {rest : List StageSlot} (hc : s.relief.cur = none)
    (hs : s.relief.stage = x :: rest) (hl : x.loaded = false) (hx : x.col = col) (hb : x.block = b) :
    execStageBlockLoadDone col b s =
      .next (s.setRelief { s.relief with stage := { x with loaded := true } :: rest }) := by
  unfold execStageBlockLoadDone
  rw [if_neg (by simp [hg]), hs, startTile_idle _ (by exact hc)]
  simp [execStageBlockLoadDone.mark, hl, hx, hb]

/-! ### Super-tiles -/

section
variable {run : Run} {c : Corr} (ha : s.relief.acc = some run) (hc : s.corr run.tile.pid = some c)
include ha hc

theorem execSuperTileEnd_eq :
    execSuperTileEnd s = .next (trySwap (s.setRelief { s.relief with acc := some (runEnd c.td run) })) := by
  unfold execSuperTileEnd
  rw [hg, ha]
  dsimp only
  rw [hc]

theorem execNarrowFold_eq (hm : run.mode = 1) (hf : run.folded < c.td) :
    execNarrowFold s = .next (s.setRelief { s.relief with acc := some (fold512 run) }) := by
  unfold execNarrowFold
  rw [hg, ha]
  dsimp only
  rw [hc]
  dsimp only
  rw [if_pos ⟨hm, hf⟩]

theorem execPreemptionPoint_goesOn (ho : run.offset < c.td) (hi : s.relief.incidents = []) :
    execPreemptionPoint s = .next (s.setRelief { s.relief with acc := some (atPoint c.td run) }) := by
  unfold execPreemptionPoint
  rw [hg, ha]
  dsimp only
  rw [hc]
  dsimp only
  rw [if_pos ho, waitingRepairs_none hi]
  rfl

theorem execPreemptionPoint_saves {i : RepInc} {n : Nat} (ho : c.td ≤ run.offset) (hd : s.relief.drainStall = none)
    (hi : (waitingRepairs s).find? (preempts s run) = some i) (hn : freeSlot s = some n) :
    execPreemptionPoint s = .next (s.setRelief { s.relief with
      acc := none, slots := vset s.relief.slots n (some { run := run, saved := false }), preempts := s.relief.preempts + 1,
      starter := some i.id }) := by
  unfold execPreemptionPoint
  rw [hg, ha]
  dsimp only
  rw [hc]
  dsimp only
  rw [if_neg (by omega), hi, hn]
  dsimp only
  rw [endDrainStall_none hd]

end

/-! ### The drain -/

omit hg in
/-- Without an injected fault and without errors of the silicon nothing differs from what was expected. -/
theorem drainErrs_none (run : Run) (h : s.relief.injects = []) : drainErrs s run [] = [] := by
  unfold drainErrs injectBits
  rw [h]
  rfl

omit hg in
theorem spendInjects_none (h : s.relief.injects = []) : spendInjects s = s := by
  have hr : { s.relief with injects := [] } = s.relief := by rw [← h]
  unfold spendInjects
  rw [h, List.filter_nil, hr, setRelief_self]

omit hg in
/-- A first run of sound operands that drains without errors matches. -/
theorem compareRun_matched {run : Run} (hk : run.kind = .first) (hp : runPoisoned s run = false)
    (hj : s.relief.injects = []) : compareRun s run [] true false = toSpill s run.tile true [] := by
  unfold compareRun
  rw [hk, drainErrs_none run hj, spendInjects_none hj, hp]
  exact if_pos (by decide)

theorem execDrainCompare_matched {run : Run} {rest : List Run} (hd : s.relief.drain = run :: rest) (hk : run.kind = .first)
    (hp : runPoisoned s run = false) (hi : s.relief.incidents = []) (hj : s.relief.injects = [])
    (ha : s.relief.acc = none) (hc : s.relief.cur = none) :
    execDrainCompare [] true false s = .next (toSpill (s.setRelief { s.relief with drain := rest }) run.tile true []) := by
  unfold execDrainCompare
  rw [hg, hd]
  dsimp only
  rw [compareRun_matched (s := s.setRelief { s.relief with drain := rest }) hk hp hj, makeChanges_none (by exact hi), ite_self,
    trySwap_idle (by exact ha), startTile_idle _ (by exact hc)]

/-! ### Contexts and repair work -/

theorem execContextSaveDone_saved {k : Fin 2} {x : CtxSlot} (hx : vget s.relief.slots k.val none = some x)
    (hi : s.relief.incidents = []) : execContextSaveDone k s =
      .next (s.setRelief { s.relief with slots := vset s.relief.slots k.val (some { x with saved := true }) }) := by
  unfold execContextSaveDone
  rw [hg, hx]
  dsimp only
  rw [makeChanges_none (by exact hi)]

theorem execContextRestoreDone_last {x : CtxSlot} {c : Corr} (hx : vget s.relief.slots 1 none = some x) (hs : x.saved = true)
    (ha : s.relief.acc = none) (hc : s.corr x.run.tile.pid = some c) (ho : x.run.offset < c.td) (hst : s.relief.starter = none) :
    execContextRestoreDone 1 s =
      .next (s.setRelief { s.relief with acc := some x.run, slots := vset s.relief.slots 1 none }) := by
  unfold execContextRestoreDone
  rw [hg, show (1 : Fin 2).val = 1 from rfl, hx]
  dsimp only
  rw [if_pos (by simp [hs, ha, repairDue, hst]), trySwap_running (by rfl) (by exact hc) ho]

omit hg in
theorem slots_none (h : slotsUsed s = 0) : ∀ o ∈ s.relief.slots.toList, o = none := by
  intro o ho
  simp only [slotsUsed, List.length_eq_zero_iff, List.filter_eq_nil_iff] at h
  simpa using h o ho

omit hg in
/-- The one incident's work is next: the preemption was made for it, or no context waits. -/
theorem nextRepair_only {i : RepInc} (hi : s.relief.incidents = [i]) (hw : i.working = false)
    (h : (slotsUsed s = 0 ∧ s.relief.starter = none) ∨ s.relief.starter = some i.id) : nextRepair s = some i := by
  have hwait : waitingRepairs s = [i] := by simp [waitingRepairs, hi, hw]
  unfold nextRepair
  rw [hwait]
  rcases h with ⟨hu, hst⟩ | hst
  · have hall : (s.relief.slots.toList.all fun o => o.all fun x => preempts s x.run i) = true :=
      List.all_eq_true.mpr fun o ho => by rw [slots_none hu o ho]; rfl
    rw [hst]
    dsimp only [Option.bind_none]
    rw [hu, if_neg (by decide)]
    simp only [List.find?_cons, hall]
  · simp [hst]

theorem execRepairWorkStart_retry {i : RepInc} (ha : s.relief.acc = none)
    (hs : (s.relief.slots.toList.all fun o => o.all CtxSlot.saved) = true)
    (hst : (slotsUsed s = 0 ∧ s.relief.starter = none) ∨ s.relief.starter = some i.id) (hi : s.relief.incidents = [i])
    (hw : i.working = false) (hp : i.phase = .retry) (hn : s.relief.stageStall = none) :
    execRepairWorkStart s = .next (s.setRelief { s.relief with
      acc := some (repairRun s i), starter := none, incidents := [{ i with working := true }] }) := by
  have hsaved : (s.relief.slots.toList.any fun o => o.any fun x => !x.saved) = false := by
    rw [List.any_eq_false]
    intro o ho
    have := List.all_eq_true.mp hs o ho
    cases o <;> simp_all
  unfold execRepairWorkStart
  rw [if_neg (by simp [hg]), makeChanges_retry hi hp]
  dsimp only
  rw [if_neg (by simp [hg, ha, hsaved]), nextRepair_only hi hw hst]
  dsimp only
  rw [hp]
  dsimp only
  rw [endStageStall_none hn, hi]
  simp [putInc]

end

/-- Settles O39: each event is its one branch under the statement's conditions. -/
theorem gridEvents : Obligations.GridEvents := by
  unfold Obligations.GridEvents
  intro s hg
  refine ⟨fun id x h d hf hx hb => ?_, fun cd ha hs hc hr hn => ?_, fun col b x rest hc hs hl hx hb => ?_,
    fun run c ha hc hf => ?_, fun run c ha hc hf hd => ?_, fun run c ha hc hm hf => execNarrowFold_eq hg ha hc hm hf,
    fun run rest hd hk hp hi hj ha hc => execDrainCompare_matched hg hd hk hp hi hj ha hc,
    fun run c ha hc ho hi => execPreemptionPoint_goesOn hg ha hc ho hi,
    fun run c i n ha hc ho hd hi hn => execPreemptionPoint_saves hg ha hc ho hd hi hn,
    fun k x hx hi => execContextSaveDone_saved hg hx hi,
    fun x c hx hs ha hc ho hst => execContextRestoreDone_last hg hx hs ha hc ho hst,
    fun i ha hs hst hi hw hp hn => execRepairWorkStart_retry hg ha hs hst hi hw hp hn⟩
  · show execCornerTurnHalfFree id h s = _
    unfold execCornerTurnHalfFree
    rw [hf]
    dsimp only
    rw [freeHalf_drained hx hb]
  · exact ⟨_, execChannelDwellFinish_idle hg ha hs hc hr, startDwell_next hn⟩
  · exact execStageBlockLoadDone_first hg hc hs hl hx hb
  · obtain ⟨hdr, htd, hbc, hh⟩ := trySwap_free (s.setRelief { s.relief with acc := some (runEnd c.td run) }) (runEnd c.td run) c rfl
      hc (Nat.le_refl _) hf
    exact ⟨_, execSuperTileEnd_eq hg ha hc, hdr, htd, hbc, hh⟩
  · refine (execSuperTileEnd_eq hg ha hc).trans ?_
    rw [trySwap_held _ (runEnd c.td run) c (by rfl) (by exact hc) (Nat.le_refl _) (by exact hf) (by exact hd)]
    rfl
end Sys2Proof.Machine

/-! # Rows and record delivery (O58) -/

namespace Sys2Proof.Machine
open Sys2Proof.Safety

/-- What the events of the Frieze rows, the chains and record delivery leave. -/
def rowUnits (s : State) :=
  ((s.fresh, s.latches, s.commitHold, s.pending), (s.maps, s.corrs, s.relief, s.istore), s.plinth, s.clock, s.dma, s.boot,
    s.power, s.pair.role)

/-- From `s` to `t` nothing changes that a row event leaves. -/
structure RowFrame (s t : State) : Prop where
  units_eq : rowUnits t = rowUnits s

section
variable {s t u : State}

theorem RowFrame.refl (s : State) : RowFrame s s := ⟨rfl⟩

theorem RowFrame.trans (a : RowFrame s t) (b : RowFrame t u) : RowFrame s u := ⟨b.units_eq.trans a.units_eq⟩

/-- An update of none of these fields. -/
theorem RowFrame.same (h : RowFrame s t) (e : rowUnits u = rowUnits t) : RowFrame s u := h.trans ⟨e⟩

theorem RowFrame.of_same (h : RowFrame s t) (k : SameData t u) (b : u.boot = t.boot) (p : u.pair = t.pair) :
    RowFrame s u :=
  h.same (by simp only [rowUnits, k.fresh, k.latches, k.commitHold, k.pending, k.maps, k.corrs, k.relief, k.istore, k.plinth,
    k.clock, k.dma, k.power, b, p])

theorem RowFrame.ite {c : Prop} {_ : Decidable c} (a : RowFrame s t) (b : RowFrame s u) :
    RowFrame s (if c then t else u) := by
  split <;> assumption

theorem RowFrame.foldl {α : Type} {g : State → α → State} {l : List α} (h : RowFrame s t)
    (hg : ∀ u x, RowFrame s u → RowFrame s (g u x)) : RowFrame s (l.foldl g t) := by
  induction l generalizing t with
  | nil => exact h
  | cons x l ih => exact ih (hg t x h)

end

/-! ### Messages, the log and completions -/

section
variable {s t : State}

theorem RowFrame.setFn (h : RowFrame s t) (f : Fn) (x : FnState) : RowFrame s (t.setFn f x) := by
  cases f <;> exact h.same rfl

theorem RowFrame.setQp (h : RowFrame s t) (f : Fn) (i : Nat) (q : Qp) : RowFrame s (t.setQp f i q) := h.setFn ..

theorem RowFrame.setRing (h : RowFrame s t) (f : Fn) (i : Nat) (r : Ring) : RowFrame s (t.setRing f i r) := h.setFn ..

theorem RowFrame.sendVector (h : RowFrame s t) (f : Fn) (v : Nat) : RowFrame s (sendVector t f v) :=
  h.of_same ((SameData.refl t).sendVector f v) (sendVector_boot ..).1 (sendVector_boot ..).2

theorem RowFrame.logRecord (h : RowFrame s t) (e : ErrRec) : RowFrame s (logRecord t e) :=
  h.of_same ((SameData.refl t).logRecord e) (logRecord_boot ..) (logRecord_pair ..)

theorem RowFrame.raiseDev (h : RowFrame s t) (k : U16) (cls : Cls) (r d : Nat) : RowFrame s (raiseDev t k cls r d) :=
  h.logRecord _

theorem RowFrame.flushQueue (h : RowFrame s t) (f : Fn) (i : Nat) : RowFrame s (flushQueue t f i) :=
  h.of_same ((SameData.refl t).flushQueue f i) (flushQueue_boot ..) (flushQueue_pair ..)

theorem RowFrame.followEntry (h : RowFrame s t) (c : Src) (op k a b : Nat) : RowFrame s (followEntry t c op k a b) := by
  unfold Machine.followEntry
  dsimp only
  split
  · exact h.same rfl
  · exact .ite h (.ite ((h.setQp ..).flushQueue ..) (h.setQp ..))

/-! ### Products and their records -/

theorem RowFrame.setProduct (h : RowFrame s t) (pid : Nat) (p : Product) : RowFrame s (t.setProduct pid p) := h.same rfl

theorem RowFrame.delProduct (h : RowFrame s t) (pid : Nat) : RowFrame s (t.delProduct pid) := h.same rfl

theorem RowFrame.store (h : RowFrame s t) (a : Nat) (bs : List Byte) : RowFrame s (t.store a bs) := by
  rw [State.store_hbmOnly]
  exact h.same rfl

theorem RowFrame.egressAppend (h : RowFrame s t) (e pid seq : Nat) (bs : List Byte) :
    RowFrame s (egressAppend t e pid seq bs) := by
  unfold Machine.egressAppend
  dsimp only
  split
  · exact h
  · exact h.same rfl

theorem RowFrame.handOver (h : RowFrame s t) (r : HeldRec) : RowFrame s (handOver t r) := by
  have offered : ∀ u d, RowFrame s u → RowFrame s (pushOffer u d) := fun _ _ hu => hu.same rfl
  unfold Machine.handOver
  dsimp only
  split
  · exact (h.foldl fun u _ hu => offered u _ hu).egressAppend ..
  · exact h.foldl fun u _ hu => offered u _ hu

theorem RowFrame.release (h : RowFrame s t) (r : HeldRec) : RowFrame s (release t r) := by
  unfold Machine.release emittedThrough
  split
  · exact h.handOver r
  · refine .ite (h.same rfl) ?_
    split
    · exact (h.handOver r).setProduct ..
    · exact h.handOver r

theorem RowFrame.sendMsg (h : RowFrame s t) (k : Nat) (p : List Byte) : RowFrame s (sendMsg t k p).1 := h.same rfl

theorem RowFrame.reserveAhead (h : RowFrame s t) (pid : Nat) : RowFrame s (reserveAhead t pid) := by
  unfold Machine.reserveAhead
  split
  · exact h
  · exact .ite ((h.sendMsg ..).setProduct ..) h

theorem RowFrame.sendNumbered (h : RowFrame s t) (pid seq : Nat) (r : RecOut) : RowFrame s (sendNumbered t pid seq r) := by
  unfold Machine.sendNumbered
  split
  · exact h
  · exact ((h.setProduct ..).release _).reserveAhead _

theorem RowFrame.takeNumber (h : RowFrame s t) (pid : Nat) : RowFrame s (takeNumber t pid).1 := by
  unfold Machine.takeNumber
  split
  · exact h
  · exact h.setProduct ..

theorem RowFrame.emitNumbered (h : RowFrame s t) (pid : Nat) (r : RecOut) : RowFrame s (emitNumbered t pid r) :=
  .ite h ((h.takeNumber pid).sendNumbered ..)

theorem RowFrame.flushErrors (h : RowFrame s t) (pid : Nat) (k : Option (Nat × Nat)) (a b c : Nat) :
    RowFrame s (flushErrors t pid k a b c) := by
  unfold Machine.flushErrors
  split
  · exact h
  · exact (h.setProduct ..).foldl fun _ _ hu => hu.emitNumbered ..

theorem RowFrame.emitKeyed (h : RowFrame s t) (pid : Nat) (k : Option (Nat × Nat)) (r : RecOut) :
    RowFrame s (emitKeyed t pid k r) := (h.flushErrors ..).emitNumbered ..

theorem RowFrame.emitRecord (h : RowFrame s t) (pid : Nat) (r : RecOut) : RowFrame s (emitRecord t pid r) := h.emitKeyed ..

theorem RowFrame.emitGapKeyed (h : RowFrame s t) (pid : Nat) (k : Option (Nat × Nat)) (a b c d e f g : Nat) :
    RowFrame s (emitGapKeyed t pid k a b c d e f g) := .ite h (((h.flushErrors ..).takeNumber pid).sendNumbered ..)

theorem RowFrame.gapSuspended (h : RowFrame s t) (pid a b c : Nat) : RowFrame s (gapSuspended t pid a b c) :=
  h.emitGapKeyed ..

theorem RowFrame.oweError (h : RowFrame s t) (pid : Nat) (k : Option (Nat × Nat)) (x : LogEntry) :
    RowFrame s (oweError t pid k x) := by
  unfold Machine.oweError
  split
  · exact h
  · exact .ite h (h.setProduct ..)

theorem RowFrame.raiseProduct (h : RowFrame s t) (k : U16) (pid det : Nat) (a : Affects) :
    RowFrame s (raiseProduct t k pid det a) := by
  unfold Machine.raiseProduct logForProduct
  refine .ite ?_ (h.logRecord _)
  split
  · exact (h.logRecord _).emitNumbered ..
  all_goals exact (h.logRecord _).oweError ..

theorem RowFrame.emitFromSlot (h : RowFrame s t) (pid base len : Nat) (r : RecOut) :
    RowFrame s (emitFromSlot t pid base len r) := by
  have hp := h.raiseProduct 0x0402 pid 1 .next
  refine .ite ?_ (h.emitRecord ..)
  unfold emitPoisoned
  dsimp only
  split
  · exact hp
  · split
    · exact ((hp.flushErrors ..).setProduct ..).emitGapKeyed ..
    · exact (hp.flushErrors ..).emitGapKeyed ..

theorem RowFrame.suspendProduct (h : RowFrame s t) (pid : Nat) : RowFrame s (suspendProduct t pid) := by
  unfold Machine.suspendProduct
  split
  · exact h.setProduct ..
  · exact h

theorem RowFrame.productStopped (h : RowFrame s t) (pid : Nat) : RowFrame s (productStopped t pid) := by
  have hc : ∀ {u : State} (l : List Cut), RowFrame s u → RowFrame s { u with world := { u.world with cuts := l } } :=
    fun _ hu => hu.same rfl
  unfold Machine.productStopped
  exact h.foldl fun u c hu => .ite (.ite ((hc _ hu).followEntry ..) (hc _ hu)) hu

/-! ### Rows of the Frieze -/

theorem RowFrame.setFzProd (h : RowFrame s t) (p : FzProd) : RowFrame s (t.setFzProd p) := h.same rfl

theorem RowFrame.withFrieze (h : RowFrame s t) (x : Frieze) : RowFrame s { t with frieze := x } := h.same rfl

theorem RowFrame.dropFrieze (h : RowFrame s t) (pid : Nat) : RowFrame s (dropFrieze t pid) := by
  have freed : ∀ (f : Frieze) p, RowFrame s (freeAllocs { t with frieze := f } p) := fun _ _ => h.same rfl
  refine .productStopped (.delProduct ?_ _) _
  split
  · exact (freed _ _).followEntry ..
  · exact freed _ _

theorem RowFrame.friezeStops (h : RowFrame s t) (pid : Nat) : RowFrame s (friezeStops t pid) := by
  unfold Machine.friezeStops
  split
  · exact h
  · split
    · refine .ite h (.ite (h.dropFrieze _) ?_)
      refine .productStopped (.suspendProduct (.gapSuspended (.setFzProd ?_ _) _ _ _ _) _) _
      split
      · exact h.setProduct ..
      · exact h
    · exact h

theorem RowFrame.emitBeam (h : RowFrame s t) (pid : Nat) : RowFrame s (emitBeam t pid) := by
  unfold Machine.emitBeam
  split
  · exact h
  · refine .ite h (.ite (.withFrieze (.emitKeyed (.withFrieze (h.setFzProd _) _) _ _ _) _) ?_)
    split
    · exact .setProduct (.withFrieze (h.setFzProd _) _) _ _
    · exact .withFrieze (h.setFzProd _) _

theorem RowFrame.emitBeams (h : RowFrame s t) (pid : Nat) : RowFrame s (emitBeams t pid) := by
  unfold Machine.emitBeams
  split
  · exact h
  · exact (h.foldl fun _ _ hu => hu.emitBeam _).friezeStops _

theorem RowFrame.passRow (h : RowFrame s t) (pid b : Nat) (r : BeamRow) : RowFrame s (passRow t pid b r) := by
  unfold Machine.passRow
  split
  · exact h
  · exact h.same rfl

theorem RowFrame.offerRow (h : RowFrame s t) (pid b : Nat) (r : BeamRow) : RowFrame s (offerRow t pid b r) := by
  unfold Machine.offerRow
  split
  · exact h
  · refine .ite (h.passRow ..) ?_
    split
    · exact h.passRow ..
    · split
      · exact (h.setFzProd _).passRow ..
      · exact h.setFzProd _

theorem RowFrame.takePartial (h : RowFrame s t) (pid : Nat) (x : ImpRow) : RowFrame s (takePartial t pid x) := by
  unfold Machine.takePartial
  split
  · exact h
  · split
    · exact h
    · split
      · exact (h.setFzProd _).passRow ..
      · exact .ite h (h.setFzProd _)

theorem RowFrame.dueSwitch (h : RowFrame s t) (k : Nat) : RowFrame s (dueSwitch t k) := by
  unfold Machine.dueSwitch
  split
  · exact .ite (h.withFrieze _) h
  · exact h

theorem RowFrame.noteExpiry (h : RowFrame s t) (k : Nat) : RowFrame s (noteExpiry t k) :=
  .ite h (.ite (h.withFrieze _) (((h.withFrieze _).withFrieze _).raiseDev ..))

theorem RowFrame.noteResidue (h : RowFrame s t) (j : Nat) : RowFrame s (noteResidue t j) :=
  .ite (((h.withFrieze _).withFrieze _).raiseDev ..) (h.withFrieze _)

theorem RowFrame.noteDelays (h : RowFrame s t) (pid : Nat) (bad : List (Nat × Nat)) (b : Bool) (j : Nat) :
    RowFrame s (noteDelays t pid bad b j) := by
  unfold Machine.noteDelays
  split
  · exact h
  · exact (h.setFzProd _).foldl fun _ _ hu => (hu.withFrieze _).raiseProduct ..

theorem RowFrame.fetchGains (h : RowFrame s t) (pid g : Nat) : RowFrame s (fetchGains t pid g) := by
  unfold Machine.fetchGains
  split
  · exact h
  · exact .ite h (.ite (h.setFzProd _) ((h.setFzProd _).raiseProduct ..))

theorem RowFrame.dropGains (h : RowFrame s t) (pid g : Nat) : RowFrame s (dropGains t pid g) := by
  unfold Machine.dropGains
  split
  · exact h.setFzProd _
  · exact h

theorem RowFrame.readAhead (h : RowFrame s t) (pid g : Nat) : RowFrame s (readAhead t pid g) := by
  unfold Machine.readAhead
  exact (h.foldl fun _ _ hu => hu.fetchGains ..).dropGains ..

theorem RowFrame.sumRow (h : RowFrame s t) (pid : Nat) (r : SettledRow) (res : List Residue) (b : Bool) :
    RowFrame s (sumRow t pid r res b) := by
  unfold Machine.sumRow
  split
  · exact h
  · exact .emitBeams (.foldl ((h.withFrieze _).setFzProd _) fun _ _ hu => hu.offerRow ..) _

theorem RowFrame.prodRow (h : RowFrame s t) (pid : Nat) (r : SettledRow) (bad : List (Nat × Nat × Nat)) (res : List Residue)
    (b : Bool) : RowFrame s (prodRow t pid r bad res b) := by
  unfold Machine.prodRow
  split
  · exact h
  · exact .ite (h.friezeStops _) (((h.noteDelays ..).readAhead ..).sumRow ..)

theorem RowFrame.putEntries (h : RowFrame s t) (b : Bool) (l : List (Nat × Nat)) : RowFrame s (putEntries t b l) :=
  .ite (h.withFrieze _) (h.withFrieze _)

/-! ### Chains: captures and events -/

theorem RowFrame.setChain (h : RowFrame s t) (i : Nat) (c : Chain) : RowFrame s (t.setChain i c) := h.same rfl

theorem RowFrame.withTrims (h : RowFrame s t) (x : Trims) : RowFrame s { t with trims := x } := h.same rfl

theorem RowFrame.closeCapture (h : RowFrame s t) (i cut : Nat) : RowFrame s (closeCapture t i cut) := by
  unfold Machine.closeCapture
  dsimp only
  split
  · exact h
  · exact (h.store ..).setChain ..

theorem RowFrame.sendCapture (h : RowFrame s t) (i : Nat) : RowFrame s (sendCapture t i) := by
  unfold Machine.sendCapture
  dsimp only
  split
  · exact (h.emitFromSlot ..).setChain ..
  · exact h

theorem RowFrame.openCapture (h : RowFrame s t) (i slot cause k : Nat) : RowFrame s (openCapture t i slot cause k) :=
  .ite ((h.setChain ..).closeCapture ..) (h.setChain ..)

theorem RowFrame.trigger (h : RowFrame s t) (i cause n : Nat) : RowFrame s (trigger t i cause n).1 := by
  unfold Machine.trigger
  dsimp only
  split
  · exact h.setChain ..
  · split
    · exact h.openCapture ..
    · exact h.setChain ..

theorem RowFrame.requestPulse (h : RowFrame s t) (i pin time : Nat) : RowFrame s (requestPulse t i pin time) := by
  have put : ∀ x : NetTime, RowFrame s { t with net := x } := fun _ => h.same rfl
  exact .ite (put _) (.ite (put _) (.ite ((put _).setChain ..) (put _)))

theorem RowFrame.eventPulse (h : RowFrame s t) (i : Nat) (c : Chain) (x : Interval) (k : Nat) :
    RowFrame s (eventPulse t i c x k) := by
  unfold Machine.eventPulse
  split
  · exact .ite (h.requestPulse ..) h
  · exact h

theorem RowFrame.mirrorChain (h : RowFrame s t) (i : Nat) : RowFrame s (mirrorChain t i) := .ite (h.sendMsg ..) h

theorem RowFrame.emitEvent (h : RowFrame s t) (i : Nat) (x : Interval) (e : EventOut) : RowFrame s (emitEvent t i x e) := by
  have limited : ∀ (u : State) (y : Chisel), RowFrame s u → RowFrame s { u with chisel := y } := fun _ _ hu => hu.same rfl
  unfold Machine.emitEvent
  dsimp only
  split
  · exact h
  · refine .ite (limited _ _ (h.setChain ..)) (.mirrorChain (.eventPulse (.setChain (.emitRecord ?_ _ _) _ _) _ _ _ _) _)
    split
    · exact h.trigger ..
    · exact h

/-! ### Chains: intervals -/

theorem RowFrame.forceOff (h : RowFrame s t) (i k : Nat) (x : Interval) : RowFrame s (forceOff t i k x) :=
  .ite h ((h.setChain ..).emitEvent ..)

theorem RowFrame.applyRebase (h : RowFrame s t) (i : Nat) : RowFrame s (applyRebase t i) := by
  unfold Machine.applyRebase
  dsimp only
  split
  · exact h
  · exact h.setChain ..

theorem RowFrame.settleRebase (h : RowFrame s t) (i n : Nat) : RowFrame s (settleRebase t i n) :=
  .ite ((h.forceOff ..).applyRebase _) h

theorem RowFrame.chainTrimStep (h : RowFrame s t) (i : Nat) (x : Interval) : RowFrame s (chainTrimStep t i x) := by
  unfold Machine.chainTrimStep
  split
  · exact h
  · exact .ite h (.ite (h.withTrims _) (.setChain (h.withTrims _) _ _))

theorem RowFrame.decideInterval (h : RowFrame s t) (i : Nat) (x : Interval) (stop : Option Nat) :
    RowFrame s (decideInterval t i x stop) := by
  unfold Machine.decideInterval
  extract_lets s1 r _ _ s2 s3 c onEvent s4 c4 _ s5 own s6 c6 _ _ _ _ s7 s8
  have h2 : RowFrame s s2 := ((h.setChain ..).settleRebase ..).setChain ..
  have h3 : RowFrame s s3 := by
    unfold s3
    split
    · exact .ite (h2.emitEvent ..) h2
    · exact h2
  have h4 : RowFrame s s4 := .ite (h3.emitEvent ..) h3
  have h5 : RowFrame s s5 := .ite ((h4.setChain ..).emitEvent ..) h4
  have howned : RowFrame s own := by
    unfold own
    split
    · exact .ite (h5.emitEvent ..) h5
    · exact h5
  have h6 : RowFrame s s6 := by
    unfold s6
    split
    · exact howned.forceOff ..
    · exact howned
  have h7 : RowFrame s s7 := .ite h6 (.mirrorChain (.setChain (.ite h6 (h6.emitEvent ..)) _ _) _)
  exact .ite ((h7.chainTrimStep ..).applyRebase _) (h7.chainTrimStep ..)

theorem RowFrame.decideNext (h : RowFrame s t) (i : Nat) : RowFrame s (decideNext t i) := by
  unfold Machine.decideNext
  dsimp only
  split
  · exact h
  · exact (h.setChain ..).decideInterval ..

theorem RowFrame.decideAll (h : RowFrame s t) (i k : Nat) : RowFrame s (decideAll t i k) :=
  .forceOff (.foldl (h.setChain ..) fun _ _ hu => hu.decideInterval ..) _ _ _

/-! ### Chains: the end of a chain -/

theorem RowFrame.dropChain (h : RowFrame s t) (i : Nat) : RowFrame s (dropChain t i) := by
  have freed : ∀ p, RowFrame s (freeAllocs t p) := fun _ => h.same rfl
  exact .foldl (.withTrims ((freed _).setChain ..) _) fun _ _ hu => (hu.delProduct _).productStopped _

theorem RowFrame.stopChain (h : RowFrame s t) (i b : Nat) (releasing : Bool) : RowFrame s (stopChain t i b releasing) := by
  unfold Machine.stopChain
  extract_lets s2 s3 s4 ps s5 c d s6
  have h4 : RowFrame s s4 := ((h.decideAll ..).closeCapture ..).foldl fun _ _ hu => hu.sendCapture _
  have h5 : RowFrame s s5 := h4.foldl fun _ _ hu => hu.gapSuspended ..
  exact .ite (h5.dropChain _) (.foldl (h5.setChain ..) fun _ _ hu => (hu.suspendProduct _).productStopped _)

theorem RowFrame.chainStops (h : RowFrame s t) (i : Nat) : RowFrame s (chainStops t i) := by
  unfold Machine.chainStops
  dsimp only
  split
  · exact .ite (h.stopChain ..) h
  · exact h

/-! ### Chains: rows -/

theorem RowFrame.openZoom (h : RowFrame s t) (i : Nat) (c : Chain) (n : Nat) (nco aligned : Bool) :
    RowFrame s (openZoom t i c n nco aligned) := (h.store ..).setChain ..

theorem RowFrame.closeZoom (h : RowFrame s t) (i : Nat) : RowFrame s (closeZoom t i) := by
  unfold Machine.closeZoom
  dsimp only
  split
  · exact h
  · exact ((h.store ..).setChain ..).emitFromSlot ..

theorem RowFrame.noteChainResidue (h : RowFrame s t) (i fails : Nat) : RowFrame s (noteChainResidue t i fails) := by
  have seen : ∀ y : Chisel, RowFrame s { t with chisel := y } := fun _ => h.same rfl
  exact .ite h (.ite ((seen _).setChain ..) (((seen _).setChain ..).logRecord _))

theorem RowFrame.noteTally (h : RowFrame s t) (i : Nat) (x : Tally) : RowFrame s (noteTally t i x) :=
  (h.setChain ..).noteChainResidue ..

theorem RowFrame.takeOutput (h : RowFrame s t) (i : Nat) (o : Nat × CSample × Tally) : RowFrame s (takeOutput t i o) := by
  unfold Machine.takeOutput
  extract_lets n c nco ali fade s1 s2 s3 c3 word s4 s5 mark _ c4 s6 s7 s8
  have h2 : RowFrame s s2 := .ite ((h.setChain ..).openZoom ..) (h.setChain ..)
  have h3 : RowFrame s s3 := h2.noteTally ..
  have h4 : RowFrame s s4 := .ite (h3.store ..) h3
  have h6 : RowFrame s s6 := (h4.store ..).setChain ..
  have h7 : RowFrame s s7 := .ite (h6.closeZoom _) h6
  have h8 : RowFrame s s8 := by
    unfold s8
    split
    · exact .ite (h7.closeCapture ..) h7
    · exact h7
  exact .ite h (h8.chainStops _)

theorem RowFrame.takeRow (h : RowFrame s t) (i : Nat) (fails : Fails) (c : Chain) (sums : List BSample) :
    RowFrame s (takeRow t i fails c sums) := by
  unfold Machine.takeRow
  exact .noteTally (.foldl (h.setChain ..) fun _ _ hu => hu.takeOutput ..) _ _

/-! ### Record delivery -/

theorem RowFrame.emit (h : RowFrame s t) (e : Emission) : RowFrame s (t.emit e) := h.same rfl

theorem RowFrame.setCore (h : RowFrame s t) (i : Nat) (c : Core) : RowFrame s (t.setCore i c) := h.same rfl

theorem RowFrame.ringAppend (h : RowFrame s t) (f : Fn) (n : Nat) (bs : List Byte) : RowFrame s (ringAppend t f n bs) := by
  have written : ∀ r, RowFrame s (ringWrites t f r bs) := fun _ => .ite (h.emit _) ((h.emit _).emit _)
  exact .ite ((((written _).emit _).setRing ..).sendVector ..) (((written _).emit _).setRing ..)

theorem RowFrame.ringGap (h : RowFrame s t) (f : Fn) (n pid : Nat) : RowFrame s (ringGap t f n pid) := by
  unfold Machine.ringGap
  dsimp only
  split
  · exact h
  · exact .ite ((h.setRing ..).ringAppend ..) h

theorem RowFrame.ringDecline (h : RowFrame s t) (f : Fn) (n : Nat) (o : Offer) : RowFrame s (ringDecline t f n o) := h.setRing ..

theorem RowFrame.ringTake (h : RowFrame s t) (f : Fn) (n : Nat) (o : Offer) : RowFrame s (ringTake t f n o) :=
  .ite (((h.ringGap ..).setRing ..).ringAppend ..) ((h.ringGap ..).ringDecline ..)

theorem RowFrame.feedAppend (h : RowFrame s t) (core : Nat) (a : Attach) (seq rtype start time : Nat) (bs : List Byte) :
    RowFrame s (feedAppend t core a seq rtype start time bs) := ((h.store ..).store ..).setCore ..

theorem RowFrame.feedGap (h : RowFrame s t) (core : Nat) : RowFrame s (feedGap t core) := by
  unfold Machine.feedGap
  split
  · exact h
  · split
    · exact h
    · exact .ite (h.feedAppend ..) h

theorem RowFrame.feedTake (h : RowFrame s t) (core : Nat) (o : Offer) : RowFrame s (feedTake t core o) := by
  unfold Machine.feedTake
  dsimp only
  split
  · exact h.feedGap _
  · exact .ite ((h.feedGap _).feedAppend ..) ((h.feedGap _).setCore ..)

theorem RowFrame.withOffers (h : RowFrame s t) (l : List Offer) : RowFrame s { t with offers := l } := h.same rfl

theorem RowFrame.takeOffer (h : RowFrame s t) (d : Dest) : RowFrame s (takeOffer t d) := by
  unfold Machine.takeOffer
  refine .ite h ?_
  split
  · exact h
  · cases d with
    | ring f n => exact (h.withOffers _).ringTake ..
    | feed c => exact (h.withOffers _).feedTake ..

theorem RowFrame.ringDeclineTimeout (h : RowFrame s t) (d : Dest) : RowFrame s (ringDeclineTimeout t d) := by
  unfold Machine.ringDeclineTimeout
  split
  · exact (h.withOffers _).ringDecline ..
  · exact h

theorem RowFrame.ringCoalesce (h : RowFrame s t) (f : Fn) (n : Nat) : RowFrame s (ringCoalesce t f n) := by
  unfold Machine.ringCoalesce
  dsimp only
  split
  · exact .ite ((h.setRing ..).sendVector ..) h
  · exact h

end

/-! ### The events -/

section
variable {s t : State}

theorem friezeRowProcess_frame {bad : List (Nat × Nat × Nat)} {res : List (Nat × Nat × Nat × Nat)}
    (e : execFriezeRowProcess bad res s = .next t) : RowFrame s t := by
  have h := RowFrame.refl s
  have taken : ∀ x : Intake, RowFrame s { s with intake := x } := fun _ => h.same rfl
  cases e
  refine .ite h ?_
  split
  · exact h.dueSwitch _
  · refine .foldl (.foldl (.ite (.noteExpiry ?_ _) ?_) fun _ _ hu => hu.noteResidue _) fun _ _ hu => hu.prodRow ..
    · exact (taken _).dueSwitch _
    · exact (taken _).dueSwitch _

theorem delaySwapCopyDone_frame (e : execDelaySwapCopyDone s = .next t) : RowFrame s t := by
  have h := RowFrame.refl s
  cases e
  split
  · refine .ite h ?_
    dsimp only
    split
    · split
      · exact .setQp (((h.putEntries ..).withFrieze _).withFrieze _) ..
      · exact .setQp ((h.withFrieze _).withFrieze _) ..
    · split
      · exact (h.putEntries ..).withFrieze _
      · exact h.withFrieze _
  · exact h

theorem gainAreaReleased_frame {pid : Nat} (e : execGainAreaReleased pid s = .next t) : RowFrame s t := by
  have h := RowFrame.refl s
  have freed : ∀ x : Hbm, RowFrame s { s with hbm := x } := fun _ => h.same rfl
  cases e
  split
  · split
    · exact .ite (.followEntry (.setFzProd (freed _) _) ..) h
    · exact h
  · exact h

theorem psumRecordRx_frame {group : Nat} {serial : U32} {record : List Byte}
    (e : execPsumRecordRx group serial record s = .next t) : RowFrame s t := by
  have h := RowFrame.refl s
  cases e
  refine .ite h ?_
  split
  · exact (h.foldl fun _ _ hu => hu.takePartial ..).emitBeams _
  · exact h.withFrieze _

theorem importWindowExpiry_frame {pid : Nat} (e : execImportWindowExpiry pid s = .next t) : RowFrame s t := by
  have h := RowFrame.refl s
  cases e
  split
  · split
    · exact h
    · exact .emitBeams (.withFrieze (.foldl (h.setFzProd _) fun _ _ hu => hu.passRow ..) _) _
  · exact h

theorem chainRowProcess_frame {i : Fin 64} {res : List (Nat × Nat)} (e : execChainRowProcess i res s = .next t) :
    RowFrame s t := by
  have h := RowFrame.refl s
  cases e
  refine .ite h ?_
  dsimp only
  split
  · exact h.takeRow ..
  · exact .ite (h.takeRow ..) (h.setChain ..)

end

/-- An event of the Frieze rows, the chains or record delivery leaves these parts. -/
theorem rowEvent_frame {c : Instr} {s t : State} (hc : rowEvent c = true) (e : exec c s = .next t) : RowFrame s t := by
  have h := RowFrame.refl s
  cases c
  case friezeRowProcess => exact friezeRowProcess_frame e
  case delaySwapCopyDone => exact delaySwapCopyDone_frame e
  case gainAreaReleased => exact gainAreaReleased_frame e
  case psumRecordRx => exact psumRecordRx_frame e
  case importWindowExpiry => exact importWindowExpiry_frame e
  case chainRowProcess => exact chainRowProcess_frame e
  case detectIntervalEnd => cases e; exact .ite h (h.decideNext _)
  case captureCopyDone => cases e; exact .ite h (h.sendCapture _)
  case ringRecordOffer => cases e; exact h.takeOffer _
  case ringDeclineTimeout => cases e; exact h.ringDeclineTimeout _
  case ringCoalesceTimeout => cases e; exact h.ringCoalesce ..
  all_goals cases hc

/-- Settles O58: each function that a row event calls changes none of these parts. -/
theorem rowEventFrame : Obligations.RowEventFrame := by
  unfold Obligations.RowEventFrame
  intro c s t hc e
  have h := (rowEvent_frame hc e).units_eq
  simp only [rowUnits, Prod.mk.injEq] at h
  obtain ⟨⟨fresh, latches, hold, pending⟩, ⟨maps, corrs, relief, istore⟩, plinth, clock, dma, boot, power, role⟩ := h
  exact ⟨fresh, latches, maps, corrs, relief, istore, plinth, clock, dma, boot, power, hold, pending, role⟩
end Sys2Proof.Machine

/-! # The lanes (O13, O37, O38, O53) -/

namespace Sys2Proof.Machine
open Sys2Proof.Safety

/-! ### What the lane operations leave -/

/-- The die beside its lanes: their registers, the trims, the host side, the error log and the emissions are put aside. -/
def besideLanes (s : State) : State :=
  { s with out := [], link := Reset.link, err := Reset.err, trims := Reset.trims,
           osl := { s.osl with lanes := Reset.osl.lanes } }

theorem eq_of_besideLanes {s t : State} {α : Type} (f : State → α) (h : besideLanes t = besideLanes s) :
    f (besideLanes t) = f (besideLanes s) := congrArg f h

section
variable (s : State) (l : Nat)

@[simp] theorem setLane_besideLanes (x : Lane) : besideLanes (s.setLane l x) = besideLanes s := rfl

@[simp] theorem setLaneTrim_besideLanes (x : LaneTrim) : besideLanes (s.setLaneTrim l x) = besideLanes s := rfl

@[simp] theorem withTrims_besideLanes (x : Trims) : besideLanes { s with trims := x } = besideLanes s := rfl

@[simp] theorem raise_besideLanes (k : U16) (cls : Cls) (w : World) (r d : Nat) :
    besideLanes (raise s k cls w r d) = besideLanes s := by
  have h := (SameData.refl s).raise k cls w r d
  have hb : (raise s k cls w r d).boot = s.boot := logRecord_boot ..
  have hp : (raise s k cls w r d).pair = s.pair := logRecord_pair ..
  simp only [besideLanes, h.fresh, h.latches, h.commitHold, h.world, h.products, h.intake, h.maps, h.corrs, h.relief, h.istore,
    h.offers, h.hbm, h.osl, h.plinth, h.net, h.clock, h.dma, h.power, h.frieze, h.chisel, h.gloss, h.pending, hb, hp]

/-! Trim runs -/

@[simp] theorem startTrim_besideLanes (b : Bool) : besideLanes (startTrim s l b) = besideLanes s := rfl

@[simp] theorem dropTrim_besideLanes : besideLanes (dropTrim s l) = besideLanes s := by
  unfold dropTrim
  dsimp only
  split <;> rfl

@[simp] theorem loseTrims_besideLanes : besideLanes (loseTrims s l) = besideLanes s := dropTrim_besideLanes s l

@[simp] theorem endTrim_besideLanes (t : LaneTrim) : besideLanes (endTrim s l t) = besideLanes s := rfl

@[simp] theorem nextValue_besideLanes (t : LaneTrim) (r : TrimRun) : besideLanes (nextValue s l t r) = besideLanes s := by
  unfold nextValue
  split <;> rfl

@[simp] theorem trialStep_besideLanes (t : LaneTrim) (r : TrimRun) : besideLanes (trialStep s l t r) = besideLanes s := by
  unfold trialStep
  dsimp only
  split
  · rfl
  · split
    · exact nextValue_besideLanes ..
    · split
      · rfl
      · exact nextValue_besideLanes ..

@[simp] theorem trialWorse_besideLanes (t : LaneTrim) (r : TrimRun) : besideLanes (trialWorse s l t r) = besideLanes s := by
  unfold trialWorse
  split
  · exact nextValue_besideLanes ..
  · exact trialStep_besideLanes ..

@[simp] theorem trimWindow_besideLanes (count : Nat) : besideLanes (trimWindow s l count) = besideLanes s := by
  unfold trimWindow
  dsimp only
  split
  · rfl
  · split
    · exact trialStep_besideLanes ..
    · split
      · exact trialStep_besideLanes ..
      · exact trialWorse_besideLanes ..

/-! Bring-up and sleep -/

@[simp] theorem rxStart_besideLanes : besideLanes (rxStart s l) = besideLanes s := rfl

@[simp] theorem rxDefine_besideLanes : besideLanes (rxDefine s l) = besideLanes s := rfl

@[simp] theorem txStart_besideLanes : besideLanes (txStart s l) = besideLanes s := rfl

@[simp] theorem txDefine_besideLanes : besideLanes (txDefine s l) = besideLanes s := by
  unfold txDefine
  dsimp only
  split <;> rfl

@[simp] theorem startSearch_besideLanes : besideLanes (startSearch s l) = besideLanes s := rfl

@[simp] theorem startAdapt_besideLanes : besideLanes (startAdapt s l) = besideLanes s := by
  unfold startAdapt
  dsimp only
  rw [startTrim_besideLanes, setLane_besideLanes, setLaneTrim_besideLanes]

@[simp] theorem rxEnter_besideLanes (k : Nat) : besideLanes (rxEnter s l k) = besideLanes s := by
  unfold rxEnter
  split
  · exact loseTrims_besideLanes s l
  · exact dropTrim_besideLanes s l

@[simp] theorem txEnter_besideLanes (k : Nat) : besideLanes (txEnter s l k) = besideLanes s := rfl

@[simp] theorem rxWake_besideLanes : besideLanes (rxWake s l) = besideLanes s := by
  unfold rxWake
  split
  · dsimp only
    split
    · rw [startTrim_besideLanes, startSearch_besideLanes, setLane_besideLanes]
    · rw [startSearch_besideLanes, setLane_besideLanes]
  · exact rxStart_besideLanes s l
  · exact rxStart_besideLanes s l
  · rfl

@[simp] theorem rxAdvance_besideLanes : besideLanes (rxAdvance s l).1 = besideLanes s := by
  have woken : besideLanes (if rxAsleep (s.lane l) then rxWake s l else s) = besideLanes s := by
    split
    · exact rxWake_besideLanes s l
    · rfl
  unfold rxAdvance
  split
  · rfl
  · dsimp only
    generalize (if rxAsleep (s.lane l) then rxWake s l else s) = s1 at woken ⊢
    split <;> exact woken
  · split
    · exact rxEnter_besideLanes ..
    · rfl

@[simp] theorem txAdvance_besideLanes : besideLanes (txAdvance s l).1 = besideLanes s := by
  unfold txAdvance
  dsimp only
  split
  · rfl
  · split
    · split <;> rfl
    · split <;> rfl
  · split
    · rfl
    · split
      · split <;> rfl
      · rfl

@[simp] theorem rxSettle_besideLanes : besideLanes (rxSettle s l) = besideLanes s :=
  foldl_keeps besideLanes _ (fun t _ => rxAdvance_besideLanes t l) _ s

@[simp] theorem txSettle_besideLanes : besideLanes (txSettle s l) = besideLanes s :=
  foldl_keeps besideLanes _ (fun t _ => txAdvance_besideLanes t l) _ s

@[simp] theorem laneOff_besideLanes (d : Nat) : besideLanes (laneOff s d l) = besideLanes s := by
  unfold laneOff
  dsimp only
  split
  · exact rxEnter_besideLanes s l 3
  · split <;> rfl

/-! Search, lock and windows -/

theorem attemptFailed_besideLanes : besideLanes (attemptFailed s l) = besideLanes s := by
  unfold attemptFailed
  dsimp only
  rw [rxSettle_besideLanes]
  split
  · exact raise_besideLanes ..
  · rfl

theorem bringupTimeout_besideLanes : besideLanes (bringupTimeout s l) = besideLanes s := by
  unfold bringupTimeout
  dsimp only
  split
  · rw [attemptFailed_besideLanes, dropTrim_besideLanes]
  · rfl

theorem bringupRetry_besideLanes : besideLanes (bringupRetry s l) = besideLanes s := by
  unfold bringupRetry
  dsimp only
  split
  · rfl
  · split <;> rfl

theorem stageDone_besideLanes (tx : Bool) : besideLanes (stageDone s l tx) = besideLanes s := by
  unfold stageDone
  dsimp only
  split
  · split
    · rw [txSettle_besideLanes, setLane_besideLanes]
    · rfl
  · split
    · rfl
    · split
      · rfl
      · exact startAdapt_besideLanes s l
      · split <;> rfl
      · rfl

theorem nextHypothesis_besideLanes : besideLanes (nextHypothesis s l) = besideLanes s := by
  unfold nextHypothesis
  dsimp only
  split <;> rfl

theorem frameLock_besideLanes : besideLanes (frameLock s l) = besideLanes s := by
  unfold frameLock
  dsimp only
  split
  · rw [rxSettle_besideLanes, setLane_besideLanes]
  · rfl

theorem leaveLock_besideLanes : besideLanes (leaveLock s l) = besideLanes s := by
  unfold leaveLock
  dsimp only
  split
  · rw [startAdapt_besideLanes, dropTrim_besideLanes, setLane_besideLanes]
  · rfl

theorem lockLoss_besideLanes : besideLanes (lockLoss s l) = besideLanes s := by
  unfold lockLoss
  dsimp only
  split
  · rfl
  · split
    · exact leaveLock_besideLanes s l
    · rw [leaveLock_besideLanes, raise_besideLanes, setLane_besideLanes]

theorem windowEnd_besideLanes : besideLanes (windowEnd s l) = besideLanes s := by
  unfold windowEnd
  dsimp only
  split
  · rfl
  · split
    · rw [raise_besideLanes, setLane_besideLanes]
    · rfl

theorem precodeSwitch_besideLanes : besideLanes (precodeSwitch s l) = besideLanes s := by
  unfold precodeSwitch
  dsimp only
  split <;> rfl

end

/-- A lane event changes nothing beside the lanes. -/
theorem laneEvent_besideLanes {c : Instr} {s t : State} (hc : laneEvent c = true) (e : exec c s = .next t) :
    besideLanes t = besideLanes s := by
  cases c
  case frameLock l => cases e; exact frameLock_besideLanes s l
  case lockLoss l => cases e; exact lockLoss_besideLanes s l
  case markerHypothesisTimeout l => cases e; exact nextHypothesis_besideLanes s l
  case fecWindowEnd l => cases e; exact windowEnd_besideLanes s l
  case bringupStepTimeout l => cases e; exact bringupTimeout_besideLanes s l
  case bringupRetry l => cases e; exact bringupRetry_besideLanes s l
  case bringupStageDone l tx => cases e; exact stageDone_besideLanes s l tx
  case txSleepEnter l =>
    cases e
    split
    · exact txSettle_besideLanes s l
    · rfl
  case precodeSwitch l => cases e; exact precodeSwitch_besideLanes s l
  case laneTrimWindowEnd l count => cases e; exact trimWindow_besideLanes s l count
  all_goals cases hc

/-- Settles O53: each field is one of the die beside the lanes. -/
theorem laneEventFrame : Obligations.LaneEventFrame := by
  unfold Obligations.LaneEventFrame
  intro c s t hc e
  have kept {α : Type} (f : State → α) := eq_of_besideLanes f (laneEvent_besideLanes hc e)
  exact ⟨kept State.fresh, kept State.latches, kept State.world, kept State.products, kept State.intake, kept State.maps,
    kept State.corrs, kept State.relief, kept State.istore, kept State.offers, kept State.hbm, kept State.pair,
    kept State.plinth, kept State.net, kept State.clock, kept State.dma, kept State.boot, kept State.power,
    kept State.frieze, kept State.chisel, kept State.gloss, kept State.commitHold, kept State.pending⟩

end Sys2Proof.Machine

/-! ## The LANE Clauses and DIAG_LOOPBACK (O13) -/

namespace Sys2Proof.Machine
open Sys2Proof.Safety

/-- The groups of a direction: 0 receive, 1 transmit. -/
def groupsOf (s : State) (dir : Nat) : List LaneGroup := if dir = 0 then s.osl.rxGroups else s.osl.txGroups

section
variable {s t u : State} {f : Fn} {first code dir k mode enable egress : Nat} {threshold : U32} {r : Reply} {g : LaneGroup}

theorem groupsOf_besideLanes (h : besideLanes t = besideLanes s) : groupsOf t dir = groupsOf s dir :=
  eq_of_besideLanes (groupsOf · dir) h

theorem groupsOf_same (h : SameData s t) : groupsOf t dir = groupsOf s dir := by
  unfold groupsOf
  rw [h.osl]

/-- One change of the state of every lane of a list. -/
theorem foldl_setLane_lane {α : Type} (p : Lane → α) {v : α} {c : Lane → Lane} (hc : ∀ x, p (c x) = v)
    {ls : List Nat} {n : Nat}
    (hn : n ∈ ls) (hl : n < 52) (s : State) : p ((ls.foldl (fun t l => t.setLane l (c (t.lane l))) s).lane n) = v := by
  refine foldl_sets (fun t n => p (t.lane n)) v _ (fun t n h => ?_) (fun t k n h => ?_) ls s n hn hl
  · rw [State.setLane_lane_self _ _ _ h, hc]
  · rw [State.setLane_lane_ne _ _ _ _ h]

/-! ### What an accepted body answers -/

theorem laneDefine_ok (h : laneDefine s f first code dir = .ok (u, r)) : r.wait.isSome = true ∧
    ∃ g ∈ groupsOf u dir, g.first = first ∧ g.code = code ∧ g.world = worldOf f := by
  simp only [laneDefine, except_bind_ok, exists_unit, waits_ok] at h
  obtain ⟨-, -, -, -, -, -, rfl, rfl⟩ := h
  refine ⟨rfl, { first := first, code := code, world := worldOf f, bondReported := false, up := false }, ?_, rfl, rfl, rfl⟩
  rw [groupsOf_besideLanes (foldl_keeps besideLanes _ (fun t l => ?_) _ _)]
  · unfold groupsOf
    by_cases hd : dir = 0 <;> simp [hd]
  · split
    · exact rxDefine_besideLanes t l
    · exact txDefine_besideLanes t l

theorem laneRelease_ok (h : laneRelease s f first dir = .ok (u, r)) : ∀ g ∈ groupsOf u dir, g.first ≠ first := by
  simp only [laneRelease, except_bind_ok, exists_unit, done_ok] at h
  obtain ⟨g, -, -, -, -, rfl, rfl⟩ := h
  rw [groupsOf_besideLanes (foldl_keeps besideLanes _ (fun t l => laneOff_besideLanes t l dir) _ _)]
  unfold groupsOf
  by_cases hd : dir = 0 <;> simp [hd]

theorem laneTxPrecode_ok (h : laneTxPrecode s f first enable = .ok (u, r)) (hg : findGroup s 1 first = some g) :
    ∀ l ∈ groupLaneList g, l < 52 → (u.lane l).precodeSwitch = some (enable == 1, 16) := by
  simp only [laneTxPrecode, except_bind_ok, exists_unit, done_ok] at h
  obtain ⟨g', hn, -, -, rfl, -⟩ := h
  cases hg.symm.trans (namedGroup_ok hn)
  exact fun l hm hl => foldl_setLane_lane Lane.precodeSwitch (c := ({ · with precodeSwitch := some (enable == 1, 16) }))
    (fun _ => rfl) hm hl s

theorem setThreshold_next (x : Lane) (v : U32) : (setThreshold x v).nextThreshold.getD (setThreshold x v).threshold = v := by
  unfold setThreshold
  split <;> rfl

theorem laneThresholds_ok (h : laneThresholds s f first threshold = .ok (u, r)) (hg : findGroup s 0 first = some g) :
    ∀ l ∈ groupLaneList g, l < 52 → (u.lane l).nextThreshold.getD (u.lane l).threshold = threshold := by
  simp only [laneThresholds, except_bind_ok, exists_unit, done_ok] at h
  obtain ⟨g', hn, -, -, rfl, -⟩ := h
  cases hg.symm.trans (namedGroup_ok hn)
  exact fun l hm hl => foldl_setLane_lane (fun x => x.nextThreshold.getD x.threshold) (c := (setThreshold · threshold))
    (setThreshold_next · threshold) hm hl s

theorem laneEgressBind_ok (h : laneEgressBind s f first egress = .ok (u, r)) (he : egress < 256) :
    (vget u.osl.egress egress Reset.egress).group = some first := by
  simp only [laneEgressBind, except_bind_ok, exists_unit] at h
  obtain ⟨g, -, -, -, -, h⟩ := h
  split at h
  · obtain ⟨rfl, -⟩ := done_ok.mp h
    simp [vget_vset_self, he]
  · obtain ⟨rfl, -⟩ := deferred_ok.mp h
    simp [vget_vset_self, he]

theorem diagLoopback_ok (h : diagLoopback s f first dir mode = .ok (u, r)) (hm : mode ≠ 0)
    (hg : findGroup s dir first = some g) : ∀ l ∈ groupLaneList g, l < 52 → (u.lane l).loopback = mode := by
  simp only [diagLoopback, except_bind_ok, exists_unit, if_neg hm, done_ok] at h
  obtain ⟨g', hn, -, -, -, rfl, -⟩ := h
  cases hg.symm.trans (namedGroup_ok hn)
  exact fun l hl hn => foldl_setLane_lane Lane.loopback (c := ({ · with loopback := mode })) (fun _ => rfl) hl hn s

end

/-- Settles O13: an accepted Clause ends in the answer to what its body made. -/
theorem laneClausesComplete : Obligations.LaneClausesComplete := by
  unfold Obligations.LaneClausesComplete
  refine ⟨fun src first code dir s hs ha => ?_, fun src first dir s hs ha => ?_, fun src first dir state s hs ha => ?_,
    fun src first dir s hs ha => ?_, fun src first enable s hs ha => ?_, fun src first threshold s hs ha => ?_,
    fun src first egress s hs ha => ?_, fun src first dir mode s hs ha hm => ?_⟩
  · unfold exec execLaneGroupDefine
    refine clause_done rfl hs ha fun u r hb k => ?_
    obtain ⟨hw, hg⟩ := laneDefine_ok hb
    rw [← groupsOf_same k] at hg
    exact ⟨hg, answered_waits hw⟩
  · unfold exec execLaneGroupRelease
    refine clause_done rfl hs ha fun u r hb k => ?_
    have hg := laneRelease_ok hb
    rwa [← groupsOf_same k] at hg
  · unfold exec execLaneSleep
    exact clause_done rfl hs ha fun u r hb _ => answered_waits (transition_waits hb)
  · unfold exec execLaneWake
    exact clause_done rfl hs ha fun u r hb _ => answered_waits (transition_waits hb)
  · unfold exec execLaneTxPrecode
    refine clause_done rfl hs ha fun u r hb k g hg l hm hl => ?_
    rw [lane_congr k.osl]
    exact laneTxPrecode_ok hb ((findGroup_untake ..).trans hg) l hm hl
  · unfold exec execLaneSetThresholds
    refine clause_done rfl hs ha fun u r hb k g hg l hm hl => ?_
    rw [lane_congr k.osl]
    exact laneThresholds_ok hb ((findGroup_untake ..).trans hg) l hm hl
  · unfold exec execLaneEgressBind
    refine clause_done rfl hs ha fun u r hb k => ?_
    rw [k.osl]
    exact laneEgressBind_ok hb egress.isLt
  · unfold exec execDiagLoopback
    refine clause_done rfl hs ha fun u r hb k g hg l hl hn => ?_
    rw [lane_congr k.osl]
    exact diagLoopback_ok hb hm ((findGroup_untake ..).trans hg) l hl hn

end Sys2Proof.Machine

/-! ## The events of a receive lane (O37) -/

namespace Sys2Proof.Machine
open Sys2Proof.Safety

section
variable {s t : State} {l : Nat}

theorem raise_osl (s : State) (k : U16) (cls : Cls) (w : World) (r d : Nat) : (raise s k cls w r d).osl = s.osl :=
  ((SameData.refl s).raise ..).osl

theorem raise_trims (s : State) (k : U16) (cls : Cls) (w : World) (r d : Nat) : (raise s k cls w r d).trims = s.trims :=
  ((SameData.refl s).raise ..).trims

theorem raise_lane (s : State) (k : U16) (cls : Cls) (w : World) (r d j : Nat) : (raise s k cls w r d).lane j = s.lane j :=
  lane_congr (raise_osl ..) j

theorem rxGroupOf_besideLanes (h : besideLanes t = besideLanes s) : rxGroupOf t l = rxGroupOf s l :=
  eq_of_besideLanes (rxGroupOf · l) h

theorem dropTrim_none (h : (s.laneTrim l).run = none) : dropTrim s l = s := by
  unfold dropTrim
  dsimp only
  rw [h]

/-! ### Where nothing is due -/

theorem frameLock_idle (h : ¬ ((s.lane l).rx = .search ∧ 4 ≤ (s.lane l).markers)) : frameLock s l = s :=
  if_neg fun ⟨hr, _, _, hm⟩ => h ⟨hr, hm⟩

theorem lockLoss_idle (h : dropDue (s.lane l) = false) : lockLoss s l = s := if_pos (by rw [h]; rfl)

theorem windowEnd_idle (h : (s.lane l).winFrames < 4096) : windowEnd s l = s := if_pos h

/-- Nothing fell due on the lane before this frame. -/
theorem rxDue_idle (hf : ¬ ((s.lane l).rx = .search ∧ 4 ≤ (s.lane l).markers)) (ht : (s.lane l).tried < 64)
    (hd : dropDue (s.lane l) = false) (hw : (s.lane l).winFrames < 4096) : rxDue s l = s := by
  unfold rxDue
  dsimp only
  rw [frameLock_idle hf, if_neg (by omega), lockLoss_idle hd, windowEnd_idle hw]

/-! ### Frames -/

theorem execOslFrameRx_noLoopback {l : Fin 52} {levels : List (BitVec 2)} (hr : s.power.inReset = false)
    (hl : (s.lane l.val).loopback = 0) : execOslFrameRx l levels s = .next (rxFrame s l.val levels) := by
  unfold execOslFrameRx
  rw [if_neg (by simp [hr]), hl]
  rfl

section
variable {levels : List (BitVec 2)} (hl : l < 52) (hdue : rxDue s l = s) (hretry : (s.lane l).retryDue = false)
include hl hdue hretry

theorem rxFrame_search (hx : (s.lane l).rx = .search) (hk : (s.lane l).locked = false) :
    rxFrame s l levels = s.setLane l { s.lane l with
      rxPrev := levels.getLastD (s.lane l).rxPrev, tried := (s.lane l).tried + 1,
      markers := if markerSeen (lineBits (s.lane l).hyp (s.lane l).rxPrev levels) then (s.lane l).markers + 1 else 0 } := by
  unfold rxFrame
  dsimp only
  rw [hdue, if_neg (by simp [hx, hretry]), if_pos (by simp [hk])]
  unfold searchFrame
  dsimp only
  rw [State.setLane_lane_self _ _ _ hl, setLane_setLane]

omit hl in
theorem rxFrame_locked (hx : (s.lane l).rx = .up) (hk : (s.lane l).locked = true) (hn : levels.length = 13600) :
    rxFrame s l levels = lockedFrame (s.setLane l { s.lane l with rxPrev := levels.getLastD (s.lane l).rxPrev }) l
      (decodeFrame (lineBits (s.lane l).hyp (s.lane l).rxPrev levels)) := by
  unfold rxFrame
  dsimp only
  rw [hdue, if_neg (by simp [hx, hretry]), if_neg (by simp [hk]), if_pos hn]

end

/-! ### Lock and its loss -/

theorem frameLock_locks (hl : l < 52) (ho : (s.lane l).rxOps = []) (hx : (s.lane l).rx = .search)
    (hk : (s.lane l).locked = false) (hr : (s.lane l).retryDue = false) (hm : 4 ≤ (s.lane l).markers) : frameLock s l = s.setLane l { s.lane l with
      locked := true, markers := 0, misses := 0, history := [], disagree := 0, polInv := hypInv (s.lane l).hyp,
      precode := hypPre (s.lane l).hyp, lastHyp := some (s.lane l).hyp, peerSleep := false, fails := 0, noLock := false } := by
  unfold frameLock
  dsimp only
  rw [if_pos (by simp [hx, hk, hr, hm]), rxSettle_none]
  rw [State.setLane_lane_self _ _ _ hl, ho]

theorem startSearch_setLane (hl : l < 52) (x : Lane) :
    startSearch (s.setLane l x) l = s.setLane l { unlocked x with rx := .search, hyp := x.lastHyp.getD 0 } := by
  unfold startSearch
  dsimp only
  rw [State.setLane_lane_self _ _ _ hl, setLane_setLane]

/-- Without a trim run a lane that leaves lock goes to marker search. -/
theorem leaveLock_noRun (hl : l < 52) (hn : (s.laneTrim l).run = none) : leaveLock s l = s.setLane l { unlocked (s.lane l) with
    rx := .search, hyp := (s.lane l).lastHyp.getD 0, fails := 0, member := none,
    degLoss := (s.lane l).degLoss || (rxGroupOf s l).any LaneGroup.up } := by
  unfold leaveLock
  dsimp only
  rw [if_neg (by rw [State.laneTrim_congr (State.setLane_trims ..), hn]; decide), startSearch_setLane hl]
  rfl

theorem lockLoss_drops (hl : l < 52) (hd : dropDue (s.lane l) = true) (hp : (s.lane l).peerSleep = false)
    (hn : (s.laneTrim l).run = none) :
    (lockLoss s l).lane l = { unlocked (s.lane l) with
      rx := .search, hyp := (s.lane l).lastHyp.getD 0, fails := 0, member := none,
      degLoss := (s.lane l).degLoss || (rxGroupOf s l).any LaneGroup.up, lockLoss := (s.lane l).lockLoss + 1 } ∧
    (lockLoss s l).trims = s.trims := by
  unfold lockLoss
  dsimp only
  rw [if_neg (by simp [hd]), if_neg (by simp [hp])]
  rw [leaveLock_noRun hl (by rw [State.laneTrim_congr (raise_trims ..), State.laneTrim_congr (State.setLane_trims ..), hn])]
  rw [rxGroupOf_besideLanes ((raise_besideLanes ..).trans (setLane_besideLanes ..)), raise_lane,
    State.setLane_lane_self _ _ _ hl, State.setLane_lane_self _ _ _ hl]
  exact ⟨rfl, raise_trims ..⟩

/-! ### Windows and retries -/

theorem windowEnd_osl (hw : 4096 ≤ (s.lane l).winFrames) : (windowEnd s l).osl = (s.setLane l { s.lane l with
    peak := min 15 (s.lane l).winPeak,
    degWindow := decide ((s.lane l).threshold.toNat < (s.lane l).winSyms) ||
      ((s.lane l).degWindow && decide ((s.lane l).threshold.toNat < 2 * (s.lane l).winSyms)),
    threshold := (s.lane l).nextThreshold.getD (s.lane l).threshold, nextThreshold := none, winFrames := 0, winSyms := 0,
    winPeak := 0 }).osl := by
  have hc : (!decide (2 * (s.lane l).winSyms ≤ (s.lane l).threshold.toNat)) =
      decide ((s.lane l).threshold.toNat < 2 * (s.lane l).winSyms) := by
    rw [← decide_not, decide_eq_decide, Nat.not_le]
  unfold windowEnd
  dsimp only
  rw [if_neg (by omega), hc]
  split
  · exact raise_osl ..
  · rfl

theorem attemptFailed_lane (hl : l < 52) (ho : (s.lane l).rxOps = []) :
    (∃ b, (attemptFailed s l).lane l = { unlocked (s.lane l) with
      fails := (s.lane l).fails + 1, retryDue := true, noLock := b }) ∧ (attemptFailed s l).trims = s.trims := by
  unfold attemptFailed
  extract_lets x tell _ s1
  have h1 : s1.lane l = { unlocked x with fails := x.fails + 1, retryDue := true, noLock := x.noLock || tell } :=
    State.setLane_lane_self _ _ _ hl
  have h2 : (if tell then raise s1 0x0103 .l (rxWorld s l) l 0 else s1).lane l = s1.lane l ∧
      (if tell then raise s1 0x0103 .l (rxWorld s l) l 0 else s1).trims = s.trims := by
    split
    · exact ⟨raise_lane .., raise_trims ..⟩
    · exact ⟨rfl, rfl⟩
  rw [rxSettle_none _ _ (by rw [h2.1, h1]; exact ho), h2.1, h1]
  exact ⟨⟨_, rfl⟩, h2.2⟩

theorem bringupTimeout_lane (hl : l < 52) (ho : (s.lane l).rxOps = []) (hb : bringingUp (s.lane l) = true)
    (hr : (s.lane l).retryDue = false) (hn : (s.laneTrim l).run = none) :
    (∃ b, (bringupTimeout s l).lane l = { unlocked (s.lane l) with
      fails := (s.lane l).fails + 1, retryDue := true, noLock := b }) ∧ (bringupTimeout s l).trims = s.trims := by
  unfold bringupTimeout
  dsimp only
  rw [if_pos (by simp [hb, hr]), dropTrim_none hn]
  exact attemptFailed_lane hl ho

theorem bringupRetry_cdr (hl : l < 52) (hr : (s.lane l).retryDue = true) (hb : (s.lane l).bondRetry = false) :
    bringupRetry s l = s.setLane l { unlocked (s.lane l) with rx := .cdr, retryDue := false, bondRetry := false } := by
  unfold bringupRetry
  dsimp only
  rw [if_neg (by simp [hr]), if_neg (by simp [hb]), State.setLane_lane_self _ _ _ hl, setLane_setLane]
  rfl

theorem bringupRetry_search (hl : l < 52) (hr : (s.lane l).retryDue = true) (hb : (s.lane l).bondRetry = true) :
    bringupRetry s l = s.setLane l { unlocked (s.lane l) with
      rx := .search, hyp := (s.lane l).lastHyp.getD 0, retryDue := false, bondRetry := false } := by
  unfold bringupRetry
  dsimp only
  rw [if_neg (by simp [hr]), if_pos hb, startSearch_setLane hl]
  rfl

theorem stageDone_pll (hx : (s.lane l).rx = .pll) (hr : (s.lane l).retryDue = false) :
    stageDone s l false = s.setLane l { s.lane l with rx := .cdr } := by
  unfold stageDone
  dsimp only
  rw [if_neg (by decide), if_neg (by simp [hr]), hx]

end

/-- Settles O37: each event is its one branch under the statement's conditions. -/
theorem laneReceiveEvents : Obligations.LaneReceiveEvents := by
  unfold Obligations.LaneReceiveEvents
  rintro l s x rfl ho
  refine ⟨fun levels hs hb hx hk hr ht hm hw => ?_, fun levels hs hb hx hk hr ht hd hw hn => ?_, fun hx hk hr hm => ?_,
    fun hx hd hp hn => ?_, fun hx hk hr => ?_, fun hw => ?_, fun hb hr hn => ?_, fun hr hb => ?_, fun hr hb => ?_,
    fun hx hr => ?_⟩
  · refine (execOslFrameRx_noLoopback hs hb).trans (congrArg _ (rxFrame_search l.isLt ?_ hr hx hk))
    exact rxDue_idle (fun h => by omega) ht (by simp [dropDue, hk]) hw
  · refine (execOslFrameRx_noLoopback hs hb).trans (congrArg _ (rxFrame_locked ?_ hr hx hk hn))
    exact rxDue_idle (fun h => by simp [hx] at h) ht hd hw
  · exact congrArg Host.Outcome.next (frameLock_locks l.isLt ho hx hk hr hm)
  · obtain ⟨hlane, htrims⟩ := lockLoss_drops l.isLt hd hp hn
    refine ⟨_, rfl, ?_, ?_, ?_, ?_, ?_, htrims, eq_of_besideLanes State.hbm (lockLoss_besideLanes s l)⟩ <;> rw [hlane]
    rfl
  · exact congrArg Host.Outcome.next (if_pos (by simp [hx, hk, hr]))
  · exact ⟨_, rfl, windowEnd_osl hw, eq_of_besideLanes State.hbm (windowEnd_besideLanes s l),
      eq_of_besideLanes State.intake (windowEnd_besideLanes s l)⟩
  · obtain ⟨⟨b, hlane⟩, htrims⟩ := bringupTimeout_lane l.isLt ho hb hr hn
    refine ⟨_, rfl, ?_, ?_, ?_, ?_, ?_, htrims⟩ <;> rw [hlane] <;> rfl
  · refine ⟨_, congrArg Host.Outcome.next (bringupRetry_cdr l.isLt hr hb), ?_⟩
    rw [State.setLane_lane_self _ _ _ l.isLt]
    exact ⟨rfl, rfl, rfl, rfl⟩
  · refine ⟨_, congrArg Host.Outcome.next (bringupRetry_search l.isLt hr hb), ?_⟩
    rw [State.setLane_lane_self _ _ _ l.isLt]
    exact ⟨rfl, rfl, rfl, rfl⟩
  · exact congrArg Host.Outcome.next (stageDone_pll hx hr)

end Sys2Proof.Machine

/-! ## The events of a transmit lane, the skew window and a silent stream (O38) -/

namespace Sys2Proof.Machine
open Sys2Proof.Safety

section
variable {s : State} {l : Nat}

/-! ### The frame slot -/

theorem stageDone_txPll (hl : l < 52) (hx : (s.lane l).tx = .pll) (ho : (s.lane l).txOps = []) :
    stageDone s l true = s.setLane l { s.lane l with tx := .active } := by
  unfold stageDone
  dsimp only
  rw [if_pos rfl, if_pos hx, txSettle_none]
  rw [State.setLane_lane_self _ _ _ hl, ho]

theorem precodeSwitch_none (h : (s.lane l).precodeSwitch = none) : precodeSwitch s l = s := by
  unfold precodeSwitch
  dsimp only
  rw [h]

/-- Nothing fell due on the lane before this slot. -/
theorem txDue_idle (hp : (s.lane l).precodeSwitch = none) (hs : (s.lane l).txSleep = none) : txDue s l = s := by
  unfold txDue
  dsimp only
  rw [precodeSwitch_none hp, if_neg (by rw [hs]; nofun)]

section
variable {l : Fin 52} (hs : s.power.inReset = false) (hx : (s.lane l.val).tx = .active) (hb : (s.lane l.val).loopback = 0)
  (hz : (s.lane l.val).txSleep = none) (hp : (s.lane l.val).precodeSwitch = none)
include hs hx hb hz hp

/-- An active lane without loopback sends the frame of its slot. -/
theorem execTxFrameSlot_sends :
    execTxFrameSlot l s = .next (sendFrame (slotFrame s l.val).2 l.val (slotFrame s l.val).1) := by
  unfold execTxFrameSlot txSlot
  rw [if_neg (by simp [hs])]
  dsimp only
  rw [txDue_idle hp hz, if_neg (by simp [hx, hb])]

omit hs hx hb in
/-- A lane that owes nothing takes its ready frame, or else an IDLE frame. -/
theorem slotFrame_free (hi : (s.lane l.val).idleOwed = 0) (hl : l.val < 48) :
    slotFrame s l.val = (takeReady s l.val).getD (idleFrame none, s) := by
  unfold slotFrame
  dsimp only
  rw [if_neg (by omega), if_neg (by simp [idleOwed, hi, hp]), hz]
  cases takeReady s l.val <;> rfl

end

/-- A ready frame counts as sent, and taking it changes the list of ready frames alone. -/
theorem takeReady_keeps {f : TxFrame} {u : State} (h : takeReady s l = some (f, u)) :
    f.counted = true ∧ u = { s with osl := { s.osl with frames := u.osl.frames } } := by
  unfold takeReady at h
  split at h
  · cases h
  · split at h
    · cases h
    · split at h
      · cases h
        exact ⟨rfl, rfl⟩
      · cases h

/-! ### Sleep and precoding -/

theorem txAdvance_none (h : (s.lane l).txOps = []) : txAdvance s l = (s, false) := by
  unfold txAdvance
  dsimp only
  rw [h]

/-- The lane enters its sleep state after the last announced frame. -/
theorem txAdvance_announced (hl : l < 52) {k : Nat} {rest : List Nat} (hk : k ≠ 0) (hx : (s.lane l).tx = .active)
    (hz : (s.lane l).txSleep = some 0) (ho : (s.lane l).txOps = k :: rest) :
    (txAdvance s l).1 = s.setLane l { s.lane l with
      tx := if k = 1 then .l1 else if k = 2 then .l2 else .off, txSleep := none, txOps := rest,
      txDone := (s.lane l).txDone + 1 } := by
  unfold txAdvance
  dsimp only
  split
  · next h => cases ho.symm.trans h
  · next h => cases ho.symm.trans h; exact absurd rfl hk
  · next h =>
    cases ho.symm.trans h
    rw [if_neg (by simp [txAsleep, hx]), if_pos hx, hz]
    unfold txEnter
    dsimp only
    rw [State.setLane_lane_self _ _ _ hl, setLane_setLane]
    rfl

theorem txSettle_announced (hl : l < 52) {k : Nat} (hk : k ≠ 0) (hx : (s.lane l).tx = .active)
    (hz : (s.lane l).txSleep = some 0) (ho : (s.lane l).txOps = [k]) :
    txSettle s l = s.setLane l { s.lane l with
      tx := if k = 1 then .l1 else if k = 2 then .l2 else .off, txSleep := none, txOps := [],
      txDone := (s.lane l).txDone + 1 } := by
  unfold txSettle
  rw [ho]
  show (txAdvance (txAdvance s l).1 l).1 = _
  rw [txAdvance_announced hl hk hx hz ho, txAdvance_none]
  rw [State.setLane_lane_self _ _ _ hl]

end

/-! ### The release front -/

/-- The release front stands at the same row in two states. -/
structure SameFront (s t : State) : Prop where
  front : t.intake.front = s.intake.front

section
variable {s t u : State}

theorem SameFront.refl (s : State) : SameFront s s := ⟨rfl⟩

/-- An update that leaves the front. -/
theorem SameFront.same (h : SameFront s t) (e : u.intake.front = t.intake.front) : SameFront s u := ⟨e.trans h.front⟩

theorem SameFront.sent (h : SameFront s t) (k : Sent t u) : SameFront s u := h.same (by rw [k.intake])

theorem SameFront.ite {c : Prop} {_ : Decidable c} (a : SameFront s t) (b : SameFront s u) :
    SameFront s (if c then t else u) := by
  split <;> assumption

theorem SameFront.foldl {α : Type} {g : State → α → State} {l : List α} (h : SameFront s t)
    (hg : ∀ u x, SameFront s u → SameFront s (g u x)) : SameFront s (l.foldl g t) := by
  induction l generalizing t with
  | nil => exact h
  | cons x l ih => exact ih (hg t x h)

theorem SameFront.withIntake (h : SameFront s t) (x : Intake) (hx : x.front = t.intake.front := by rfl) :
    SameFront s { t with intake := x } := h.same hx

theorem SameFront.raiseProduct (h : SameFront s t) (k : U16) (pid det : Nat) (a : Affects) :
    SameFront s (raiseProduct t k pid det a) := h.sent ((Sent.refl t).raiseProduct ..)

theorem SameFront.raiseDev (h : SameFront s t) (k : U16) (cls : Cls) (r d : Nat) : SameFront s (raiseDev t k cls r d) :=
  h.sent (.of_same ((SameData.refl t).logRecord _))

/-! The corner turn -/

theorem SameFront.setSet (h : SameFront s t) (x : CtSet) : SameFront s (setSet t x) := h.same rfl

theorem SameFront.clearPoison (h : SameFront s t) (lo hi : Nat) : SameFront s (clearPoison t lo hi) := h.same rfl

theorem SameFront.store (h : SameFront s t) (a : Nat) (bs : List Byte) : SameFront s (t.store a bs) :=
  h.same (by rw [State.store_intake])

theorem SameFront.ctOverrun (h : SameFront s t) (x : CtSet) (d : Nat) : SameFront s (ctOverrun t x d) :=
  ((h.setSet _).withIntake _).raiseProduct ..

theorem SameFront.ctDwellStart (h : SameFront s t) (x : CtSet) (k : Nat) : SameFront s (ctDwellStart t x k) := by
  have written (id d : Nat) : SameFront s (historyWritten t id d) := h.foldl fun _ _ hu => hu.clearPoison ..
  unfold Machine.ctDwellStart
  refine .ite h ?_
  dsimp only
  split
  · exact h.ctOverrun ..
  · exact (written ..).setSet _

theorem SameFront.ctWritePair (h : SameFront s t) (rows : List SettledRow) (x : CtSet) (n pos inp c g : Nat) :
    SameFront s (ctWritePair t rows x n pos inp c g) := by
  unfold Machine.ctWritePair
  split
  · exact h
  · refine h.foldl fun u k hu => ?_
    dsimp only
    split <;> exact hu.store ..

theorem SameFront.ctClear (h : SameFront s t) (x : CtSet) (n c g : Nat) : SameFront s (ctClear t x n c g) :=
  h.foldl fun _ _ hu => hu.clearPoison ..

theorem SameFront.dwellReady (h : SameFront s t) (id d : Nat) : SameFront s (dwellReady t id d) := h.same rfl

theorem SameFront.ctGranule (h : SameFront s t) (rows : List SettledRow) (x : CtSet) (g : Nat) :
    SameFront s (ctGranule t rows x g) := by
  have written (n : Nat) (es : List (Nat × Nat)) (cs : List Nat) : SameFront s (cs.foldl (fun t c => es.foldl
      (fun t e => Machine.ctWritePair t rows x n e.1 e.2 c g) (Machine.ctClear t x n c g)) t) :=
    h.foldl fun _ _ hu => (hu.ctClear ..).foldl fun _ _ hv => hv.ctWritePair ..
  exact .ite (.ite (((written ..).setSet _).dwellReady ..) ((written ..).setSet _)) (.ite (h.dwellReady ..) h)

/-! Statistics, granules and rows -/

theorem SameFront.setStats (h : SameFront s t) (x : Stats) : SameFront s (setStats t x) := h.same rfl

theorem SameFront.statGranule (h : SameFront s t) (rows : List SettledRow) (g : Nat) (x : Stats) :
    SameFront s (statGranule t rows g x) := by
  have ended (r : RecOut) (y : Stats) : SameFront s (Machine.setStats (emitRecord t x.pid r) y) :=
    (h.sent ((Sent.refl t).emitRecord ..)).setStats _
  refine .ite h (.ite (.ite ?_ (ended ..)) (h.setStats _))
  exact (ended ..).sent ((((Sent.refl _).gapSuspended ..).suspendProduct _).productStopped _)

theorem SameFront.countGranules (h : SameFront s t) (n a b : Nat) : SameFront s (countGranules t n a b) := h.same rfl

theorem SameFront.settleGranule (h : SameFront s t) (g : Nat) : SameFront s (settleGranule t g) := by
  unfold Machine.settleGranule
  extract_lets rows vs s1 invalid _ s2 fed s3 s4 _ s5 s6
  have h2 : SameFront s s2 := .withIntake (h.foldl fun _ _ hu => hu.countGranules ..) _
  have h4 : SameFront s s4 := (h2.foldl fun _ _ hu => hu.ctGranule ..).foldl fun _ _ hu => hu.statGranule ..
  have h6 : SameFront s s6 := h4.same rfl
  exact .ite h2 (.ite h6 (h6.same rfl))

theorem SameFront.levelStart (h : SameFront s t) (k : Nat) : SameFront s (levelStart t k) := .ite h (h.same rfl)

theorem SameFront.epochDev (h : SameFront s t) (k : Nat) : SameFront s (epochDev t k) :=
  .ite h (.ite (((h.withIntake _).withIntake _).raiseDev ..) (h.withIntake _))

end

section
variable (s : State)

/-- Row F and the blocks behind it: the front goes on by one. -/
theorem releaseRow_front : (releaseRow s).intake.front = s.intake.front + 1 := by
  unfold releaseRow
  extract_lets t parts _ s1 s2 s3
  have h2 : SameFront s1 s2 :=
    .ite (((SameFront.refl s1).levelStart t).foldl fun _ _ hu => hu.ctDwellStart ..) (.refl s1)
  have h3 : SameFront s1 s3 := .ite (h2.settleGranule _) h2
  exact (h3.epochDev t).front

variable {s}

theorem releaseReady_incomplete (h : rowComplete s = false) : releaseReady s = s := by
  unfold releaseReady releaseWhile
  exact if_neg (by simp [h])

theorem streamDown_silent {n u : Nat} (hy : (s.stream n).state = .up) (hl : (s.stream n).last = some u)
    (hu : u + 64 * micros ≤ s.now) (hr : rowComplete (s.setStream n { s.stream n with state := .down }) = false) :
    streamDown s n = s.setStream n { s.stream n with state := .down } := by
  have h : streamDown s n =
      if s.now ≥ u + 64 * micros then releaseReady (s.setStream n { s.stream n with state := .down }) else s := by
    unfold streamDown
    simp only [hy, hl]
  rw [h, if_pos hu, releaseReady_incomplete hr]

end

/-- Settles O38: each event is its one branch under the statement's conditions. -/
theorem laneTransmitEvents : Obligations.LaneTransmitEvents := by
  unfold Obligations.LaneTransmitEvents
  rintro l s x rfl
  refine ⟨fun hx ho => ?_, fun hs hx hb hz hp hi hl ht => ?_, fun f u hs hx hb hz hp hi hl ht => ?_,
    fun k hk hx hz ho => ?_, fun v hp => ?_, fun hs he hr => ?_, fun n y u hy hup hlast hu hr => ?_⟩
  · exact congrArg Host.Outcome.next (stageDone_txPll l.isLt hx ho)
  · have h := execTxFrameSlot_sends hs hx hb hz hp
    rw [slotFrame_free hz hp hi hl, ht, Option.getD_none] at h
    exact ⟨_, _, h, rfl, sendFrame_done s l (idleFrame none) hb⟩
  · have h := execTxFrameSlot_sends hs hx hb hz hp
    rw [slotFrame_free hz hp hi hl, ht, Option.getD_some] at h
    obtain ⟨hf, hu⟩ := takeReady_keeps ht
    have hlane : u.lane l.val = s.lane l.val := by rw [hu]; rfl
    obtain ⟨hout, hcount, hframes, hosl⟩ := sendFrame_done u l f (hlane ▸ hb)
    rw [hlane] at hout hcount hframes
    rw [hf] at hframes
    exact ⟨_, h, by rw [hout, hu], hcount, hframes, hosl⟩
  · have h : execTxSleepEnter l s = .next (txSettle s l.val) := congrArg Host.Outcome.next (if_pos hz)
    rw [txSettle_announced l.isLt hk hx hz ho] at h
    refine ⟨_, h, ?_⟩
    rw [State.setLane_lane_self _ _ _ l.isLt]
    exact ⟨rfl, rfl, rfl, rfl, rfl⟩
  · show Host.Outcome.next (precodeSwitch s l.val) = _
    unfold precodeSwitch
    dsimp only
    rw [hp]
    rfl
  · refine ⟨_, congrArg Host.Outcome.next ?_, rfl, releaseRow_front s⟩
    rw [if_pos (by simp [hs, he]), releaseReady_incomplete hr]
  · subst hy
    exact congrArg Host.Outcome.next (streamDown_silent hup hlast hu hr)

end Sys2Proof.Machine

/-! ## The gain of a level trim (O11) -/

namespace Sys2Proof.Machine

/-- q is the integer square root of x. -/
def IsRoot (x q : Nat) : Prop := q * q ≤ x ∧ x < (q + 1) * (q + 1)

/-- Of q and q + 1 the one nearer to the root of x/d, the even one half way between them (15 R442). -/
def nearerRoot (x d q : Nat) : Nat :=
  if 4 * x > (2 * q + 1) * (2 * q + 1) * d then q + 1
  else if 4 * x < (2 * q + 1) * (2 * q + 1) * d then q else q + q % 2

/-- r is the root of x/d rounded half to even, without a square root: x/d lies between the squares of r - 1/2 and r + 1/2,
and on one of them only where r is even. -/
structure RootHalfEven (x d r : Nat) : Prop where
  lower : (2 * (r : Int) - 1) ^ 2 * d ≤ 4 * x ∨ r = 0
  upper : 4 * x ≤ (2 * r + 1) ^ 2 * d
  even : (2 * (r : Int) - 1) ^ 2 * d = 4 * x ∧ 0 < r ∨ (2 * r + 1) ^ 2 * d = 4 * x → r % 2 = 0

section
variable {k x r d q n s2 : Nat}

/-! ### The root bit by bit -/

theorem isqrtFrom_isRoot (hlo : r * r ≤ x) (hhi : x < (r + 2 ^ k) * (r + 2 ^ k)) : IsRoot x (isqrtFrom k x r) := by
  induction k generalizing r with
  | zero => exact ⟨hlo, hhi⟩
  | succ k ih =>
    rw [Nat.pow_succ, Nat.mul_two, ← Nat.add_assoc] at hhi
    rw [isqrtFrom]
    by_cases hb : (r + 2 ^ k) * (r + 2 ^ k) ≤ x
    · rw [if_pos hb]
      exact ih hb hhi
    · rw [if_neg hb]
      exact ih hlo (Nat.lt_of_not_le hb)

/-- The root of a number too large for its bits has them all set. -/
theorem isqrtFrom_full (h : (r + 2 ^ k) * (r + 2 ^ k) ≤ x) : isqrtFrom k x r + 1 = r + 2 ^ k := by
  induction k generalizing r with
  | zero => rfl
  | succ k ih =>
    rw [Nat.pow_succ, Nat.mul_two, ← Nat.add_assoc] at h ⊢
    have hb : (r + 2 ^ k) * (r + 2 ^ k) ≤ x := Nat.le_trans (Nat.mul_self_le_mul_self (Nat.le_add_right ..)) h
    rw [isqrtFrom, if_pos hb, ih h]

theorem exists_isRoot (x : Nat) : ∃ q, IsRoot x q := by
  refine ⟨isqrtFrom x x 0, isqrtFrom_isRoot (Nat.zero_le x) ?_⟩
  rw [Nat.zero_add]
  exact Nat.lt_of_lt_of_le Nat.lt_two_pow_self (Nat.le_mul_of_pos_left _ (Nat.two_pow_pos x))

theorem IsRoot.le_of_sq_le (h : IsRoot x q) (hr : r * r ≤ x) : r ≤ q :=
  Nat.le_of_lt_succ (Nat.mul_self_lt_mul_self_iff.mp (Nat.lt_of_le_of_lt hr h.2))

/-- What the integer root of x/d says of x. -/
theorem IsRoot.div_bounds (hd : 0 < d) (h : IsRoot (x / d) q) : q * q * d ≤ x ∧ x < (q + 1) * (q + 1) * d :=
  ⟨(Nat.le_div_iff_mul_le hd).mp h.1, (Nat.div_lt_iff_lt_mul hd).mp h.2⟩

/-! ### Rounding half to even -/

theorem le_nearerRoot : q ≤ nearerRoot x d q := by
  unfold nearerRoot
  split
  · omega
  · split <;> omega

/-- The square of the point half way up, as a polynomial. -/
theorem half_sq : (2 * q + 1) * (2 * q + 1) * d = 4 * (q * q * d) + 4 * (q * d) + d := by grind

/-- The integer root itself is right where x/d is at most half way up, and there is no tie unless x/d is half way up. -/
theorem RootHalfEven.floor (hd : 0 < d) (hlo : q * q * d ≤ x) (hm : 4 * x ≤ (2 * q + 1) * (2 * q + 1) * d)
    (he : 4 * x = (2 * q + 1) * (2 * q + 1) * d → q % 2 = 0) : RootHalfEven x d q := by
  have hlow : 0 < q → (2 * (q : Int) - 1) ^ 2 * d < 4 * x := fun hq => by
    have below : (2 * (q : Int) - 1) ^ 2 * d = 4 * (q * q * d : Nat) - 4 * (q * d : Nat) + d := by grind
    have step : d ≤ q * d := Nat.le_mul_of_pos_left d hq
    omega
  have above : (2 * q + 1) ^ 2 * d = (2 * q + 1) * (2 * q + 1) * d := by rw [Nat.pow_two]
  refine ⟨?_, above ▸ hm, ?_⟩
  · rcases Nat.eq_zero_or_pos q with h | h
    · exact .inr h
    · exact .inl (Int.le_of_lt (hlow h))
  · rintro (⟨h, hq⟩ | h)
    · exact absurd h (Int.ne_of_lt (hlow hq))
    · exact he (h.symm.trans above)

/-- The integer root and one is right where x/d is at least half way up. -/
theorem RootHalfEven.ceil (hd : 0 < d) (hhi : x < (q + 1) * (q + 1) * d) (hm : (2 * q + 1) * (2 * q + 1) * d ≤ 4 * x)
    (he : 4 * x = (2 * q + 1) * (2 * q + 1) * d → (q + 1) % 2 = 0) : RootHalfEven x d (q + 1) := by
  have next : (q + 1) * (q + 1) * d = q * q * d + 2 * (q * d) + d := by grind
  have above : (2 * (q + 1) + 1) ^ 2 * d = 4 * (q * q * d) + 12 * (q * d) + 9 * d := by grind
  have below : (2 * ((q + 1 : Nat) : Int) - 1) ^ 2 * d = ((2 * q + 1) * (2 * q + 1) * d : Nat) := by grind
  have hup : 4 * x < (2 * (q + 1) + 1) ^ 2 * d := by omega
  refine ⟨.inl ?_, Nat.le_of_lt hup, ?_⟩
  · rw [below]
    exact Int.ofNat_le.mpr hm
  · rintro (⟨h, -⟩ | h)
    · rw [below] at h
      exact he (Int.ofNat_inj.mp h.symm)
    · exact absurd h (Nat.ne_of_gt hup)

theorem nearerRoot_halfEven (hd : 0 < d) (h : IsRoot (x / d) q) : RootHalfEven x d (nearerRoot x d q) := by
  obtain ⟨hlo, hhi⟩ := h.div_bounds hd
  unfold nearerRoot
  by_cases hup : 4 * x > (2 * q + 1) * (2 * q + 1) * d
  · rw [if_pos hup]
    exact .ceil hd hhi (Nat.le_of_lt hup) fun h => absurd h (Nat.ne_of_gt hup)
  rw [if_neg hup]
  by_cases hdown : 4 * x < (2 * q + 1) * (2 * q + 1) * d
  · rw [if_pos hdown]
    exact .floor hd hlo (Nat.le_of_lt hdown) fun h => absurd h (Nat.ne_of_lt hdown)
  rw [if_neg hdown]
  have tie : 4 * x = (2 * q + 1) * (2 * q + 1) * d := by omega
  rcases Nat.mod_two_eq_zero_or_one q with h | h <;> rw [h]
  · exact .floor hd hlo (Nat.le_of_eq tie) fun _ => h
  · exact .ceil hd hhi (Nat.le_of_eq tie.symm) fun _ => by omega

/-! ### The gain -/

/-- The 17 bits of the integer root suffice: where they do not hold it, the gain is at its limit either way. -/
theorem levelGain_eq (h : IsRoot (2 * 12288 * 12288 * n / s2) q) :
    levelGain n s2 = max 1 (min 65535 (nearerRoot (2 * 12288 * 12288 * n) s2 q)) := by
  have gain : levelGain n s2 = min 65535 (max 1 (nearerRoot (2 * 12288 * 12288 * n) s2
    (isqrtFrom 17 (2 * 12288 * 12288 * n / s2) 0))) := rfl
  rw [gain]
  generalize 2 * 12288 * 12288 * n = x at h ⊢
  by_cases fits : x / s2 < (0 + 2 ^ 17) * (0 + 2 ^ 17)
  · have bits : IsRoot (x / s2) (isqrtFrom 17 (x / s2) 0) := isqrtFrom_isRoot (Nat.zero_le _) fits
    rw [Nat.le_antisymm (bits.le_of_sq_le h.1) (h.le_of_sq_le bits.1)]
    omega
  · have full : isqrtFrom 17 (x / s2) 0 + 1 = 0 + 2 ^ 17 := isqrtFrom_full (Nat.le_of_not_lt fits)
    have large : 0 + 2 ^ 17 ≤ q := h.le_of_sq_le (Nat.le_of_not_lt fits)
    have limited : isqrtFrom 17 (x / s2) 0 ≤ nearerRoot x s2 (isqrtFrom 17 (x / s2) 0) := le_nearerRoot
    have beyond : q ≤ nearerRoot x s2 q := le_nearerRoot
    generalize isqrtFrom 17 (x / s2) 0 = limit at full limited ⊢
    omega

variable {s : State} {l : LevelTrim} {p : Nat × Nat}

theorem pairGain_skipped (h : n < 65536 ∨ s2 = 0) : pairGain s l (p, n, s2) = none :=
  if_pos (by rwa [Bool.or_eq_true, decide_eq_true_eq, decide_eq_true_eq])

theorem pairGain_measured (hn : 65536 ≤ n) (hs : 0 < s2) (hl : l.replaced.contains p = false) :
    pairGain s l (p, n, s2) =
      some (if gainAt s p.1 p.2 s.intake.front < 16 * ((levelGain n s2 : Int) - gainAt s p.1 p.2 s.intake.front).natAbs then
        some (p, BitVec.ofNat 16 (levelGain n s2)) else none) := by
  have measured : (decide (n < 65536) || decide (s2 = 0)) = false := by
    rw [Bool.or_eq_false_iff, decide_eq_false_iff_not, decide_eq_false_iff_not]
    omega
  simp only [pairGain, measured, hl, Bool.not_false, Bool.and_true, decide_eq_true_eq, Bool.false_eq_true, if_false]

end

/-- Settles O11: the gain is the half-even root, and the pair's answer splits at 1/16 of the gain in use. -/
theorem levelTrimGain : Obligations.LevelTrimGain := by
  unfold Obligations.LevelTrimGain
  refine ⟨fun n s2 hs => ?_, ?_⟩
  · obtain ⟨q, root⟩ := exists_isRoot (2 * 12288 * 12288 * n / s2)
    obtain ⟨lower, upper, even⟩ := nearerRoot_halfEven hs root
    have quad : 8 * 12288 ^ 2 * n = 4 * (2 * 12288 * 12288 * n) := by omega
    have quadInt : (8 * 12288 ^ 2 * n : Int) = 4 * ((2 * 12288 * 12288 * n : Nat) : Int) := by omega
    rw [quad, quadInt]
    exact ⟨_, levelGain_eq root, lower, upper, even⟩
  · rintro s l p n s2 old rfl hl
    refine ⟨pairGain_skipped, fun hn hs hk => ?_, fun hn hs hk => ?_⟩ <;> rw [pairGain_measured hn hs hl]
    · rw [if_neg (by omega)]
    · rw [if_pos hk]

end Sys2Proof.Machine

/-! ## The INTAKE Clauses (O14) -/

namespace Sys2Proof.Machine
open Sys2Proof.Safety

section
variable {s u : State} {f : Fn} {n w num den tol first count chFirst chCount tap pid : Nat} {d : StreamDef} {t0 : U96}
  {buf : HBuf} {data : HRead} {x : Stats} {route : U32} {r : Reply}

/-! ### What an accepted body answers -/

theorem streamDefine_ok (h : streamDefine s f n d = .ok (u, r)) :
    (u.stream n).entry = some d ∧ (u.stream n).state = .waiting := by
  simp only [streamDefine, except_bind_ok, exists_unit, done_ok] at h
  obtain ⟨-, -, -, -, -, g, -, -, -, -, -, -, -, rfl, -⟩ := h
  rw [State.setStream_stream_self]
  exact ⟨rfl, rfl⟩

/-- No row waits for release while the front has not started (03 R75). -/
theorem releaseReady_idle (h : s.intake.started = false) : releaseReady s = s := releaseWhile_idle _ _ s h

theorem streamRelease_ok (h : streamRelease s f n = .ok (u, r)) (hs : s.intake.started = false) :
    (u.stream n).entry = none ∧ (u.stream n).state = .undefined := by
  simp only [streamRelease, except_bind_ok, exists_unit, done_ok] at h
  obtain ⟨d, -, -, rfl, -⟩ := h
  rw [releaseReady_idle]
  · simp only [State.stream, State.setStream, tabGet_tabSet_self, Option.getD_some, and_self]
  · exact hs

theorem setSkew_ok (h : setSkew s w = .ok (u, r)) (hs : s.intake.started = false) : u.intake.skew = w := by
  simp only [setSkew, except_bind_ok, exists_unit, done_ok] at h
  obtain ⟨-, rfl, -⟩ := h
  rw [releaseWhile_idle, releaseReady_idle] <;> exact hs

theorem setEpoch_ok (h : setEpoch s t0 num den tol = .ok (u, r)) :
    u = { s with intake := { s.intake with t0 := timeOf t0, num := num, den := den, tolerance := tol, epochSet := true } } := by
  simp only [setEpoch, except_bind_ok, exists_unit, done_ok] at h
  obtain ⟨-, -, -, -, -, -, rfl, -⟩ := h
  rfl

theorem setGains_ok (h : setGains s f n first count chFirst chCount buf data = .ok (u, r)) :
    ∃ l ∈ u.intake.gainLoads, l.stream = n ∧ l.trim = false ∧ l.gains.length = count * chCount := by
  simp only [setGains, except_bind_ok, exists_unit] at h
  obtain ⟨d, -, -, -, -, h⟩ := h
  split at h
  · exact absurd h badLength_ne_ok
  · simp only [except_bind_ok, deferred_ok] at h
    obtain ⟨bs, -, rfl, -⟩ := h
    refine ⟨_, loadGains_mem .., rfl, rfl, ?_⟩
    simp only [List.length_map, enumFrom0_length, List.length_flatMap, List.length_range, List.map_const',
      List.sum_replicate_nat]
    exact Nat.mul_comm chCount count

theorem statsDefine_ok (h : statsDefine s f x tap route = .ok (u, r)) :
    (∃ p, u.product x.pid = some p ∧ p.kind = .stats ∧ p.route = route ∧ p.world = worldOf f ∧ p.seq = 0) ∧
      ∃ y ∈ u.intake.stats, y.pid = x.pid ∧ y.post = (tap == 1) := by
  simp only [statsDefine, except_bind_ok, exists_unit, done_ok] at h
  obtain ⟨-, -, d, -, -, -, -, -, -, -, -, -, -, -, rfl, -⟩ := h
  exact ⟨⟨_, State.setProduct_product_self .., rfl, rfl, rfl, rfl⟩,
    _, List.mem_append_right _ (List.mem_singleton_self _), rfl, rfl⟩

theorem statsRelease_ok (h : statsRelease s f pid = .ok (u, r)) : ∀ x ∈ u.intake.stats, x.pid ≠ pid := by
  simp only [statsRelease, except_bind_ok] at h
  obtain ⟨p, -, h⟩ := h
  split at h
  · exact absurd h refuse_ne_ok
  · obtain ⟨rfl, -⟩ := done_ok.mp h
    intro x hx
    rw [productStopped_intake] at hx
    exact bne_iff_ne.mp (List.mem_filter.mp hx).2

end

/-- Settles O14: an accepted Clause ends in the answer to what its body made. -/
theorem intakeClausesComplete : Obligations.IntakeClausesComplete := by
  unfold Obligations.IntakeClausesComplete
  refine ⟨?_, fun src stream s hs ha => ?_, fun src w s hs ha => ?_, fun src t0 num den tolerance s hs ha => ?_,
    fun src stream first count chFirst chCount buf data s hs ha => ?_, ?_, fun src pid s hs ha => ?_⟩
  · rintro src stream first flags inBase inCount chBase chCount source d s hs rfl ha
    unfold exec execIntakeStreamDefine
    refine clause_done rfl hs ha fun u r hb k => ?_
    rw [State.stream_congr k.intake]
    exact streamDefine_ok hb
  · unfold exec execIntakeStreamRelease
    refine clause_done rfl hs ha fun u r hb k hidle => ?_
    rw [State.stream_congr k.intake]
    exact streamRelease_ok hb (untake_started src hidle)
  · unfold exec execIntakeSetSkew
    refine clause_done rfl hs ha fun u r hb k hidle => ?_
    rw [k.intake]
    exact setSkew_ok hb (untake_started src hidle)
  · unfold exec execIntakeSetEpoch
    refine clause_done rfl hs ha fun u r hb k => ?_
    rw [k.intake, setEpoch_ok hb]
    exact ⟨rfl, rfl, rfl, rfl, rfl⟩
  · unfold exec execIntakeSetGains
    refine clause_done rfl hs ha fun u r hb k => ?_
    rw [k.intake]
    exact setGains_ok hb
  · rintro src pid stream inBase inCount chBase chCount log2Int tap route x s hs rfl ha
    unfold exec execIntakeStatsDefine
    refine clause_done rfl hs ha fun u r hb k => ?_
    rw [State.product_congr k.products, k.intake]
    exact statsDefine_ok hb
  · unfold exec execIntakeStatsRelease
    refine clause_done rfl hs ha fun u r hb k => ?_
    rw [k.intake]
    exact statsRelease_ok hb

end Sys2Proof.Machine

/-! ## The CORR Clauses (O15) -/

namespace Sys2Proof.Machine
open Sys2Proof.Safety

section
variable {s u : State} {f : Fn} {pid mode output : Nat} {route : U32} {p : Product} {c : Corr} {r : Reply}

/-! ### Input maps -/

theorem mapLoad_ok {buf : HBuf} {data : HRead} (h : mapLoad s f buf data = .ok (u, r)) :
    ∃ m ∈ u.maps, m ∉ s.maps ∧ m.world = worldOf f ∧ m.entries.length = buf.len.toNat / 2 := by
  simp only [mapLoad, except_bind_ok, exists_unit] at h
  obtain ⟨-, -, bs, -, -, -, h⟩ := h
  split at h
  · exact absurd h refuse_ne_ok
  · next n hn =>
    simp only [except_bind_ok, exists_unit, done_ok] at h
    obtain ⟨-, rfl, -⟩ := h
    have free : ∀ m ∈ s.maps, m.handle ≠ n := by simpa using List.find?_some hn
    exact ⟨_, List.mem_append_right _ (List.mem_singleton_self _), fun hm => free _ hm rfl, rfl, by simp⟩

theorem mapFree_ok {n : Nat} (h : mapFree s f n = .ok (u, r)) : ∀ m ∈ u.maps, m.handle ≠ n := by
  simp only [mapFree, except_bind_ok, exists_unit, done_ok] at h
  obtain ⟨-, -, -, -, rfl, -⟩ := h
  exact fun m hm => bne_iff_ne.mp (List.mem_filter.mp hm).2

/-! ### Defining, stopping and resuming a product -/

theorem corrDefine_ok {c0 : Corr} {flags : Nat} (h : corrDefine s f c0 flags output route = .ok (u, r)) :
    (∃ p, u.product c0.pid = some p ∧ p.kind = .corr ∧ p.route = route ∧ p.world = worldOf f ∧ p.seq = 0) ∧
      ∃ c ∈ u.corrs, c.pid = c0.pid ∧ c.map = c0.map ∧ c.mode = c0.mode ∧ c.nInt = c0.nInt ∧ c.g = c0.g ∧
        c.istore = c0.istore := by
  simp only [corrDefine, except_bind_ok, exists_unit, deferred_ok] at h
  obtain ⟨-, -, -, -, -, -, -, -, -, -, -, -, -, -, -, -, -, -, -, -, -, -, -, -, -, rfl, -⟩ := h
  exact ⟨⟨_, State.setProduct_product_self .., rfl, rfl, rfl, rfl⟩,
    _, List.mem_append_right _ (List.mem_singleton_self _), rfl, rfl, rfl, rfl, rfl, rfl⟩

theorem corrRelease_eq (h : namedCorr s f pid = .ok (p, c)) (hc : stopping c = false) : corrRelease s f pid =
    if p.suspended then deferred (checkStops (s.setCorr { c with releasing := true }) pid) 1 s.intake.front
    else deferred (stopCorr s c true).1 1 (stopCorr s c true).2 := by
  unfold corrRelease
  rw [h]
  dsimp only [bind, Except.bind]
  rw [hc]
  rfl

theorem corrSuspend_eq (h : namedCorr s f pid = .ok (p, c)) (hc : stopping c = false) (hp : p.suspended = false) :
    corrSuspend s f pid = deferred (stopCorr s c false).1 1 (stopCorr s c false).2 := by
  unfold corrSuspend
  rw [h]
  dsimp only [bind, Except.bind]
  rw [hc, hp]
  rfl

/-- A served Clause whose body answers DONE_DEFERRED. -/
theorem runClause_defers {i : Instr} {cl : Clause} {body : State → Result} {kind boundary : Nat}
    (hc : clauseOf i = some cl) (h : serves s i = true) (hb : body (untake s cl.src) = deferred u kind boundary) :
    runClause i s body =
      .next (answered cl.src cl.opcode u (.mk' stDeferred kind (boundary % 2 ^ 64) 0 0)) :=
  runClause_accepted hc h hb

/-- The boundary that a stop names counts from the front that the Clause found. -/
theorem stopCorr_boundary (s : State) (src : Src) (c : Corr) (b : Bool) :
    (stopCorr (untake s src) c b).2 = (groupBoundaries s c).foldl max 0 * c.td := by
  unfold stopCorr
  dsimp only
  rw [groupBoundaries_untake]

theorem corrResume_ok (h : corrResume s f pid = .ok (u, r)) :
    u.pair = s.pair ∧ ∃ p, u.product pid = some p ∧ p.suspended = false := by
  simp only [corrResume, except_bind_ok, exists_unit, deferred_ok] at h
  obtain ⟨-, p, -, c, -, -, -, -, -, -, -, rfl, -⟩ := h
  exact ⟨rfl, _, State.setProduct_product_self .., rfl⟩

theorem resumed_corrResume_ok {row : Nat → Nat} (ho : s.pair.owedTakeovers = [])
    (h : resumed (corrResume s f pid) row (fun _ => [pid]) = .ok (u, r)) :
    ∃ p, u.product pid = some p ∧ p.suspended = false := by
  obtain ⟨x, hx, rfl⟩ := resumed_ok h
  obtain ⟨hpair, hp⟩ := corrResume_ok hx
  rwa [payTakeover_fold (by rw [hpair, ho])]

/-! ### Mode, route, output, snapshot and fault injection -/

theorem corrSetMode_ok (h : corrSetMode s f pid mode = .ok (u, r)) :
    ∃ c d, u.corr pid = some c ∧ c.nextModes.getLast? = some (d, mode) := by
  simp only [corrSetMode, except_bind_ok, exists_unit, orRefuse_ok, deferred_ok] at h
  obtain ⟨-, -, c, hc, -, -, -, rfl, -⟩ := h
  have hpid := State.corr_pid hc
  exact ⟨_, _, State.setCorr_corr hc hpid, List.getLast?_concat⟩

theorem setRoute_ok {off : Nat} (h : setRoute s f p route off = .ok (u, r)) :
    u.product p.pid = some (changeRoute p route) := by
  simp only [setRoute, except_bind_ok, exists_unit, deferred_ok] at h
  obtain ⟨-, -, -, -, rfl, -⟩ := h
  exact State.setProduct_product_self ..

/-- A placed area is one more allocation. -/
theorem place_adds {w : World} {k : AllocKind} {b : Nat} {x : State × Nat} (h : place s w k b = .ok x) :
    ∃ a, x.1 = addAlloc s a := by
  unfold place at h
  dsimp only at h
  split at h
  · cases h
    exact ⟨_, rfl⟩
  · cases h

theorem growEmit_corrs {w : World} {b : Nat} (h : growEmit s w c b = .ok u) : u.corrs = s.corrs := by
  unfold growEmit at h
  split at h
  · cases h
    rfl
  · simp only [except_bind_ok, pure, Except.pure, Except.ok.injEq] at h
    obtain ⟨x, hx, rfl⟩ := h
    obtain ⟨a, ha⟩ := place_adds hx
    rw [ha]
    rfl

theorem corrSetOutput_ok (h : corrSetOutput s f pid output = .ok (u, r)) :
    ∃ c ∈ u.corrs, c.pid = pid ∧ ∀ g ∈ c.groups, g.output = output := by
  simp only [corrSetOutput, except_bind_ok, exists_unit, orRefuse_ok, deferred_ok] at h
  obtain ⟨q, -, c, hc, -, -, s1, hgrow, -, rfl, -⟩ := h
  have hpid := State.corr_pid hc
  have hc1 : s1.corr pid = some c := (State.corr_congr (growEmit_corrs hgrow) pid).trans hc
  refine ⟨_, List.mem_of_find?_eq_some (State.setCorr_corr hc1 hpid), hpid, ?_⟩
  simp

theorem corrSnapshot_ok {src : Src} {first count area len : Nat}
    (h : corrSnapshot s src pid first count area len = .ok (u, r)) :
    ∃ c x, u.corr pid = some c ∧ c.snap = some x ∧ x.firstGroup = first ∧ x.groups = count ∧ x.area = area ∧
      u.istore.snapProduct = pid := by
  simp only [corrSnapshot, except_bind_ok, exists_unit, Except.ok.injEq, Prod.mk.injEq] at h
  obtain ⟨pc, hpc, -, -, -, -, -, -, -, -, rfl, -⟩ := h
  have hc := (namedCorr_ok hpc).2
  have hpid := State.corr_pid hc
  exact ⟨_, _, State.setCorr_corr hc hpid, rfl, rfl, rfl, rfl, rfl⟩

theorem faultInject_ok {row pos baseline comp bit : Nat}
    (h : faultInject s row pos baseline comp bit mode = .ok (u, r)) :
    u.relief.injects = if mode = 0 then [] else s.relief.injects ++
      [{ row := row, pos := pos, baseline := baseline, im := comp == 1, bit := bit, stuck := mode == 2 }] := by
  simp only [faultInject, except_bind_ok, exists_unit] at h
  obtain ⟨-, -, -, -, -, h⟩ := h
  split at h
  · next hm =>
    obtain ⟨rfl, -⟩ := done_ok.mp h
    rw [if_pos hm]
    rfl
  · next hm =>
    simp only [except_bind_ok, exists_unit, done_ok] at h
    obtain ⟨-, -, rfl, -⟩ := h
    rw [if_neg hm]
    rfl

end

/-- Settles O15: an accepted Clause ends in the answer to what its body made. -/
theorem corrClausesComplete : Obligations.CorrClausesComplete := by
  unfold Obligations.CorrClausesComplete
  refine ⟨fun src buf data s hs ha => ?_, fun src handle s hs ha => ?_,
    fun src pid handle flags chBase chCount log2Td nInt g base route s hs ha => ?_,
    fun src pid s p c hs hn hst => ?_, fun src pid s p c hs hn hst hp => ?_, fun src pid s hs ha => ?_,
    fun src pid mode s hs ha => ?_, fun src pid route s p hs hp ha => ?_, fun src pid output s hs ha => ?_,
    fun src pid first count area len s hs ha => ?_, fun src buf s hs hl => ?_, fun src buf s hs hl => ?_,
    fun src row pos baseline comp bit mode s hs ha => ?_⟩
  · unfold exec execCorrInputMapLoad
    refine clause_done rfl hs ha fun u r hb k => ?_
    have hm := mapLoad_ok hb
    rwa [(untake_same s src).maps, ← k.maps] at hm
  · unfold exec execCorrInputMapFree
    refine clause_done rfl hs ha fun u r hb k => ?_
    rw [k.maps]
    exact mapFree_ok hb
  · unfold exec execCorrDefine
    refine clause_done rfl hs ha fun u r hb k => ?_
    rw [State.product_congr k.products, k.corrs]
    exact corrDefine_ok hb
  · have hb := corrRelease_eq hn hst
    rw [stopCorr_boundary, (untake_same s src).intake] at hb
    split at hb
    · next h => rw [if_pos h]; exact runClause_defers (i := .corrRelease src pid) (body := (corrRelease · src.fn pid.toNat)) rfl hs hb
    · next h => rw [if_neg h]; exact runClause_defers (i := .corrRelease src pid) (body := (corrRelease · src.fn pid.toNat)) rfl hs hb
  · have hb := corrSuspend_eq hn hst hp
    rw [stopCorr_boundary] at hb
    exact runClause_defers (i := .corrSuspend src pid) (body := (corrSuspend · src.fn pid.toNat)) rfl hs hb
  · unfold exec execCorrResume
    refine clause_done rfl hs (accepts_resumed ha) fun u r hb k ho => ?_
    rw [State.product_congr k.products]
    exact resumed_corrResume_ok ((congrArg Pair.owedTakeovers (untake_pair s src)).trans ho) hb
  · unfold exec execCorrSetMode
    refine clause_done rfl hs ha fun u r hb k => ?_
    rw [State.corr_congr k.corrs]
    exact corrSetMode_ok hb
  · unfold exec execCorrSetRoute
    refine clause_done rfl hs (by dsimp only; rw [hp]; exact ha) fun u r hb k => ?_
    obtain ⟨q, hq, hb⟩ := except_bind_ok.mp hb
    cases hp.symm.trans hq
    rw [State.product_congr k.products]
    exact setRoute_ok hb
  · unfold exec execCorrSetOutput
    refine clause_done rfl hs ha fun u r hb k => ?_
    rw [k.corrs]
    exact corrSetOutput_ok hb
  · unfold exec execCorrSnapshot
    refine clause_done rfl hs ha fun u r hb k => ?_
    rw [State.corr_congr k.corrs, k.istore]
    exact corrSnapshot_ok hb
  · exact report_done (i := .corrPlanQuery src buf) (f := (planReport · src.fn)) rfl hs hl
  · exact report_done (i := .corrIstoreQuery src buf) (f := (storeReport · src.fn)) rfl hs hl
  · unfold exec execCorrFaultInject
    refine clause_done rfl hs ha fun u r hb k => ?_
    rw [k.relief, faultInject_ok hb, (untake_same s src).relief]

end Sys2Proof.Machine

/-! ## Record delivery (O40) -/

namespace Sys2Proof.Machine
open Sys2Proof.Safety

section
variable {s : State} {f : Fn} {n : Fin 64} {o : Offer} {rest : List Offer}

/-! ### Rings -/

theorem withOffers_ring (s : State) (l : List Offer) (f : Fn) (i : Nat) :
    ({ s with offers := l } : State).ring f i = s.ring f i := by
  cases f <;> rfl

theorem withOffers_ringOpen (s : State) (l : List Offer) (f : Fn) (i : Nat) :
    ringOpen { s with offers := l } f i = ringOpen s f i := by
  cases f <;> rfl

theorem takeOffer_ring (hf : s.err.fault = false) (h : nextOffer s (.ring f n) = some (o, rest)) :
    takeOffer s (.ring f n) = ringTake { s with offers := startNext rest (.ring f n) o.pid s.now } f n.val o := by
  unfold takeOffer
  rw [hf, h]
  rfl

/-- With no decline pending only the room decides (11 R360). -/
theorem ringTake_noDeclines {i : Nat} (h : (s.ring f i).declines = []) : ringTake s f i o =
    if ringOpen s f i = true ∧ o.bytes.length + 96 ≤ ringFree (s.ring f i) then
      ringAppend (s.setRing f i { s.ring f i with declining := false }) f i o.bytes
    else ringDecline s f i o := by
  unfold ringTake
  dsimp only
  rw [ringGap_none s f i o.pid h, h]
  simp

theorem ringTake_accepts (h : (s.ring f n.val).declines = []) (ho : ringOpen s f n.val = true)
    (hr : o.bytes.length + 96 ≤ ringFree (s.ring f n.val)) :
    ((ringTake s f n.val o).ring f n.val).tail = (s.ring f n.val).tail + o.bytes.length ∧
      ((ringTake s f n.val o).ring f n.val).declining = false ∧
      ((ringTake s f n.val o).ring f n.val).declined = (s.ring f n.val).declined ∧
      (ringTake s f n.val o).offers = s.offers ∧ (ringTake s f n.val o).hbm = s.hbm ∧
      .hostWrite f (s.ring f n.val).wbAddr.toNat (leBytes 8 ((s.ring f n.val).tail + o.bytes.length)) ∈
        (ringTake s f n.val o).out := by
  rw [ringTake_noDeclines h, if_pos ⟨ho, hr⟩]
  have done := ringAppend_done (s.setRing f n.val { s.ring f n.val with declining := false }) f n o.bytes
  rwa [State.setRing_ring_self _ _ _ _ n.isLt, State.setRing_offers, State.setRing_hbm] at done

theorem ringTake_declines (h : (s.ring f n.val).declines = [])
    (hr : ringOpen s f n.val = false ∨ ringFree (s.ring f n.val) < o.bytes.length + 96) :
    ringTake s f n.val o = ringDecline s f n.val o := by
  rw [ringTake_noDeclines h, if_neg]
  rintro ⟨ho, hroom⟩
  rcases hr with hr | hr
  · rw [hr] at ho
    cases ho
  · omega

theorem ringCoalesce_due {i u : Nat} (hu : (s.ring f i).sinceTime = some u) (hs : 0 < (s.ring f i).since)
    (hn : u + (s.ring f i).timeUs * micros ≤ s.now) : ringCoalesce s f i =
      sendVector (s.setRing f i { s.ring f i with since := 0, sinceTime := none }) f (s.ring f i).vector := by
  unfold ringCoalesce
  dsimp only
  rw [hu]
  exact if_pos ⟨hs, hn⟩

/-! ### Spill commits -/

theorem commitSpill_goesOn {sp : Spill} {p : Place} (hp : placeOf s sp.tile = some p) (hl : p.last = false) :
    commitSpill s sp =
      commitTile (s.setRelief { s.relief with spill := s.relief.spill.filter (· != sp) }) p sp none := by
  unfold commitSpill
  dsimp only
  rw [hp]
  dsimp only
  rw [hl]
  rfl

theorem execSpillCommit_idle {sp : Spill} (hg : gated s = false)
    (hs : s.relief.spill.find? (fun x => !earlierHeld s x.tile) = some sp) (ha : (commitSpill s sp).relief.acc = none)
    (hc : (commitSpill s sp).relief.cur = none) : execSpillCommit s = .next (commitSpill s sp) := by
  unfold execSpillCommit
  rw [hg, hs]
  dsimp only
  rw [trySwap_idle ha, startTile_idle _ hc]
  rfl

/-! ### Snapshots -/

section
variable {c : Corr} {pid : Nat}

theorem stopGroup_idle (h : s.corr pid = some c) (hg : ∀ g ∈ c.groups, groupDone g = false) (q : Nat) :
    stopGroup s pid q = s := by
  unfold stopGroup
  rw [h]
  dsimp only
  split
  · rfl
  · next g hq => rw [hg g (List.mem_of_getElem? hq)]; rfl

/-- No group has come to a stop, and one still runs. -/
theorem checkStops_running (h : s.corr pid = some c) (hg : ∀ g ∈ c.groups, groupDone g = false)
    (hr : ∃ g ∈ c.groups, g.stopped = false) : checkStops s pid = s := by
  have idle : (List.range c.groups.length).foldl (fun t q => stopGroup t pid q) s = s := by
    generalize List.range c.groups.length = l
    induction l with
    | nil => rfl
    | cons q l ih => rw [List.foldl_cons, stopGroup_idle h hg, ih]
  have running : (c.groups.all fun g => g.stopped) = false := by simpa [List.all_eq_false] using hr
  unfold checkStops
  rw [h]
  dsimp only
  rw [idle, h]
  dsimp only
  rw [running]
  rfl

theorem snapHeader_keeps (s : State) (c : Corr) (pr : Product) (n : Nat) (sn : Snap) (a : SnapPart) :
    (snapHeader s c pr n sn a).corrs = s.corrs ∧ (snapHeader s c pr n sn a).hbm.allocs = s.hbm.allocs := by
  unfold snapHeader
  split
  · exact ⟨rfl, rfl⟩
  · simp only [State.store_corrs, State.store_allocs, and_self]

/-- The headers of a snapshot's groups are stored, the product forgets the snapshot and its area is freed. -/
def snapEnded (s : State) (c : Corr) (pr : Product) (sn : Snap) : State :=
  freeAllocs ((sn.parts.foldl (fun t a => snapHeader t c pr (corrInputs s c).length sn a) s).setCorr { c with snap := none })
    (· == .snapshot c.pid)

theorem snapEnded_keeps (h : s.corr pid = some c) (pr : Product) (sn : Snap) :
    (snapEnded s c pr sn).corr pid = some { c with snap := none } ∧
      ∀ a, a ∈ (snapEnded s c pr sn).hbm.allocs ↔ a ∈ s.hbm.allocs ∧ a.kind ≠ .snapshot pid := by
  have hpid := State.corr_pid h
  have corrs := foldl_keeps State.corrs (fun t a => snapHeader t c pr (corrInputs s c).length sn a)
    (fun t a => (snapHeader_keeps t c pr _ sn a).1) sn.parts s
  have allocs := foldl_keeps (fun t => t.hbm.allocs) (fun t a => snapHeader t c pr (corrInputs s c).length sn a)
    (fun t a => (snapHeader_keeps t c pr _ sn a).2) sn.parts s
  refine ⟨State.setCorr_corr ((State.corr_congr corrs pid).trans h) hpid, fun a => ?_⟩
  rw [← allocs, ← hpid]
  simp [snapEnded, freeAllocs]

theorem execSnapshotWriteDone_ready {pr : Product} {sn : Snap} (h : s.corr pid = some c) (hp : s.product pid = some pr)
    (hs : c.snap = some sn) (hd : sn.settled = true) (hr : snapReady s (corrInputs s c).length c sn = true) :
    ∃ t, execSnapshotWriteDone pid s = .next (checkStops (followEntry t sn.src 0x0310 0 0 0) pid) ∧
      t.corrs = (snapEnded s c pr sn).corrs ∧ t.hbm = (snapEnded s c pr sn).hbm := by
  unfold execSnapshotWriteDone
  rw [h, hp]
  dsimp only
  rw [hs, Option.map_some, show settleSnap c sn = sn from if_pos hd]
  dsimp only
  rw [if_pos hr]
  refine ⟨_, rfl, ?_⟩
  rw [snapEnded, State.corr_pid h]
  split <;> exact ⟨rfl, rfl⟩

end
end

/-- Settles O40: each event is its one branch under the statement's conditions. -/
theorem deliveryEvents : Obligations.DeliveryEvents := by
  unfold Obligations.DeliveryEvents
  refine fun s => ⟨?_, ?_, ?_, ?_, fun sp p hg ha hc hs hp hl => ?_,
    fun pid c pr sn h hp hs hd hg hf ht hr hgr => ?_⟩
  · rintro f n o rest _ h rfl hf ho hd hroom
    refine ⟨_, congrArg Host.Outcome.next (takeOffer_ring hf h), ?_⟩
    generalize startNext rest (.ring f n) o.pid s.now = l
    rw [← withOffers_ring s l] at hd hroom ⊢
    exact ringTake_accepts hd ((withOffers_ringOpen ..).trans ho) hroom
  · rintro f n o rest _ h rfl hf hd hr
    refine ⟨_, congrArg Host.Outcome.next (takeOffer_ring hf h), ?_⟩
    generalize startNext rest (.ring f n) o.pid s.now = l
    rw [← withOffers_ring s l] at hd hr ⊢
    rw [ringTake_declines hd (by rwa [withOffers_ringOpen])]
    obtain ⟨hring, hout, -⟩ := ringDecline_done { s with offers := l } f n o
    rw [hring, hd, hout]
    exact ⟨rfl, rfl, rfl, rfl, rfl⟩
  · rintro f n o rest _ h rfl
    obtain ⟨hring, hout, hoffers⟩ := ringDecline_done { s with offers := startNext rest (.ring f n) o.pid s.now } f n o
    refine ⟨ringDecline { s with offers := startNext rest (.ring f n) o.pid s.now } f n.val o, ?_, ?_⟩
    · show Host.Outcome.next (ringDeclineTimeout s (.ring f n)) = _
      unfold ringDeclineTimeout
      rw [h]
    · rw [hring, hout, hoffers, withOffers_ring]
      exact ⟨rfl, rfl, rfl, rfl, rfl⟩
  · rintro f n _ u rfl hu hs hn
    refine ⟨_, congrArg Host.Outcome.next (ringCoalesce_due hu hs hn), ?_⟩
    obtain ⟨hring, hoffers, -, hproducts, -⟩ := sendVector_keeps
      (s.setRing f n.val { s.ring f n.val with since := 0, sinceTime := none }) f f (s.ring f n.val).vector n.val
    rw [hring, hoffers, hproducts, State.setRing_ring_self _ _ _ _ n.isLt, State.setRing_products, State.setRing_offers]
    exact ⟨rfl, rfl, rfl⟩
  · have keeps := commitTile_keeps (s.setRelief { s.relief with spill := s.relief.spill.filter (· != sp) }) p sp
    rw [← commitSpill_goesOn hp hl] at keeps
    obtain ⟨hrelief, herr, hoffers⟩ := keeps
    exact ⟨_, execSpillCommit_idle hg hs (by rw [hrelief]; exact ha) (by rw [hrelief]; exact hc), hrelief, herr, hoffers⟩
  · have ready : snapReady s (corrInputs s c).length c sn = true := by
      simp only [snapReady, hg, Bool.not_false, Bool.true_and, Bool.and_eq_true, decide_eq_true_eq, List.all_eq_true]
      exact ⟨hf, ht⟩
    obtain ⟨t, ht, hcorrs, hhbm⟩ := execSnapshotWriteDone_ready h hp hs hd ready
    have follow := followEntry_same t sn.src 0x0310 0 0 0
    obtain ⟨hc, hallocs⟩ := snapEnded_keeps h pr sn
    rw [← State.corr_congr hcorrs, ← State.corr_congr follow.corrs] at hc
    rw [checkStops_running hc hgr hr] at ht
    refine ⟨_, ht, hc, ?_⟩
    rwa [follow.hbm, hhbm]

end Sys2Proof.Machine

/-! ## The grid beside the other units (O54) -/

namespace Sys2Proof.Machine
open Sys2Proof.Safety

/-- The die beside its grid: the grid, the products and their records, the Intake, the lanes, the pair, the trims, the DMA
engines, the host side, the error log and the emissions are put aside. -/
def besideGrid (s : State) : State :=
  { s with out := [], link := Reset.link, err := Reset.err, products := [], intake := Reset.intake, corrs := [],
           relief := Reset.relief, offers := [], pair := Reset.pair, osl := Reset.osl, trims := Reset.trims,
           dma := Reset.dma }

/-- From `s` to `t` nothing changes beside the grid. -/
structure GridFrame (s t : State) : Prop where
  beside : besideGrid t = besideGrid s

section
variable {s t u : State}

theorem GridFrame.refl (s : State) : GridFrame s s := ⟨rfl⟩

theorem GridFrame.trans (a : GridFrame s t) (b : GridFrame t u) : GridFrame s u := ⟨b.beside.trans a.beside⟩

/-- An update of what is put aside. -/
theorem GridFrame.same (h : GridFrame s t) (e : besideGrid u = besideGrid t := by rfl) : GridFrame s u := h.trans ⟨e⟩

theorem GridFrame.of_same (h : GridFrame s t) (k : SameData t u) (b : u.boot = t.boot) : GridFrame s u :=
  h.same (by simp only [besideGrid, k.fresh, k.latches, k.commitHold, k.world, k.maps, k.istore, k.hbm, k.plinth, k.net,
    k.clock, k.power, k.frieze, k.chisel, k.gloss, k.pending, b])

theorem GridFrame.ite {c : Prop} {_ : Decidable c} (a : GridFrame s t) (b : GridFrame s u) :
    GridFrame s (if c then t else u) := by
  split <;> assumption

theorem GridFrame.foldl {α : Type} {g : State → α → State} {l : List α} (h : GridFrame s t)
    (hg : ∀ u x, GridFrame s u → GridFrame s (g u x)) : GridFrame s (l.foldl g t) := by
  induction l generalizing t with
  | nil => exact h
  | cons x l ih => exact ih (hg t x h)

end

/-! ### Records of products -/

section
variable {s t : State}

theorem GridFrame.setProduct (h : GridFrame s t) (pid : Nat) (p : Product) : GridFrame s (t.setProduct pid p) := h.same

theorem GridFrame.setRelief (h : GridFrame s t) (x : Relief) : GridFrame s (t.setRelief x) := h.same

theorem GridFrame.setCorr (h : GridFrame s t) (c : Corr) : GridFrame s (t.setCorr c) := h.same

theorem GridFrame.withErr (h : GridFrame s t) (x : ErrState) : GridFrame s { t with err := x } := h.same

theorem GridFrame.withTrims (h : GridFrame s t) (x : Trims) : GridFrame s { t with trims := x } := h.same

theorem GridFrame.logRecord (h : GridFrame s t) (e : ErrRec) : GridFrame s (logRecord t e) :=
  h.of_same ((SameData.refl t).logRecord e) (logRecord_boot ..)

theorem GridFrame.raiseAttn (h : GridFrame s t) (b : Nat) : GridFrame s (raiseAttn t b) :=
  h.of_same ((SameData.refl t).raiseAttn b) (raiseAttn_boot ..).1

theorem GridFrame.egressAppend (h : GridFrame s t) (e pid seq : Nat) (bs : List Byte) :
    GridFrame s (egressAppend t e pid seq bs) := by
  unfold Machine.egressAppend
  dsimp only
  split
  · exact h
  · exact h.same

theorem GridFrame.handOver (h : GridFrame s t) (r : HeldRec) : GridFrame s (handOver t r) := by
  have offered := fun dests : List Dest => h.foldl (l := dests) fun u d (hu : GridFrame s u) =>
    hu.same (u := pushOffer u
      { dest := d, pid := r.pid, seq := r.seq, rtype := r.rtype, start := r.start, time := r.time, since := none,
        bytes := r.bytes })
  unfold Machine.handOver
  dsimp only
  split
  · exact (offered _).egressAppend ..
  · exact offered _

theorem GridFrame.release (h : GridFrame s t) (r : HeldRec) : GridFrame s (release t r) := by
  unfold Machine.release emittedThrough
  split
  · exact h.handOver r
  · refine .ite h.same ?_
    split
    · exact (h.handOver r).setProduct ..
    · exact h.handOver r

theorem GridFrame.reserveAhead (h : GridFrame s t) (pid : Nat) : GridFrame s (reserveAhead t pid) := by
  unfold Machine.reserveAhead
  split
  · exact h
  · exact .ite h.same h

theorem GridFrame.emitNumbered (h : GridFrame s t) (pid : Nat) (r : RecOut) : GridFrame s (emitNumbered t pid r) := by
  have taken : GridFrame s (takeNumber t pid).1 := by
    unfold takeNumber
    split
    · exact h
    · exact h.setProduct ..
  unfold Machine.emitNumbered sendNumbered
  refine .ite h ?_
  dsimp only
  split
  · exact taken
  · exact ((taken.setProduct ..).release _).reserveAhead _

theorem GridFrame.oweError (h : GridFrame s t) (pid : Nat) (key : Option (Nat × Nat)) (x : LogEntry) :
    GridFrame s (oweError t pid key x) := by
  unfold Machine.oweError
  split
  · exact h
  · exact .ite h (h.setProduct ..)

theorem GridFrame.logForProduct (h : GridFrame s t) (pid : Nat) (e : ErrRec) (a : Affects) :
    GridFrame s (logForProduct t pid e a) := by
  have logged := h.logRecord e
  unfold Machine.logForProduct
  refine .ite ?_ logged
  cases a with
  | nothing => exact logged.emitNumbered ..
  | next => exact logged.oweError ..
  | vis => exact logged.oweError ..
  | beam => exact logged.oweError ..

/-! ### Incidents and class F faults -/

theorem GridFrame.openIncident (h : GridFrame s t) (k : U16) (cls : Cls) (w : World) (b : Bool) (r d : Nat) (n : Bool) :
    GridFrame s (openIncident t k cls w b r d n).1 := (h.withErr _).logRecord _

theorem GridFrame.escalate (h : GridFrame s t) (id k : U16) (b : Bool) : GridFrame s (escalate t id k b) := by
  unfold Machine.escalate
  split
  · exact h
  · exact .ite h ((h.withErr _).logRecord _)

theorem GridFrame.faultSteps (h : GridFrame s t) (k id : U16) : GridFrame s (faultSteps t k id) := by
  unfold Machine.faultSteps setFaultN
  exact (GridFrame.ite h.same h.same).raiseAttn _

theorem GridFrame.classF (h : GridFrame s t) (k : U16) (w : World) (b : Bool) (r d : Nat) :
    GridFrame s (classF t k w b r d) := by
  unfold Machine.classF
  split
  · exact ((h.withErr _).logRecord _).faultSteps ..
  · exact (h.openIncident ..).faultSteps ..

/-! ### Stalls, super-tiles and channel-dwells -/

theorem GridFrame.endStageStall (h : GridFrame s t) : GridFrame s (endStageStall t) := by
  unfold Machine.endStageStall
  split
  · exact h
  · exact h.setRelief _

theorem GridFrame.endDrainStall (h : GridFrame s t) : GridFrame s (endDrainStall t) := by
  unfold Machine.endDrainStall
  split
  · exact h
  · exact h
  · exact h.setRelief _

theorem GridFrame.startTile (h : GridFrame s t) : GridFrame s (startTile t) := by
  unfold Machine.startTile
  split
  · exact h
  · dsimp only
    split
    · exact .ite (h.endStageStall.setRelief _) (.ite h (h.setRelief _))
    · exact h

theorem GridFrame.restage (h : GridFrame s t) : GridFrame s (restage t) := h.setRelief _

theorem GridFrame.trySwap (h : GridFrame s t) : GridFrame s (trySwap t) := by
  unfold Machine.trySwap
  split
  · exact h
  · split
    · exact h.setRelief _
    · exact .ite h (.ite (h.endDrainStall.setRelief _).restage.startTile (.ite h (h.setRelief _)))

theorem GridFrame.finishDwell (h : GridFrame s t) (cd : ChanDwell) : GridFrame s (finishDwell t cd) := by
  unfold Machine.finishDwell
  dsimp only
  split
  · exact .ite ((h.setRelief _).setCorr _) (h.setRelief _)
  · exact h.setRelief _

theorem GridFrame.startDwell (h : GridFrame s t) : GridFrame s (startDwell t) := by
  unfold Machine.startDwell
  split
  · exact h
  · refine (GridFrame.restage ?_).startTile
    split
    · exact (h.setRelief _).setCorr _
    · exact h.setRelief _

theorem GridFrame.applyCellWords (h : GridFrame s t) : GridFrame s (applyCellWords t) := by
  unfold Machine.applyCellWords
  split
  · exact h
  · refine .ite h (.withTrims (.foldl (.foldl h fun u x hu => ?_) fun u x hu => .ite (hu.setRelief _) hu) _)
    exact .ite ((hu.setRelief _).withTrims _) (hu.setRelief _)

/-! ### Bypass, fence and the outcome of a comparison -/

theorem GridFrame.makeChange (h : GridFrame s t) (i : RepInc) : GridFrame s (makeChange t i) := by
  unfold Machine.makeChange
  dsimp only
  split
  · exact h.setRelief _
  · exact .ite (h.setRelief _) (.ite (h.setRelief _) (h.classF ..))
  · exact h

theorem GridFrame.makeChanges (h : GridFrame s t) : GridFrame s (makeChanges t) :=
  .ite h (h.foldl fun _ _ hu => hu.makeChange _)

theorem GridFrame.toSpill (h : GridFrame s t) (x : Tile) (b : Bool) (l : List CellErr) : GridFrame s (toSpill t x b l) :=
  h.setRelief _

theorem GridFrame.closeRepair (h : GridFrame s t) (i : RepInc) (k : U16) (cls : Cls) (d : Nat) :
    GridFrame s (closeRepair t i k cls d) := by
  unfold Machine.closeRepair
  refine .ite (h.setRelief _) ?_
  split
  · exact h.setRelief _
  · exact ((h.setRelief _).withErr _).logForProduct ..

theorem GridFrame.dropTile (h : GridFrame s t) (x : Tile) (i : Option RepInc) : GridFrame s (dropTile t x i) := by
  refine .ite (h.classF ..) (.toSpill (.setRelief ?_ _) _ _ _)
  cases i with
  | some i => exact h.closeRepair ..
  | none => exact h.logForProduct ..

theorem GridFrame.firstMismatch (h : GridFrame s t) (x : Tile) (l : List CellErr) (b : Bool) :
    GridFrame s (firstMismatch t x l b) :=
  .ite ((h.setRelief _).dropTile ..) (((h.setRelief _).openIncident ..).setRelief _)

theorem GridFrame.showLocalised (h : GridFrame s t) (id : U16) (l : Localised) : GridFrame s (showLocalised t id l) :=
  h.setRelief _

theorem GridFrame.retryMismatch (h : GridFrame s t) (i : RepInc) (l : List CellErr) (b : Bool) :
    GridFrame s (retryMismatch t i l b) := by
  have escalated := fun persistent => h.escalate i.id 0x0300 persistent
  unfold Machine.retryMismatch
  dsimp only
  split
  · exact .ite ((escalated _).classF ..) (((escalated _).showLocalised ..).setRelief _).makeChanges
  · exact ((escalated _).showLocalised ..).dropTile ..

theorem GridFrame.recomputeMismatch (h : GridFrame s t) (i : RepInc) : GridFrame s (recomputeMismatch t i) := by
  unfold Machine.recomputeMismatch
  exact .dropTile (.ite (h.showLocalised ..) h) _ _

theorem GridFrame.retryMatch (h : GridFrame s t) (i : RepInc) (l : List CellErr) : GridFrame s (retryMatch t i l) :=
  ((h.setRelief _).closeRepair ..).toSpill ..

theorem GridFrame.recomputeMatch (h : GridFrame s t) (i : RepInc) (b : Bool) (l : List CellErr) :
    GridFrame s (recomputeMatch t i b l) :=
  (GridFrame.closeRepair (.ite h (h.setRelief _)) _ _ _ _).toSpill ..

theorem GridFrame.compareRun (h : GridFrame s t) (run : Run) (l : List CellErr) (selfOk operandErr : Bool) :
    GridFrame s (compareRun t run l selfOk operandErr) := by
  have spent : GridFrame s (spendInjects t) := h.setRelief _
  unfold Machine.compareRun
  dsimp only
  split
  · exact .ite (spent.toSpill ..) (spent.firstMismatch ..)
  · exact .ite (spent.classF ..) (.ite (spent.retryMatch ..) (spent.retryMismatch ..))
  · exact .ite (spent.recomputeMatch ..) (spent.recomputeMismatch _)
  · exact spent

end

/-- An event of the grid changes nothing beside the grid. -/
theorem gridEvent_frame {c : Instr} {s t : State} (hc : gridEvent c = true) (e : exec c s = .next t) : GridFrame s t := by
  have h := GridFrame.refl s
  cases c
  case cornerTurnHalfFree set half =>
    cases e
    split
    · exact h.same
    · exact h
  case channelDwellFinish =>
    cases e
    refine .ite h ?_
    split
    · exact h.applyCellWords.startDwell
    · exact .ite (h.finishDwell _).applyCellWords.startDwell h
  case stageBlockLoadDone col block => cases e; exact .ite h (h.setRelief _).startTile
  case superTileEnd =>
    cases e
    split
    · split
      · exact (h.setRelief _).trySwap
      · exact h.setRelief _
    · exact h
  case narrowFold =>
    cases e
    split
    · split
      · exact .ite (h.setRelief _) h
      · exact h
    · exact h
  case preemptionPoint =>
    cases e
    split
    · dsimp only
      split
      · exact h.endDrainStall.setRelief _
      · exact h.setRelief _
    · exact h
  case contextSaveDone slot =>
    cases e
    split
    · exact (h.setRelief _).makeChanges
    · exact h
  case contextRestoreDone slot =>
    cases e
    split
    · exact .ite (h.setRelief _).trySwap h
    · exact h
  case repairWorkStart =>
    have changed : GridFrame s (if gated s then s else makeChanges s) := .ite h h.makeChanges
    cases e
    refine .ite changed ?_
    split
    · exact changed
    · split
      · exact changed
      · exact changed
      · exact changed.endStageStall.setRelief _
  case drainCompare errs selfCheck operandErr =>
    cases e
    split
    · have compared := fun run rest => (h.setRelief { s.relief with drain := rest }).compareRun run errs selfCheck operandErr
      exact (GridFrame.ite (compared ..) (compared ..).makeChanges).trySwap.startTile
    · exact h
  all_goals cases hc

end Sys2Proof.Machine

/-! ## The HBM controller beside the other units (O54) -/

namespace Sys2Proof.Machine
open Sys2Proof.Safety

theorem mem_setIns {x a : Nat} {l : List Nat} : x ∈ setIns a l ↔ x = a ∨ x ∈ l := by
  induction l with
  | nil => simp [setIns]
  | cons k l ih =>
    unfold setIns
    split
    · exact List.mem_cons
    · split
      · next h => rw [h, List.mem_cons, ← or_assoc, or_self]
      · rw [List.mem_cons, ih, List.mem_cons, or_left_comm]

/-- The byte of an address is poisoned where its word is. -/
theorem poisoned_byte (s : State) (a : Nat) : poisoned s a (a + 1) = true ↔ a / 8 ∈ s.hbm.poison := by
  simp only [poisoned, List.any_eq_true, Bool.and_eq_true, decide_eq_true_eq]
  constructor
  · rintro ⟨w, hw, h1, h2⟩
    rwa [show a / 8 = w by omega]
  · exact fun h => ⟨a / 8, h, by omega, by omega⟩

/-- A store clears no poison of a word that it does not cover whole. -/
theorem store_keeps_poison {s : State} {addr w : Nat} {bs : List Byte} (h : w ∈ s.hbm.poison)
    (hw : ¬ (addr ≤ 8 * w ∧ 8 * w + 8 ≤ addr + bs.length)) : w ∈ (s.store addr bs).hbm.poison := by
  have kept : ∀ {t : State} {lo : Nat} {l : List Byte}, t.hbm.poison = s.hbm.poison → addr ≤ lo →
      lo + l.length ≤ addr + bs.length → w ∈ (putClear t lo l).hbm.poison := by
    intro t lo l ht hlo hhi
    have hp : w ∈ t.hbm.poison := ht ▸ h
    simp only [putClear, clearPoison, List.mem_filter, hp, true_and, Bool.not_eq_true', Bool.and_eq_false_iff,
      decide_eq_false_iff_not]
    omega
  unfold State.store
  refine ite_ind (P := fun t : State => w ∈ t.hbm.poison) (kept rfl (Nat.le_refl _) (Nat.le_refl _)) (kept rfl ?_ ?_)
  · split <;> omega
  · simp only [List.length_take, List.length_drop]
    split <;> split <;> omega

/-- The pair but for the completions it holds. -/
def beyondHeld (p : Pair) : Pair := { p with heldCompletions := [] }

/-- The die beside its HBM controller: the controller, the worlds, the boot state, the completions held, the host side, the
error log and the emissions are put aside. -/
def besideHbm (s : State) : State :=
  { s with out := [], link := Reset.link, world := Reset.world, err := Reset.err, hbm := Reset.hbm, boot := Reset.boot,
           pair := beyondHeld s.pair }

/-- From `s` to `t` nothing changes beside the HBM controller, and a spared byte only where its word is poisoned after it; where
the controller is quiet no byte changes. -/
structure HbmFrame (quiet : Prop) (spared : Nat → Prop) (s t : State) : Prop where
  beside : besideHbm t = besideHbm s
  pair : t.pair = s.pair
  byte : ∀ a, spared a → memGet a t.hbm.mem = memGet a s.hbm.mem ∨ a / 8 ∈ t.hbm.poison
  poison : ∀ a, spared a → a / 8 ∈ s.hbm.poison → a / 8 ∈ t.hbm.poison
  mem : quiet → t.hbm.mem = s.hbm.mem

section
variable {quiet : Prop} {spared : Nat → Prop} {s t u : State}

theorem HbmFrame.refl (s : State) : HbmFrame quiet spared s s :=
  ⟨rfl, rfl, fun _ _ => .inl rfl, fun _ _ => id, fun _ => rfl⟩

theorem HbmFrame.trans (h : HbmFrame quiet spared s t) (k : HbmFrame quiet spared t u) : HbmFrame quiet spared s u where
  beside := k.beside.trans h.beside
  pair := k.pair.trans h.pair
  byte a ha := (k.byte a ha).elim (fun e => (h.byte a ha).imp e.trans (k.poison a ha)) .inr
  poison a ha p := k.poison a ha (h.poison a ha p)
  mem q := (k.mem q).trans (h.mem q)

/-- An update of what is put aside, but for the bytes and the poison. -/
theorem HbmFrame.same (h : HbmFrame quiet spared s t) (e : besideHbm u = besideHbm t := by rfl) (r : u.pair = t.pair := by rfl)
    (m : u.hbm.mem = t.hbm.mem := by rfl) (p : u.hbm.poison = t.hbm.poison := by rfl) : HbmFrame quiet spared s u :=
  h.trans ⟨e, r, fun _ _ => .inl (by rw [m]), fun _ _ w => by rwa [p], fun _ => m⟩

theorem besideHbm_of_same (k : SameData t u) (r : beyondHeld u.pair = beyondHeld t.pair) :
    besideHbm u = besideHbm t := by
  simp only [besideHbm, k.fresh, k.latches, k.commitHold, k.products, k.intake, k.maps, k.corrs, k.relief, k.istore,
    k.offers, k.osl, k.plinth, k.net, k.clock, k.trims, k.dma, k.power, k.frieze, k.chisel, k.gloss, k.pending, r]

theorem HbmFrame.of_same (h : HbmFrame quiet spared s t) (k : SameData t u) (r : u.pair = t.pair) : HbmFrame quiet spared s u :=
  h.same (besideHbm_of_same k (by rw [r])) r (by rw [k.hbm]) (by rw [k.hbm])

theorem HbmFrame.ite {c : Prop} {_ : Decidable c} (h : HbmFrame quiet spared s t) (k : HbmFrame quiet spared s u) :
    HbmFrame quiet spared s (if c then t else u) := by
  split <;> assumption

theorem HbmFrame.foldl {α : Type} {g : State → α → State} {l : List α} (h : HbmFrame quiet spared s t)
    (hg : ∀ u, ∀ x ∈ l, HbmFrame quiet spared s u → HbmFrame quiet spared s (g u x)) : HbmFrame quiet spared s (l.foldl g t) := by
  induction l generalizing t with
  | nil => exact h
  | cons x l ih => exact ih (hg t x (List.mem_cons_self ..) h) fun u y hy => hg u y (List.mem_cons_of_mem _ hy)

end

/-! ### Rows, pages and refresh -/

section
variable {quiet : Prop} {spared : Nat → Prop} {s t : State}

/-- An update of the controller, but for the bytes and the poison. -/
theorem HbmFrame.setHbm (h : HbmFrame quiet spared s t) (x : Hbm) (m : x.mem = t.hbm.mem := by rfl)
    (p : x.poison = t.hbm.poison := by rfl) : HbmFrame quiet spared s { t with hbm := x } := h.same rfl rfl m p

theorem HbmFrame.setStack (h : HbmFrame quiet spared s t) (i : Nat) (x : Stack) : HbmFrame quiet spared s (t.setStack i x) :=
  h.same

theorem HbmFrame.setPcAt (h : HbmFrame quiet spared s t) (k : Nat) (x : Pc) : HbmFrame quiet spared s (t.setPcAt k x) := h.same

theorem HbmFrame.setBankAt (h : HbmFrame quiet spared s t) (k : Nat) (x : Bank) : HbmFrame quiet spared s (t.setBankAt k x) :=
  h.same

theorem HbmFrame.raiseDev (h : HbmFrame quiet spared s t) (k : U16) (cls : Cls) (r d : Nat) :
    HbmFrame quiet spared s (raiseDev t k cls r d) := h.of_same ((SameData.refl t).logRecord _) (logRecord_pair ..)

theorem HbmFrame.raise (h : HbmFrame quiet spared s t) (k : U16) (cls : Cls) (w : World) (r d : Nat) :
    HbmFrame quiet spared s (raise t k cls w r d) := h.of_same ((SameData.refl t).logRecord _) (logRecord_pair ..)

theorem HbmFrame.raiseWord (h : HbmFrame quiet spared s t) (k : U16) (cls : Cls) (addr : Nat) :
    HbmFrame quiet spared s (raiseWord t k cls addr) := by
  unfold Machine.raiseWord
  split
  · exact h.raise ..
  · exact h.raiseDev ..

theorem HbmFrame.activateRow (h : HbmFrame quiet spared s t) (stack key row : Nat) :
    HbmFrame quiet spared s (activateRow t stack key row).1 := by
  unfold Machine.activateRow
  dsimp only
  split
  · exact h
  · split
    · exact h.setBankAt ..
    · exact (h.setBankAt ..).setHbm _

theorem HbmFrame.activateAll (stack key fuel : Nat) (rows : List Nat) (h : HbmFrame quiet spared s t) :
    HbmFrame quiet spared s (activateAll stack key fuel rows t) := by
  induction fuel generalizing rows t with
  | zero => exact h
  | succ fuel ih =>
    cases rows with
    | nil => exact h
    | cons r rest => exact ih _ (h.activateRow ..)

theorem HbmFrame.reachRow (h : HbmFrame quiet spared s t) (p : HbmPlace) : HbmFrame quiet spared s (reachRow t p) := by
  have reached : ∀ b x, HbmFrame quiet spared s ((t.setBankAt (bankKey p) b).setStack p.stack x) :=
    fun b x => (h.setBankAt _ b).setStack _ x
  exact .ite (reached _ _) ((reached _ _).activateAll ..)

theorem HbmFrame.decidePage (h : HbmFrame quiet spared s t) (key : Nat) (pending : List HbmPlace) :
    HbmFrame quiet spared s (decidePage t key pending) := by
  unfold Machine.decidePage
  dsimp only
  split
  · exact h
  · refine .ite h ?_
    split <;> exact h.setBankAt ..

theorem HbmFrame.precharge (h : HbmFrame quiet spared s t) (key : Nat) : HbmFrame quiet spared s (precharge t key) := h.same

theorem HbmFrame.setDebt (h : HbmFrame quiet spared s t) (stack key d : Nat) :
    HbmFrame quiet spared s (setDebt t stack key d) := by
  exact (HbmFrame.ite (h.setPcAt ..) (((h.setPcAt ..).setHbm _).precharge key)).setStack ..

theorem HbmFrame.debtTick (h : HbmFrame quiet spared s t) (stack : Nat) : HbmFrame quiet spared s (debtTick t stack) :=
  .ite h (h.foldl fun _ _ _ k => k.setDebt ..)

theorem HbmFrame.refreshIssue (h : HbmFrame quiet spared s t) (stack pc : Nat) :
    HbmFrame quiet spared s (refreshIssue t stack pc) :=
  .ite h ((h.setPcAt ..).precharge _)

theorem HbmFrame.actClear (h : HbmFrame quiet spared s t) (stack : Nat) : HbmFrame quiet spared s (actClear t stack) := h.same

theorem HbmFrame.pcDown (h : HbmFrame quiet spared s t) (stack pc : Nat) : HbmFrame quiet spared s (pcDown t stack pc) :=
  .ite h (h.setPcAt ..)

end

/-! ### Errors of words -/

section
variable {quiet : Prop} {spared : Nat → Prop} {s t : State}

/-- A poisoned word is written where the controller is not quiet: its bytes are those that the frame excepts. -/
theorem HbmFrame.poisonWord (h : HbmFrame quiet spared s t) (hq : ¬ quiet) (addr : Nat) :
    HbmFrame quiet spared s (poisonWord t addr) := by
  refine h.trans ⟨rfl, rfl, fun a _ => ?_, fun _ _ p => mem_setIns.mpr (.inr p), fun q => absurd q hq⟩
  by_cases hw : a / 8 = addr / 8
  · exact .inr (mem_setIns.mpr (.inl hw))
  · refine .inl (memGet_memPutBytes_out _ _ _ ?_)
    simp only [zeros, List.length_replicate]
    omega

theorem HbmFrame.poisonCounted (h : HbmFrame quiet spared s t) (hq : ¬ quiet) (addr : Nat) :
    HbmFrame quiet spared s (poisonCounted t addr) := (h.poisonWord hq addr).same

theorem HbmFrame.readOutcome (h : HbmFrame quiet spared s t) (stack addr : Nat) {outcome : Nat} (scrub : Bool)
    (hq : quiet → outcome ≠ 3) : HbmFrame quiet spared s (readOutcome t stack addr outcome scrub) := by
  unfold Machine.readOutcome
  refine .ite (.ite h (h.setHbm _)) ?_
  split
  · exact (h.setHbm _).raiseWord ..
  · exact (h.setHbm _).raiseWord ..
  · have struck : HbmFrame quiet spared s (Machine.poisonCounted t addr) := h.poisonCounted (fun q => hq q rfl) addr
    exact (HbmFrame.ite struck (struck.setHbm _)).raiseWord ..
  · exact (h.setStack ..).raiseDev ..
  · exact h

theorem HbmFrame.parityOutcome (h : HbmFrame quiet spared s t) (stack : Nat) (words : List Nat) {clean : Bool}
    (hq : quiet → clean = true) : HbmFrame quiet spared s (parityOutcome t stack words clean) := by
  unfold Machine.parityOutcome
  dsimp only
  split
  · exact (h.setStack ..).raiseDev ..
  · next replay => exact ((h.setStack ..).foldl fun _ w _ k => k.poisonCounted (fun q => replay (hq q)) w).raiseDev ..

/-! ### Requests, drains and trainings -/

theorem HbmFrame.noteOrder (h : HbmFrame quiet spared s t) (key : Nat) (matched : Bool) :
    HbmFrame quiet spared s (noteOrder t key matched) := by
  unfold Machine.noteOrder
  dsimp only
  split
  · exact .ite (h.setPcAt ..) h
  · exact .ite h ((h.setPcAt ..).setHbm _)

theorem HbmFrame.serveRequest (h : HbmFrame quiet spared s t) (stack : Nat) (r : HbmReq) (p : HbmPlace) {ecc : Nat}
    (he : quiet → ecc % 8 = 0) : HbmFrame quiet spared s (serveRequest t stack r p ecc) := by
  unfold Machine.serveRequest
  dsimp only
  split
  · exact (h.reachRow p).parityOutcome _ _ fun _ => rfl
  · next e => exact (h.reachRow p).parityOutcome _ _ fun q => absurd ((he q).symm.trans e) (by decide)
  · exact .ite ((h.reachRow p).readOutcome _ _ _ fun q => by rw [he q]; decide) (h.reachRow p)

theorem HbmFrame.serveOne (h : HbmFrame quiet spared s t) (stack pc : Nat) {ecc : Nat} (he : quiet → ecc % 8 = 0) :
    HbmFrame quiet spared s (serveOne t stack pc ecc) := by
  unfold Machine.serveOne
  dsimp only
  split
  · exact h.noteOrder ..
  · exact ((((h.noteOrder ..).setPcAt ..).serveRequest _ _ _ he).noteOrder ..).decidePage ..

theorem HbmFrame.wakeStacks (h : HbmFrame quiet spared s t) : HbmFrame quiet spared s (wakeStacks t) := h.same

theorem HbmFrame.touchHbm (h : HbmFrame quiet spared s t) (addr n : Nat) : HbmFrame quiet spared s (touchHbm t addr n) := h.same

theorem HbmFrame.hbmServe (h : HbmFrame quiet spared s t) (stack pc : Nat) (arrivals : List HbmReq) {ecc : Nat}
    (he : quiet → ecc % 8 = 0) : HbmFrame quiet spared s (hbmServe t stack pc arrivals ecc) :=
  .ite h (.ite (h.setPcAt ..) (((h.setPcAt ..).setPcAt ..).wakeStacks.serveOne _ _ he))

theorem HbmFrame.scrubRead (h : HbmFrame quiet spared s t) {ecc : Nat} (he : quiet → ecc % 8 ≠ 3) :
    HbmFrame quiet spared s (scrubRead t ecc) := by
  unfold Machine.scrubRead
  refine .ite h (HbmFrame.setHbm ?_ _)
  split
  · exact (h.touchHbm ..).readOutcome _ _ _ he
  · exact h

theorem HbmFrame.drainQueues (h : HbmFrame quiet spared s t) : HbmFrame quiet spared s (drainQueues t) :=
  h.foldl fun _ _ _ k => k.foldl fun _ _ _ k => k.serveOne _ _ fun _ => rfl

theorem HbmFrame.settleHbm (h : HbmFrame quiet spared s t) : HbmFrame quiet spared s (settleHbm t) := h.drainQueues.same

theorem HbmFrame.toSelfRefresh (h : HbmFrame quiet spared s t) : HbmFrame quiet spared s (toSelfRefresh t) := h.same

theorem HbmFrame.startRateChange (h : HbmFrame quiet spared s t) : HbmFrame quiet spared s (startRateChange t) :=
  h.settleHbm.toSelfRefresh.same

theorem HbmFrame.sleepStacks (h : HbmFrame quiet spared s t) : HbmFrame quiet spared s (sleepStacks t) :=
  h.settleHbm.toSelfRefresh.same

theorem HbmFrame.startRetrain (h : HbmFrame quiet spared s t) : HbmFrame quiet spared s (startRetrain t) := .ite h (h.setHbm _)

theorem HbmFrame.retrainStep (h : HbmFrame quiet spared s t) (low : Option (Fin 6)) :
    HbmFrame quiet spared s (retrainStep t low) := by
  unfold Machine.retrainStep
  refine .ite h (.ite (h.setHbm _).startRateChange ?_)
  cases low with
  | none => exact .ite (h.setHbm _) (h.setHbm _)
  | some x => exact .ite (((h.setHbm _).raiseDev ..).setHbm _) (((h.setHbm _).raiseDev ..).setHbm _)

theorem HbmFrame.tempRead (h : HbmFrame quiet spared s t) (stack temp : Nat) :
    HbmFrame quiet spared s (tempRead t stack temp) := by
  have paid : ∀ x, HbmFrame quiet spared s
      ((stackKeys stack).foldl (fun t k => Machine.setDebt t stack k (t.pcAt k).debt) (t.setStack stack x)) :=
    fun x => (h.setStack stack x).foldl fun _ _ _ k => k.setDebt ..
  have told : ∀ {u : State} (b : Bool), HbmFrame quiet spared s u →
      HbmFrame quiet spared s (if b = true then Machine.raiseDev u 0x0809 .l stack 0 else u) :=
    fun _ k => .ite (k.raiseDev ..) k
  exact .ite h (.ite (told _ (paid _)).startRetrain (told _ (paid _)))

end
/-! ### What a data-rate change held (10 R331) -/

section
variable {spared : Nat → Prop} {s t : State}

theorem HbmFrame.store (h : HbmFrame False spared s t) {addr : Nat} {bs : List Byte}
    (hb : ∀ a, spared a → a < addr ∨ addr + bs.length ≤ a) : HbmFrame False spared s (t.store addr bs) := by
  refine h.trans ⟨by rw [State.store_hbmOnly]; rfl, State.store_pair .., fun a ha => .inl (State.store_out_of_range t (hb a ha)),
    fun a ha p => store_keeps_poison p ?_, False.elim⟩
  have := hb a ha
  omega

theorem HbmFrame.storeWord (h : HbmFrame False spared s t) {addr : Nat} {bs : List (Byte × Bool)}
    (hb : ∀ a, spared a → a < addr ∨ addr + bs.length ≤ a) : HbmFrame False spared s (storeWord t addr bs).1 := by
  unfold Machine.storeWord
  split
  · exact h.poisonWord id addr
  · split
    · exact h.setHbm _
    · exact h.store (by rwa [List.length_map])

theorem HbmFrame.storeMarked (fuel : Nat) (h : HbmFrame False spared s t) {addr : Nat} {bs : List (Byte × Bool)}
    (hb : ∀ a, spared a → a < addr ∨ addr + bs.length ≤ a) : HbmFrame False spared s (storeMarked fuel t addr bs).1 := by
  induction fuel generalizing t addr bs with
  | zero => exact h
  | succ fuel ih =>
    unfold Machine.storeMarked
    split
    · exact h
    · refine ih (h.storeWord fun a ha => ?_) fun a ha => ?_
      · have := hb a ha
        rw [List.length_take]
        omega
      · have := hb a ha
        rw [List.length_drop]
        omega

theorem HbmFrame.readErrors (h : HbmFrame False spared s t) (lo hi : Nat) (ecc : List (Nat × Nat)) :
    HbmFrame False spared s (readErrors t lo hi ecc) := by
  refine h.foldl fun _ _ _ k => ?_
  split
  · split
    · exact k.parityOutcome _ _ False.elim
    · exact k.parityOutcome _ _ False.elim
    · exact k.readOutcome _ _ _ False.elim
  · exact k

theorem HbmFrame.mergeErrors (h : HbmFrame False spared s t) (lo hi : Nat) (ecc : List (Nat × Nat)) :
    HbmFrame False spared s (mergeErrors t lo hi ecc) := h.foldl fun _ _ _ k => k.readErrors ..

theorem HbmFrame.writeErrors (h : HbmFrame False spared s t) (lo hi : Nat) (ecc : List (Nat × Nat)) :
    HbmFrame False spared s (writeErrors t lo hi ecc) := by
  refine h.foldl fun _ _ _ k => ?_
  dsimp only
  split
  · exact k.parityOutcome _ _ False.elim
  · exact k

theorem HbmFrame.readWords (h : HbmFrame False spared s t) (lo hi : Nat) (ecc : List (Nat × Nat)) :
    HbmFrame False spared s (readWords t lo hi ecc) := ((h.touchHbm ..).readErrors ..).setHbm _

theorem HbmFrame.writeWords (h : HbmFrame False spared s t) {addr : Nat} {bs : List (Byte × Bool)} (ecc : List (Nat × Nat))
    (hb : ∀ a, spared a → a < addr ∨ addr + bs.length ≤ a) : HbmFrame False spared s (writeWords t addr bs ecc).1 :=
  (((h.touchHbm ..).mergeErrors ..).storeMarked _ hb).writeErrors ..

theorem HbmFrame.bar2Serve (h : HbmFrame False spared s t) (x : HeldAccess)
    (hb : ∀ a, spared a → ∀ b, x.bytes = some b → a < x.addr ∨ x.addr + b.length ≤ a) :
    HbmFrame False spared s (bar2Serve t x) := by
  unfold Machine.bar2Serve
  split
  · exact (h.readWords ..).same
  · next b e => exact h.writeWords _ fun a ha => by rw [List.length_map]; exact hb a ha b e

theorem HbmFrame.serveHeld (h : HbmFrame False spared s t)
    (hb : ∀ a, spared a → ∀ x ∈ t.hbm.held, ∀ b, x.bytes = some b → a < x.addr ∨ x.addr + b.length ≤ a) :
    HbmFrame False spared s (serveHeld t) :=
  (h.setHbm _).foldl fun _ x hx k => k.bar2Serve x fun a ha => hb a ha x hx

theorem HbmFrame.storeSettings (h : HbmFrame False spared s t) (x : Settings) :
    HbmFrame False spared s (storeSettings t x) := by
  have programmed : ∀ c, HbmFrame False spared s (programSettings t c) := by
    intro c
    unfold programSettings
    exact h.same
  exact .ite h.same (programmed _)

end

/-- A byte that no write held names. -/
def outsideHeld (s : State) (a : Nat) : Prop :=
  ∀ x ∈ s.hbm.held, ∀ b, x.bytes = some b → a < x.addr ∨ x.addr + b.length ≤ a

theorem followEntry_beyondHeld (s : State) (src : Src) (op k a b : Nat) :
    beyondHeld (followEntry s src op k a b).pair = beyondHeld s.pair := by
  unfold followEntry
  split
  · rfl
  · exact ite_ind (P := fun t : State => beyondHeld t.pair = beyondHeld s.pair) rfl
      (ite_ind (P := fun t : State => beyondHeld t.pair = beyondHeld s.pair)
        (congrArg beyondHeld ((flushQueue_pair ..).trans (State.setQp_pair ..))) (congrArg beyondHeld (State.setQp_pair ..)))

/-- The end of a data-rate change: what it held is served and the settings are stored; then a follow entry may be owed. -/
theorem rateChangeDone_frame (s : State) :
    ∃ u, SameData u (rateChangeDone s) ∧ beyondHeld (rateChangeDone s).pair = beyondHeld u.pair ∧
      HbmFrame False (outsideHeld s) s u := by
  have idle : HbmFrame False (outsideHeld s) s s := .refl s
  unfold rateChangeDone
  split
  · exact ⟨s, .refl s, rfl, idle⟩
  · split
    · exact ⟨s, .refl s, rfl, idle⟩
    · have served : ∀ {h : Hbm} {x : Settings}, h.mem = s.hbm.mem → h.poison = s.hbm.poison → h.held = s.hbm.held →
          HbmFrame False (outsideHeld s) s (storeSettings (serveHeld (wakeStacks { s with hbm := h })) x) :=
        fun hm hp hh => ((idle.setHbm _ hm hp).wakeStacks.serveHeld fun a ha x hx => ha x (hh ▸ hx)).storeSettings _
      dsimp only
      split
      · exact ⟨_, followEntry_same .., followEntry_beyondHeld .., served rfl rfl rfl⟩
      · exact ⟨_, .refl _, rfl, served rfl rfl rfl⟩

/-! ### The statement -/

/-- An event of the HBM controller, but for the end of a rate change. -/
theorem memoryEvent_frame {c : Instr} {s t : State} (hc : memoryEvent c = true) (hr : c ≠ .hbmRateChangeDone)
    (e : exec c s = .next t) : HbmFrame (keepsBytes c = true) (fun _ => poisonsWords c = true) s t := by
  have idle : HbmFrame (keepsBytes c = true) (fun _ => poisonsWords c = true) s s := .refl s
  cases c
  case hbmRequestServe stack pc arrivals ecc => cases e; exact idle.hbmServe _ _ _ nofun
  case refreshDebtTick stack => cases e; exact idle.debtTick _
  case refreshIssue stack pc => cases e; exact idle.refreshIssue ..
  case hbmTempRead stack temp => cases e; exact idle.tempRead ..
  case actTableClear stack => cases e; exact idle.actClear _
  case patrolScrubRead ecc => cases e; exact idle.scrubRead nofun
  case retrainTimer => cases e; exact .ite idle.startRetrain idle
  case retrainStepDone low => cases e; exact idle.retrainStep low
  case pcPowerdownIdle stack pc => cases e; exact idle.pcDown ..
  case selfRefreshIdle => cases e; exact .ite idle.sleepStacks idle
  case hbmRateChangeDone => exact absurd rfl hr
  case granuleZeroFillDone =>
    cases e
    split
    · exact ⟨rfl, rfl, nofun, nofun, nofun⟩
    · exact idle
  all_goals cases hc

/-- What lies beside the controller after each of its events. -/
theorem memoryEvent_beside {c : Instr} {s t : State} (hc : memoryEvent c = true) (e : exec c s = .next t) :
    besideHbm t = besideHbm s := by
  by_cases hr : c = .hbmRateChangeDone
  · subst hr
    cases e
    obtain ⟨u, followed, hpair, served⟩ := rateChangeDone_frame s
    exact (besideHbm_of_same followed hpair).trans served.beside
  · exact (memoryEvent_frame hc hr e).beside

/-- Settles O54: each grid event keeps what `besideGrid` leaves, each event of the controller what `besideHbm` leaves; the bytes
follow through what may poison a word and what a rate change held. -/
theorem gridAndMemoryFrame : Obligations.GridAndMemoryFrame := by
  unfold Obligations.GridAndMemoryFrame
  intro c s t e
  refine ⟨fun hc => ?_, fun hc => ?_⟩
  · have same : ∀ {β : Type} (f : State → β), f (besideGrid t) = f (besideGrid s) :=
      fun f => congrArg f (gridEvent_frame hc e).beside
    exact ⟨same State.fresh, same State.latches, same State.world, same State.maps, same State.istore, same State.hbm,
      same State.plinth, same State.net, same State.clock, same State.boot, same State.power, same State.frieze,
      same State.chisel, same State.gloss, same State.commitHold, same State.pending⟩
  · have same : ∀ {β : Type} (f : State → β), f (besideHbm t) = f (besideHbm s) :=
      fun f => congrArg f (memoryEvent_beside hc e)
    have frame := fun hr => memoryEvent_frame hc hr e
    refine ⟨same State.fresh, same State.latches, same State.products, same State.intake, same State.maps,
      same State.corrs, same State.relief, same State.istore, same State.offers,
      same fun u => { u.pair with heldCompletions := t.pair.heldCompletions }, fun hr => (frame hr).pair,
      same State.osl, same State.plinth, same State.net, same State.clock, same State.trims, same State.dma,
      same State.power, same State.frieze, same State.chisel, same State.gloss, same State.commitHold, same State.pending,
      fun hk => (frame ?_).mem hk, fun hp _ a => ((frame ?_).byte a hp).imp_right (poisoned_byte t a).mpr, fun hr _ a ha => ?_⟩
    · rintro rfl; cases hk
    · rintro rfl; cases hp
    · subst hr
      cases e
      obtain ⟨u, followed, -, served⟩ := rateChangeDone_frame s
      rw [poisoned_byte, followed.hbm]
      exact served.byte a ha

end Sys2Proof.Machine

/-! ## The BEAM Clauses (O16) -/

namespace Sys2Proof.Machine
open Sys2Proof.Safety

section
variable {s : State} {pid : Nat} {p : Product} {x : FzProd}

/-- `clause_done` for the command: its `exec` is the Clause run on its body. -/
theorem exec_done {i : Instr} {c : Clause} {body : State → Result} {P : State → Prop} (he : exec i s = runClause i s body)
    (hc : clauseOf i = some c) (h : serves s i = true) (ha : accepts (body (untake s c.src)) = true)
    (hP : ∀ u r, body (untake s c.src) = .ok (u, r) → SameData u (answered c.src c.opcode u r) →
      P (answered c.src c.opcode u r)) : ∃ t, exec i s = .next t ∧ P t :=
  he ▸ clause_done hc h ha hP

/-! ### The product that a Clause names -/

theorem namedBeam_yields (s : State) (f : Fn) (pid : Nat) : Yields (fun y => s.fzProd pid = some y.2) (namedBeam s f pid) :=
  ⟨fun _ h => (namedBeam_ok h).2⟩

theorem findBeam_yields (s : State) (pid : Nat) : Yields (fun y => s.fzProd pid = some y.2) (findBeam s pid) :=
  ⟨fun _ h => (findBeam_ok h).2⟩

/-- A change that keeps the product's number takes its place. -/
theorem State.setFzProd_changed {y : FzProd} (h : s.fzProd pid = some x) (hy : y.pid = x.pid) :
    (s.setFzProd y).fzProd pid = some y := State.setFzProd_fzProd h (hy.trans (State.fzProd_pid h))

theorem State.untake_fzProd (s : State) (src : Src) (pid : Nat) : (untake s src).fzProd pid = s.fzProd pid :=
  State.fzProd_congr (untake_same s src).frieze pid

theorem State.untake_counterIn (s : State) (src : Src) (ns : Nat) : (untake s src).counterIn ns = s.counterIn ns := by
  unfold State.counterIn
  rw [(untake_same s src).intake]

theorem State.untake_counterAt (s : State) (src : Src) (t : Nat) : (untake s src).counterAt t = s.counterAt t := by
  unfold State.counterAt
  rw [(untake_same s src).intake]

theorem beamChained_untake (s : State) (src : Src) (x : FzProd) : beamChained (untake s src) x = beamChained s x := by
  unfold beamChained
  rw [(untake_same s src).chisel]

theorem beamStarted_untake (s : State) (src : Src) (x : FzProd) : beamStarted (untake s src) x = beamStarted s x := by
  unfold beamStarted
  rw [(untake_same s src).intake]

/-- The boundary counts from the front that the Clause found. -/
theorem nextRecordBoundary_untake (s : State) (src : Src) (x : FzProd) :
    nextRecordBoundary (untake s src) x = nextRecordBoundary s x := by
  unfold nextRecordBoundary
  rw [(untake_same s src).intake]

/-! ### Defining, stopping and resuming a product -/

theorem putEntries_products (s : State) (b : Bool) (es : List (Nat × Nat)) : (putEntries s b es).products = s.products := by
  unfold putEntries
  dsimp only
  split <;> rfl

theorem beamDefine_yields (s : State) (f : Fn) (p0 : FzProd) (handle flags sh shP : Nat) (route : U32) (buf : HBuf)
    (data : HRead) : Yields (fun a =>
      (∃ p, a.1.product p0.pid = some p ∧ p.kind = .beam ∧ p.route = route ∧ p.world = worldOf f ∧ p.seq = 0) ∧
      ∃ p ∈ a.1.frieze.prods, p.pid = p0.pid ∧ p.beams = p0.beams ∧ p.beamBase = p0.beamBase ∧ p.map = p0.map ∧
        p.role = p0.role ∧ p.area = p.ownArea ∧ p.start % 2 ^ p0.log2T = 0)
      (beamDefine s f p0 handle flags sh shP route buf data) := by
  unfold beamDefine
  repeat refine .after fun _ => ?_
  refine .ite (.error _) ?_
  repeat refine .after fun _ => ?_
  refine .ok ?_
  rw [State.product_congr ((State.store_products ..).trans (putEntries_products ..)), State.store_frieze,
    (putEntries_prods ..).1]
  exact ⟨⟨_, State.setProduct_product_self .., rfl, rfl, rfl, rfl⟩,
    _, List.mem_append_right _ (List.mem_singleton_self _), rfl, rfl, rfl, rfl, rfl, rfl, start_mod ..⟩

theorem beamRelease_eq {f : Fn} (h : namedBeam s f pid = .ok (p, x)) (hx : x.stop = none) (hc : beamChained s x = false) :
    beamRelease s f pid = if p.suspended then deferred (dropFrieze s pid) 1 s.intake.front
      else deferred (stopBeam s x true).1 1 (nextRecordBoundary s x) := by
  unfold beamRelease
  rw [h]
  dsimp only [bind, Except.bind]
  rw [hc, hx]
  rfl

theorem beamSuspend_eq {f : Fn} (h : namedBeam s f pid = .ok (p, x)) (hx : x.stop = none) (hp : p.suspended = false) :
    beamSuspend s f pid = deferred (stopBeam s x false).1 1 (nextRecordBoundary s x) := by
  unfold beamSuspend
  rw [h]
  dsimp only [bind, Except.bind]
  rw [hx, hp]
  rfl

theorem beamResume_yields (s : State) (f : Fn) (pid : Nat) : Yields (fun a => a.1.pair = s.pair ∧
    ∃ p x, a.1.product pid = some p ∧ p.suspended = false ∧ a.1.fzProd pid = some x ∧ x.stop = none ∧
      x.start = roundUp s.intake.front x.tr) (beamResume s f pid) := by
  unfold beamResume
  refine .after fun _ => .bind (findBeam_yields s pid) fun y hx => ?_
  repeat refine .after fun _ => ?_
  exact .ok ⟨rfl, _, _, State.setProduct_product_self .., rfl, State.setFzProd_changed hx rfl, rfl, rfl⟩

theorem resumed_beamResume_ok {f : Fn} {row : Nat → Nat} {u : State} {r : Reply} (ho : s.pair.owedTakeovers = [])
    (h : resumed (beamResume s f pid) row (fun _ => [pid]) = .ok (u, r)) :
    ∃ p x, u.product pid = some p ∧ p.suspended = false ∧ u.fzProd pid = some x ∧ x.stop = none ∧
      x.start = roundUp s.intake.front x.tr := by
  obtain ⟨v, hv, rfl⟩ := resumed_ok h
  obtain ⟨hpair, hx⟩ := (beamResume_yields ..).of_ok _ hv
  rwa [payTakeover_fold (by rw [hpair, ho])]

/-! ### The delay store -/

theorem delayLoad_yields (s : State) (f : Fn) (pid first count : Nat) (buf : HBuf) (data : HRead) : Yields (fun a =>
    a.2.wait.isSome = true ∧ a.1.frieze.bankB = s.frieze.bankB ∧
      ∀ x, s.fzProd pid = some x → s.frieze.single = false → beamStarted s x = true →
        a.1.fzProd pid = some { x with loaded := true }) (delayLoad s f pid first count buf data) := by
  unfold delayLoad
  refine .bind (namedBeam_yields s f pid) fun y hy => ?_
  repeat refine .after fun _ => ?_
  refine .ite (.error _) (.after fun _ => ?_)
  split
  · next active =>
    refine .ok ⟨rfl, (putEntries_prods ..).2, fun x hx hs hb => ?_⟩
    cases hy.symm.trans hx
    simp [hs, hb] at active
  · refine .ok ⟨rfl, (putEntries_prods ..).2, fun x hx _ _ => ?_⟩
    cases hy.symm.trans hx
    unfold State.fzProd
    rw [(putEntries_prods ..).1]
    exact State.setFzProd_changed hx rfl

theorem delaySwitch_yields (s : State) (time tRef : U96) : Yields (fun a => a.1.frieze.switch =
    some { time := timeOf time, tRef := timeOf tRef, counter := max (s.counterAt (timeOf time)) s.intake.front })
    (delaySwitch s time tRef) := by
  unfold delaySwitch
  repeat refine .after fun _ => ?_
  exact .ok rfl

/-- A swap starts at the front, or waits for the one whose copy is in progress. -/
theorem delaySwap_yields (s : State) (src : Src) (pid beam : Nat) (buf : HBuf) (data : HRead) : Yields (fun a =>
    ∃ x, x.pid = pid ∧ x.beam = beam ∧
      if s.frieze.swap = none then a.1.frieze.swap = some x ∧ x.row = s.intake.front
      else a.1.frieze.swaps = s.frieze.swaps ++ [x] ∧ a.2.wait.isSome = true) (delaySwap s src pid beam buf data) := by
  unfold delaySwap
  repeat refine .after fun _ => ?_
  refine .ite (.error _) (.after fun _ => ?_)
  cases s.frieze.swap with
  | none => exact .ok ⟨_, rfl, rfl, .intro rfl rfl⟩
  | some z => exact .ok ⟨_, rfl, rfl, .intro rfl rfl⟩

theorem delayMode_yields (s : State) (mode : Nat) : Yields (fun a => a.1.frieze.single = (mode == 1) ∧
    a.1.frieze.entriesA = [] ∧ a.1.frieze.entriesB = [] ∧ a.1.frieze.switch = none) (delayMode s mode) := by
  unfold delayMode
  repeat refine .after fun _ => ?_
  exact .ok ⟨rfl, rfl, rfl, rfl⟩

/-! ### Gains, shifts, route and import binding -/

/-- The allocation of a named area and its copy to the standby leave the products. -/
theorem copyArea_fzProd {c : Prop} [Decidable c] (v : State) (a : Alloc) (area len pid : Nat) :
    (copyArea (if c then v else addAlloc v a) area len).fzProd pid = v.fzProd pid := by
  refine State.fzProd_congr ((copyArea_frieze ..).trans ?_) pid
  split <;> rfl

theorem beamSetGains_yields (s : State) (src : Src) (pid which area boundary : Nat) : Yields (fun a =>
    ∃ x c, a.1.fzProd pid = some x ∧ x.gainChange = some c ∧ c.src = src ∧
      c.area = (if which = 0 then x.ownArea else area) ∧
      c.boundary = (if boundary = 0 then roundUp (s.counterIn 20000) 256 else boundary))
    (beamSetGains s src pid which area boundary) := by
  unfold beamSetGains
  refine .bind (namedBeam_yields s src.fn pid) fun y hx => ?_
  iterate 2 refine .after fun _ => ?_
  refine .ite ?_ ?_
  · repeat refine .after fun _ => ?_
    exact .ok ⟨_, _, (copyArea_fzProd ..).trans (State.setFzProd_changed hx rfl), rfl, rfl, rfl, rfl⟩
  · repeat refine .after fun _ => ?_
    exact .ok ⟨_, _, (copyArea_fzProd ..).trans (State.setFzProd_changed hx rfl), rfl, rfl, rfl, rfl⟩

theorem beamSetScale_yields (f : Fn) (first count sh shP : Nat) (hx : s.fzProd pid = some x) : Yields (fun a =>
    a.1.fzProd pid = some { x with newShifts := x.newShifts ++
      ((span first (first + count)).map fun k => (k, nextRecordBoundary s x, if x.format = 2 then shP else sh)) })
    (beamSetScale s f pid first count sh shP) := by
  unfold beamSetScale
  refine .bind (namedBeam_yields s f pid) fun y hy => ?_
  cases hx.symm.trans hy
  repeat refine .after fun _ => ?_
  exact .ok (State.setFzProd_changed hx rfl)

theorem beamSetRoute_yields (s : State) (f : Fn) (pid : Nat) (route : U32) (mask : Nat) : Yields (fun a =>
    ∃ p x, a.1.product pid = some p ∧ p.routeChange = some { fromSeq := p.seq, route := route } ∧
      a.1.fzProd pid = some x ∧ x.emit = emitMask x.beams mask) (beamSetRoute s f pid route mask) := by
  unfold beamSetRoute
  refine .bind (findBeam_yields s pid) fun y hx => ?_
  repeat refine .after fun _ => ?_
  exact .ok ⟨_, _, State.setProduct_product_self .., rfl, State.setFzProd_changed hx rfl, rfl⟩

theorem importBind_yields (s : State) (f : Fn) (pid first : Nat) (serial : U32) (remote window : Nat) : Yields (fun a =>
    ∃ x i, a.1.fzProd pid = some x ∧ x.imp = some i ∧ i.group = first ∧ i.serial = serial ∧ i.remote = remote ∧
      i.window = window ∧ i.arrived = []) (importBind s f pid first serial remote window) := by
  unfold importBind
  refine .bind (namedBeam_yields s f pid) fun y hx => ?_
  repeat refine .after fun _ => ?_
  exact .ok ⟨_, _, State.setFzProd_changed hx rfl, rfl, rfl, rfl, rfl, rfl, rfl⟩

end

/-- Settles O16: an accepted Clause ends in the answer to what its body made. -/
theorem beamClausesComplete : Obligations.BeamClausesComplete := by
  unfold Obligations.BeamClausesComplete
  refine ⟨fun src pid handle flags chBase chCount beams beamBase log2T log2Np sh shP route buf data s hs ha => ?_,
    fun src pid s p x hs hn hst hch => ?_, fun src pid s p x hs hn hst hp => ?_, fun src pid s hs ha => ?_,
    fun src pid first count buf data s hs ha => ?_, fun src time tRef s hs ha => ?_,
    fun src pid beam buf data s hs ha => ?_, fun src mode s hs ha => ?_, fun src pid which area boundary s hs ha => ?_,
    fun src pid first count sh shP s x hs ha hx => ?_, fun src pid route mask s hs ha => ?_,
    fun src pid first serial remote window s hs ha => ?_, fun src buf s hs hl => ?_⟩
  · refine exec_done (body := (beamDefine · src.fn _ handle.toNat flags.toNat sh.toNat shP.toNat route buf data))
      rfl rfl hs ha fun u r hb k => ?_
    rw [State.product_congr k.products, k.frieze]
    exact (beamDefine_yields ..).of_ok _ hb
  · have hb := beamRelease_eq hn hst ((beamChained_untake ..).trans hch)
    rw [nextRecordBoundary_untake, (untake_same s src).intake] at hb
    split at hb
    · next h =>
      rw [if_pos h]
      exact runClause_defers (i := .beamRelease src pid) (body := (beamRelease · src.fn pid.toNat)) rfl hs hb
    · next h =>
      rw [if_neg h]
      exact runClause_defers (i := .beamRelease src pid) (body := (beamRelease · src.fn pid.toNat)) rfl hs hb
  · have hb := beamSuspend_eq hn hst hp
    rw [nextRecordBoundary_untake] at hb
    exact runClause_defers (i := .beamSuspend src pid) (body := (beamSuspend · src.fn pid.toNat)) rfl hs hb
  · refine exec_done (body := (fun s => resumed (beamResume s src.fn pid.toNat) id fun _ => [pid.toNat]))
      rfl rfl hs (accepts_resumed ha) fun u r hb k ho => ?_
    have hp := resumed_beamResume_ok ((congrArg Pair.owedTakeovers (untake_pair s src)).trans ho) hb
    rwa [(untake_same s src).intake, ← State.product_congr k.products, ← State.fzProd_congr k.frieze] at hp
  · refine exec_done (body := (delayLoad · src.fn pid.toNat first.toNat count.toNat buf data))
      rfl rfl hs ha fun u r hb k => ?_
    obtain ⟨hw, hbank, hload⟩ := (delayLoad_yields ..).of_ok _ hb
    refine ⟨answered_waits hw, ?_, fun x hx hsg hst => ?_⟩
    · rw [k.frieze, hbank, (untake_same s src).frieze]
    · rw [State.fzProd_congr k.frieze]
      rw [← State.untake_fzProd s src] at hx
      rw [← (untake_same s src).frieze] at hsg
      rw [← beamStarted_untake s src] at hst
      exact hload x hx hsg hst
  · refine exec_done (body := (delaySwitch · time tRef)) rfl rfl hs ha fun u r hb k => ?_
    rw [k.frieze, (delaySwitch_yields ..).of_ok _ hb, State.untake_counterAt, (untake_same s src).intake]
  · refine exec_done (body := (delaySwap · src pid.toNat beam.toNat buf data)) rfl rfl hs ha fun u r hb k => ?_
    obtain ⟨x, hpid, hbeam, hx⟩ := (delaySwap_yields ..).of_ok _ hb
    refine ⟨x, hpid, hbeam, ?_⟩
    rw [(untake_same s src).frieze, (untake_same s src).intake, ← k.frieze] at hx
    split at hx
    · next h => rwa [if_pos h]
    · next h =>
      obtain ⟨hswaps, hwait⟩ := hx
      rw [if_neg h]
      exact ⟨hswaps, answered_waits hwait⟩
  · refine exec_done (body := (delayMode · mode.toNat)) rfl rfl hs ha fun u r hb k => ?_
    rw [k.frieze]
    exact (delayMode_yields ..).of_ok _ hb
  · refine exec_done (body := (beamSetGains · src pid.toNat which.toNat area.toNat boundary.toNat))
      rfl rfl hs ha fun u r hb k => ?_
    rw [State.fzProd_congr k.frieze, ← State.untake_counterIn s src]
    exact (beamSetGains_yields ..).of_ok _ hb
  · refine exec_done (body := (beamSetScale · src.fn pid.toNat first.toNat count.toNat sh.toNat shP.toNat))
      rfl rfl hs ha fun u r hb k => ?_
    rw [State.fzProd_congr k.frieze, ← nextRecordBoundary_untake s src]
    exact (beamSetScale_yields _ _ _ _ _ ((State.untake_fzProd ..).trans hx)).of_ok _ hb
  · refine exec_done (body := (beamSetRoute · src.fn pid.toNat route mask.toNat)) rfl rfl hs ha fun u r hb k => ?_
    rw [State.product_congr k.products, State.fzProd_congr k.frieze]
    exact (beamSetRoute_yields ..).of_ok _ hb
  · refine exec_done (body := (importBind · src.fn pid.toNat first.toNat serial remote.toNat window.toNat))
      rfl rfl hs ha fun u r hb k => ?_
    rw [State.fzProd_congr k.frieze]
    exact (importBind_yields ..).of_ok _ hb
  · exact report_done (i := .beamQuery src buf) (f := (beamReport · src.fn)) rfl hs hl

end Sys2Proof.Machine

/-! ## The rows of the Frieze and the Chisel (O41) -/

namespace Sys2Proof.Machine
open Sys2Proof.Safety

section
variable {s : State} {pid : Nat} {p : FzProd}

/-! ### Rows, swaps and gain areas -/

/-- The Frieze takes the oldest settled row; forming its sums leaves the Intake. -/
theorem execFriezeRowProcess_takes {r : SettledRow} {rest : List SettledRow} (bad : List (Nat × Nat × Nat))
    (res : List (Nat × Nat × Nat × Nat)) (hg : gated s = false) (hr : s.intake.settled = r :: rest) :
    ∃ t, execFriezeRowProcess bad res s = .next t ∧ RowKept { s with intake := { s.intake with settled := rest } } t := by
  unfold execFriezeRowProcess
  rw [if_neg (by simp [hg]), hr]
  dsimp only
  have switched := (RowKept.refl { s with intake := { s.intake with settled := rest } }).dueSwitch r.counter
  refine ⟨_, rfl, .foldl (.foldl ?_ _ (fun u x => ?_) _) _ (fun u pid => ?_) _⟩
  · split
    · exact switched.noteExpiry _
    · exact switched
  · exact (RowKept.refl u).noteResidue _
  · exact (RowKept.refl u).prodRow ..

/-- The copy of a swap that no row and no other swap waits for: the beam's entries, and no swap is in progress. -/
theorem execDelaySwapCopyDone_copies {x : DelaySwap} (hg : gated s = false) (hx : s.frieze.swap = some x)
    (hs : s.frieze.swaps = []) (hr : rowsBefore s x.row = false) (hp : s.fzProd x.pid = some p) :
    execDelaySwapCopyDone s = .next { s with frieze := { s.frieze with
      entriesA := (beamEntries p (fzInputs s p).length x.beam (x.entries.map BitVec.toNat)).foldl
        (fun l e => wordPut e.1 e.2 l) (bankEntries s false),
      swap := none } } := by
  unfold execDelaySwapCopyDone
  rw [hg, hx]
  dsimp only
  rw [if_neg (by simp [hr]), hp]
  dsimp only [putEntries]
  rw [if_neg Bool.false_ne_true, hs]

/-- The gains of the boundary are at hand: the product reads the new area, and the old one is freed. -/
theorem execGainAreaReleased_moves {c : GainChange} (hp : s.fzProd pid = some p) (hc : p.gainChange = some c)
    (hb : (p.gains.any fun x => x.1 ≥ c.boundary / 256) = true) : ∃ t, execGainAreaReleased pid s = .next t ∧
      t.fzProd pid = some { p with area := c.area, gainChange := none } ∧
      t.hbm = { s.hbm with
        allocs := s.hbm.allocs.filter fun a => a.kind != .namedGain pid || a.base == c.area } := by
  unfold execGainAreaReleased
  rw [hp]
  dsimp only
  rw [hc]
  dsimp only
  rw [hb, Bool.or_true, if_pos rfl]
  refine ⟨_, rfl, ?_, (followEntry_same ..).hbm⟩
  exact (State.fzProd_congr (followEntry_same ..).frieze pid).trans (State.setFzProd_changed hp rfl)

/-! ### Imported sums -/

theorem execPsumRecordRx_badCrc {group : Nat} {serial : U32} {record : List Byte} (hg : gated s = false)
    (hc : recordCrcOk record = false) : execPsumRecordRx group serial record s =
      .next { s with frieze := { s.frieze with importMismatch := s.frieze.importMismatch + 1 } } := by
  unfold execPsumRecordRx
  rw [if_neg (by simp [hg]), hc]

theorem execPsumRecordRx_matched {group : Nat} {serial : U32} {record : List Byte} (hg : gated s = false)
    (hc : recordCrcOk record = true) (hp : s.frieze.prods.find? (psumMatches group serial record) = some p) :
    execPsumRecordRx group serial record s =
      .next (emitBeams ((List.range p.tr).foldl (fun t k => takePartial t p.pid (psumRow p record k)) s) p.pid) := by
  unfold execPsumRecordRx
  rw [if_neg (by simp [hg]), hc, hp]

/-- The sums that go on alone are counted; passing them on counts nothing more. -/
theorem execImportWindowExpiry_counts {im : Import} (hg : gated s = false) (hp : s.fzProd pid = some p)
    (hi : p.imp = some im) : ∃ t, execImportWindowExpiry pid s = .next t ∧
      t.frieze.importLate = s.frieze.importLate + BitVec.ofNat 32
        (im.waiting.filter fun w => decide (w.1 + im.window * (100 * nanos) ≤ s.now)).length := by
  unfold execImportWindowExpiry
  rw [hg, hp]
  dsimp only
  rw [hi]
  refine ⟨_, rfl, ?_⟩
  rw [((RowKept.refl _).emitBeams pid).late]
  exact congrArg (· + _) (RowKept.foldl ((RowKept.refl s).setFzProd _) _ (fun u w => (RowKept.refl u).passRow ..) _).late

/-! ### Rows, intervals and captures of a chain -/

section
variable {i : Fin 64} {res : List (Nat × Nat)}

theorem execChainRowProcess_takes {r : BeamRow} (hg : gated s = false) (hc : (s.chain i.val).state = .run)
    (hr : (s.chain i.val).inbox.find? (fun r => r.counter == (s.chain i.val).row) = some r) :
    execChainRowProcess i res s = .next (takeRow s i.val res { s.chain i.val with
      inbox := (s.chain i.val).inbox.filter fun r => (s.chain i.val).row < r.counter } (chainSums s (s.chain i.val) r)) := by
  unfold execChainRowProcess
  dsimp only
  rw [if_neg (by simp [hg, hc]), hr]

theorem execChainRowProcess_silent (hg : gated s = false) (hc : (s.chain i.val).state = .run)
    (hi : (s.chain i.val).inbox = []) (hb : beamSilent s (s.chain i.val) (s.chain i.val).row = true) :
    execChainRowProcess i res s = .next (takeRow s i.val res (s.chain i.val) (noSums (s.chain i.val))) := by
  have kept : { s.chain i.val with inbox := [] } = s.chain i.val := by rw [← hi]
  unfold execChainRowProcess
  dsimp only
  rw [if_neg (by simp [hg, hc]), hi]
  dsimp only [List.find?_nil, List.filter_nil]
  rw [if_pos hb, kept]

theorem execDetectIntervalEnd_due {x : Interval} {rest : List Interval} (hg : gated s = false)
    (hx : (s.chain i.val).dueIntervals = x :: rest) : execDetectIntervalEnd i s =
      .next (decideInterval (s.setChain i.val { s.chain i.val with dueIntervals := rest }) i.val x none) := by
  unfold execDetectIntervalEnd decideNext
  dsimp only
  rw [if_neg (by simp [hg]), hx]

theorem execCaptureCopyDone_sends {x : Capture} {rest : List Capture} {cap : Nat} (hg : gated s = false)
    (hx : (s.chain i.val).copying = x :: rest) (hc : (s.chain i.val).capture = some cap) :
    ∃ (u : State) (seq : Nat), execCaptureCopyDone i s = .next (u.setChain i.val { s.chain i.val with
      copying := rest, capSlots := vset (s.chain i.val).capSlots x.slot (some { id := x.id, seq := some seq }) }) := by
  unfold execCaptureCopyDone sendCapture
  dsimp only
  rw [if_neg (by simp [hg]), hx, hc]
  exact ⟨_, _, rfl⟩

end
end

/-- Settles O41: each event is its one branch under the statement's conditions. -/
theorem rowEvents : Obligations.RowEvents := by
  unfold Obligations.RowEvents
  refine fun s hg => ⟨fun r rest bad res hr => ?_, fun x p hx hs hr hp => ?_, fun pid p c hp hc hb => ?_,
    fun g serial record hc => execPsumRecordRx_badCrc hg hc, fun g serial record p hc hp => execPsumRecordRx_matched hg hc hp,
    fun pid p im hp hi => execImportWindowExpiry_counts hg hp hi, ?_, ?_, ?_, ?_⟩
  · obtain ⟨t, ht, kept⟩ := execFriezeRowProcess_takes bad res hg hr
    refine ⟨t, ht, ?_⟩
    rw [kept.intake]
    exact ⟨rfl, rfl⟩
  · exact ⟨_, execDelaySwapCopyDone_copies hg hx hs hr hp, rfl, rfl, rfl⟩
  · obtain ⟨t, ht, hprod, hhbm⟩ := execGainAreaReleased_moves hp hc hb
    refine ⟨t, ht, hprod, ?_⟩
    rw [hhbm]
    refine ⟨rfl, fun a ha hk => ?_⟩
    simpa [hk] using (List.mem_filter.mp ha).2
  · rintro i _ r res rfl hc hr
    exact execChainRowProcess_takes hg hc hr
  · rintro i _ rfl hc hi hb
    exact execChainRowProcess_silent hg hc hi hb
  · rintro i _ x rest rfl hx
    exact execDetectIntervalEnd_due hg hx
  · rintro i _ x rest cap rfl hx hc
    obtain ⟨u, seq, h⟩ := execCaptureCopyDone_sends hg hx hc
    refine ⟨_, h, ?_⟩
    rw [State.setChain_chain_self _ _ _ i.isLt]
    exact ⟨rfl, seq, rfl⟩

end Sys2Proof.Machine

/-! ## The ZOOM Clauses (O17) -/

namespace Sys2Proof.Machine
open Sys2Proof.Safety

section
variable {s : State} {f : Fn} {i : Nat} {c : Chain}

/-! ### Checks, and what a Clause reads -/

theorem refuseIf_yields (b : Bool) (st off : Nat) : Yields (fun _ => b = false) (refuseIf b st off) :=
  ⟨fun _ h => refuseIf_ok.mp h⟩

theorem readBuf_yields (buf : HBuf) (data : HRead) : Yields (fun bs => bs = data.getD []) (readBuf buf data) := by
  cases data with
  | none => exact .error _
  | some bs => exact .ok rfl

theorem findChain_yields (s : State) (i : Nat) : Yields (fun c => i < 64 ∧ s.chain i = c) (findChain s i) :=
  ⟨fun _ h => findChain_ok h⟩

/-- A body goes on with the chain that it names. -/
theorem Yields.ofNamedChain {α : Type} {P : α → Prop} {g : Chain → Except Reply α}
    (h : i < 64 → Yields P (g (s.chain i))) : Yields P (namedChain s f i >>= g) where
  of_ok a e := by
    obtain ⟨c, hc, ha⟩ := except_bind_ok.mp e
    obtain ⟨hi, rfl⟩ := namedChain_ok hc
    exact (h hi).of_ok a ha

theorem resumeBoundary_untake (s : State) (src : Src) (c : Chain) :
    resumeBoundary (untake s src) c = resumeBoundary s c := by
  unfold resumeBoundary
  rw [(untake_same s src).intake]

/-- Referred times count from the Intake's epoch, which a Clause finds as it was (08 R248). -/
theorem indexAt_untake (s : State) (src : Src) (c : Chain) (u : Nat) : indexAt (untake s src) c u = indexAt s c u := by
  obtain ⟨e, he, -⟩ := untake_err s src
  rw [he]
  rfl

theorem freeCapSlot_untake (s : State) (src : Src) (c : Chain) : freeCapSlot (untake s src) c = freeCapSlot s c := by
  obtain ⟨e, he, -⟩ := untake_err s src
  rw [he]
  rfl

/-! ### Prototypes -/

theorem protoLoad_yields (s : State) (f : Fn) (m : Nat) (buf : HBuf) (data : HRead) : Yields (fun a =>
    ∃ h x, h < 8 ∧ vget s.chisel.protos h none = none ∧ vget a.1.chisel.protos h none = some x ∧ x.world = worldOf f ∧
      x.coefs = words32 (data.getD []) (16 * m) ∧ a.1.chisel.chains = s.chisel.chains) (protoLoad s f m buf data) := by
  unfold protoLoad
  iterate 3 refine .after fun _ => ?_
  split
  · exact .error _
  · next h hfree =>
    have hlt : h < 8 := List.mem_range.mp (List.mem_of_find?_eq_some hfree)
    refine .bind (readBuf_yields buf data) fun bs hbs => ?_
    iterate 2 refine .after fun _ => ?_
    exact .ok ⟨h, _, hlt, by simpa using List.find?_some hfree, vget_vset_self _ _ _ _ hlt, rfl,
      congrArg (words32 · _) hbs, rfl⟩

theorem namedProto_yields (s : State) (h off : Nat) : Yields (fun _ => h < 8) (namedProto s h off) where
  of_ok _ hp := by
    have named := orRefuse_ok.mp hp
    split at named
    · assumption
    · cases named

theorem protoFree_yields (s : State) (f : Fn) (h : Nat) : Yields (fun a =>
    vget a.1.chisel.protos h none = none ∧ a.1.chisel.chains = s.chisel.chains) (protoFree s f h) := by
  unfold protoFree
  refine .bind (namedProto_yields s h 8) fun _ hlt => ?_
  repeat refine .after fun _ => ?_
  exact .ok ⟨vget_vset_self _ _ _ _ hlt, rfl⟩

/-! ### Defining, stopping and resuming a chain -/

theorem addProducts_chisel (s : State) (f : Fn) (c : Chain) (us : List ZoomUse) :
    (addProducts s f c us).chisel = s.chisel := by
  unfold addProducts
  refine foldl_keeps State.chisel _ (fun _ _ => ?_) us s
  rfl

/-- A defined chain runs on its beam and products, with the tune settings of its block. -/
theorem zoomDefine_yields (s : State) (f : Fn) (i beam : Nat) (us : List ZoomUse) (event capture : Option Nat) (buf : HBuf)
    (data coefs : HRead) : Yields (fun a => (a.1.chain i).state = .run ∧ (a.1.chain i).beam = beam ∧
      (a.1.chain i).zoom = ((us.head?).map ZoomUse.pid).getD 0 ∧ (a.1.chain i).event = event ∧
      (a.1.chain i).capture = capture ∧ (a.1.chain i).tune = blockTune (data.getD []))
    (zoomDefine s f i beam us event capture buf data coefs) := by
  unfold zoomDefine
  iterate 2 refine .after fun _ => ?_
  refine .bind (refuseIf_yields ..) fun _ hi => ?_
  have hlt : i < 64 := by simpa using (Bool.or_eq_false_iff.mp hi).1
  refine .ite (.error _) (.bind (readBuf_yields buf data) fun bs hbs => ?_)
  iterate 19 refine .after fun _ => ?_
  refine .ok ?_
  rw [State.chain_congr (addProducts_chisel ..), State.setChain_chain_self _ _ _ hlt]
  exact ⟨rfl, rfl, rfl, rfl, rfl, congrArg blockTune hbs⟩

/-- A chain with no stop pending stops at its next ZOOM record boundary; a suspended one goes at once. -/
theorem zoomStop_eq {releasing : Bool} (h : namedChain s f i = .ok c) (hs : c.stop = none)
    (hr : (!releasing && c.state == .suspended) = false) : zoomStop s f i releasing =
      deferred (if c.state = .suspended then dropChain s i
        else chainStops (s.setChain i { c with stop := some (zoomBoundary c, releasing) }) i) 4 (zoomBoundary c) := by
  unfold zoomStop
  rw [h]
  dsimp only [bind, Except.bind]
  rw [hs, hr]
  by_cases hst : c.state = .suspended <;> simp [hst]

theorem zoomResume_yields (s : State) (f : Fn) (i : Nat) : Yields (fun a => a.1.pair = s.pair ∧
    (a.1.chain i).state = .run ∧ (a.1.chain i).stop = none ∧ (a.1.chain i).nOut = resumeBoundary s (s.chain i))
    (zoomResume s f i) := by
  unfold zoomResume
  refine .after fun _ => .bind (findChain_yields s i) ?_
  rintro c ⟨hi, rfl⟩
  repeat refine .after fun _ => ?_
  refine .ok ?_
  dsimp only
  rw [foldl_keeps State.pair _ fun t p => ?_, State.chain_congr (foldl_keeps State.chisel _ (fun t p => ?_) ..),
    State.setChain_chain_self _ _ _ hi]
  · exact ⟨rfl, rfl, rfl, rfl⟩
  · split <;> rfl
  · split <;> rfl

theorem resumed_zoomResume_ok {row : Nat → Nat} {pids : State → List Nat} {u : State} {r : Reply}
    (ho : s.pair.owedTakeovers = []) (h : resumed (zoomResume s f i) row pids = .ok (u, r)) :
    (u.chain i).state = .run ∧ (u.chain i).stop = none ∧ (u.chain i).nOut = resumeBoundary s (s.chain i) := by
  obtain ⟨v, hv, rfl⟩ := resumed_ok h
  obtain ⟨hpair, hchain⟩ := (zoomResume_yields ..).of_ok _ hv
  rwa [payTakeover_fold (by rw [hpair, ho])]

/-! ### FIR banks and settings: one chain is replaced -/

theorem firLoad_yields (s : State) (f : Fn) (i bank l sh delay : Nat) (buf : HBuf) (data : HRead) : Yields (fun a =>
    a.1.chain i =
      if bank = 1 then { s.chain i with bankB := { coefs := words32 (data.getD []) l, sh := sh, delay := delay } }
      else { s.chain i with bankA := { coefs := words32 (data.getD []) l, sh := sh, delay := delay } })
    (firLoad s f i bank l sh delay buf data) := by
  unfold firLoad
  refine .ofNamedChain fun hi => ?_
  iterate 4 refine .after fun _ => ?_
  refine .ite (.error _) (.bind (readBuf_yields buf data) ?_)
  rintro _ rfl
  iterate 2 refine .after fun _ => ?_
  exact .ok (State.setChain_chain_self _ _ _ hi)

theorem firSwitch_yields (s : State) (f : Fn) (i byTime fade : Nat) (time : U96) : Yields (fun a =>
    a.1.chain i = { s.chain i with switch := some {
      at_ := if byTime = 1 then indexAt s (s.chain i) (timeOf time) else time.toNat, fade := fade } })
    (firSwitch s f i byTime fade time) := by
  unfold firSwitch
  refine .ofNamedChain fun hi => ?_
  repeat refine .after fun _ => ?_
  exact .ok (State.setChain_chain_self _ _ _ hi)

theorem setTune_yields (s : State) (f : Fn) (i : Nat) (bs : List Byte) : Yields (fun a =>
    a.1.chain i = { s.chain i with nextTune := some (zoomBoundary (s.chain i), blockTune bs) }) (setTune s f i bs) := by
  unfold setTune
  refine .ofNamedChain fun hi => ?_
  repeat refine .after fun _ => ?_
  exact .ok (State.setChain_chain_self _ _ _ hi)

theorem setAlign_yields (s : State) (f : Fn) (i : Nat) (bs : List Byte) : Yields (fun a =>
    a.1.chain i = { s.chain i with nextAlign := some (zoomBoundary (s.chain i), blockAlign bs) }) (setAlign s f i bs) := by
  unfold setAlign
  refine .ofNamedChain fun hi => ?_
  repeat refine .after fun _ => ?_
  exact .ok (State.setChain_chain_self _ _ _ hi)

/-- The boundary is one of the intervals that the new settings sum (08 R271). -/
theorem setDetect_yields (s : State) (f : Fn) (i : Nat) (bs : List Byte) : Yields (fun a =>
    a.1.chain i = { s.chain i with nextDetect :=
      ((s.chain i).nextDetect.filter fun x => x.1 < roundUp (s.chain i).nOut (2 ^ (blockDetect bs).log2N)) ++
        [(roundUp (s.chain i).nOut (2 ^ (blockDetect bs).log2N), blockDetect bs)] }) (setDetect s f i bs) := by
  unfold setDetect
  refine .ofNamedChain fun hi => ?_
  repeat refine .after fun _ => ?_
  exact .ok (State.setChain_chain_self _ _ _ hi)

theorem rebaseline_yields (s : State) (f : Fn) (i kind value : Nat) : Yields (fun a =>
    a.1.chain i = { s.chain i with nextRebase := some (intervalBoundary (s.chain i),
      if kind = 0 then .seed else if kind = 1 then .value value else .learn) }) (rebaseline s f i kind value) := by
  unfold rebaseline
  refine .ofNamedChain fun hi => ?_
  repeat refine .after fun _ => ?_
  exact .ok (State.setChain_chain_self _ _ _ hi)

/-! ### Captures and routes -/

/-- A manual capture opens in the free slot at the index named, or at the chain's next. -/
theorem captureNow_yields {k : Nat} (index : Nat) (h : namedChain s f i = .ok c) (hk : freeCapSlot s c = some k) :
    Yields (fun a => a = (openCapture s i k 0x80 (if index = 0 then c.nOut else index),
      Reply.mk' stDeferred 5 (c.nextCapture % 2 ^ 64) 0 0)) (captureNow s f i index) := by
  unfold captureNow
  rw [h]
  refine .bind (Q := (· = c)) (.ok rfl) ?_
  rintro _ rfl
  iterate 3 refine .after fun _ => ?_
  rw [hk]
  exact .ok rfl

theorem zoomSetRoute_eq {which pid : Nat} {route : U32} {p : Product} (h : findChain s i = .ok c)
    (hpid : (if which = 0 then some c.zoom else if which = 1 then c.event else if which = 2 then c.capture else none) =
      some pid) (hp : s.product pid = some p) : zoomSetRoute s f i which route = setRoute s f p route 12 := by
  unfold zoomSetRoute
  rw [h]
  dsimp only [bind, Except.bind]
  rw [hpid]
  dsimp only [orRefuse]
  rw [hp]

end

/-- Settles O17: an accepted Clause ends in the answer to what its body made, and the state it found is the one before the
Clause left the Armature in every part that a body reads. -/
theorem zoomClausesComplete : Obligations.ZoomClausesComplete := by
  unfold Obligations.ZoomClausesComplete
  refine ⟨fun src m buf data s hs ha => ?_, fun src handle s hs ha => ?_, ?_, fun src chain s c hs hn hst => ?_,
    fun src chain s c hs hn hst hrun => ?_, ?_, ?_, ?_, ?_, ?_, ?_, ?_,
    fun src chain index s c k hs hn ha hk => ?_, fun src chain which route s c p pid hs hf hpid hp ha => ?_,
    fun src buf s hs hl => ?_⟩
  · refine exec_done (body := (protoLoad · src.fn m.toNat buf data)) rfl rfl hs ha fun u r hb k => ?_
    rw [k.chisel, ← (untake_same s src).chisel]
    exact (protoLoad_yields ..).of_ok _ hb
  · refine exec_done (body := (protoFree · src.fn handle.toNat)) rfl rfl hs ha fun u r hb k => ?_
    rw [k.chisel, ← (untake_same s src).chisel]
    exact (protoFree_yields ..).of_ok _ hb
  · rintro src chain beam zoom event capture routeZ routeE routeC buf data coefs _ _ _ s hs rfl rfl rfl ha
    refine exec_done (body := (zoomDefine · src.fn chain.toNat beam.toNat _ _ _ buf data coefs))
      rfl rfl hs ha fun u r hb k => ?_
    rw [State.chain_congr k.chisel]
    exact (zoomDefine_yields ..).of_ok _ hb
  · exact runClause_defers (i := .zoomRelease src chain) (body := (zoomStop · src.fn chain.toNat true)) rfl hs
      (zoomStop_eq hn hst rfl)
  · have hb := zoomStop_eq (releasing := false) hn hst (by rw [hrun]; rfl)
    rw [if_neg (by rw [hrun]; decide)] at hb
    exact runClause_defers (i := .zoomSuspend src chain) (body := (zoomStop · src.fn chain.toNat false)) rfl hs hb
  · rintro src chain s _ hs ha rfl ho
    refine exec_done (body := (fun s => resumed (zoomResume s src.fn chain.toNat) id fun t =>
      (chainProducts (t.chain chain.toNat)).map Prod.fst)) rfl rfl hs (accepts_resumed ha) fun u r hb k => ?_
    have hc := resumed_zoomResume_ok ((congrArg Pair.owedTakeovers (untake_pair s src)).trans ho) hb
    rwa [resumeBoundary_untake, chain_untake, ← State.chain_congr k.chisel] at hc
  · rintro src chain bank len shift delay buf data s _ _ hs rfl rfl ha
    refine exec_done (body := (firLoad · src.fn chain.toNat bank.toNat len.toNat shift.toNat delay.toNat buf data))
      rfl rfl hs ha fun u r hb k => ?_
    rw [State.chain_congr k.chisel, (firLoad_yields ..).of_ok _ hb, chain_untake]
  · rintro src chain byTime fade time s _ hs rfl ha
    refine exec_done (body := (firSwitch · src.fn chain.toNat byTime.toNat fade.toNat time))
      rfl rfl hs ha fun u r hb k => ?_
    rw [State.chain_congr k.chisel, (firSwitch_yields ..).of_ok _ hb, chain_untake, indexAt_untake]
  · rintro src chain block s _ hs rfl ha
    refine exec_done (body := (setTune · src.fn chain.toNat (leBytes 32 block.toNat))) rfl rfl hs ha fun u r hb k => ?_
    rw [State.chain_congr k.chisel, (setTune_yields ..).of_ok _ hb, chain_untake]
  · rintro src chain block s _ hs rfl ha
    refine exec_done (body := (setAlign · src.fn chain.toNat (leBytes 16 block.toNat))) rfl rfl hs ha fun u r hb k => ?_
    rw [State.chain_congr k.chisel, (setAlign_yields ..).of_ok _ hb, chain_untake]
  · rintro src chain block s _ _ _ hs rfl rfl rfl ha
    refine exec_done (body := (setDetect · src.fn chain.toNat (leBytes 40 block.toNat))) rfl rfl hs ha fun u r hb k => ?_
    rw [State.chain_congr k.chisel, (setDetect_yields ..).of_ok _ hb, chain_untake]
  · rintro src chain kind value s _ hs rfl ha
    refine exec_done (body := (rebaseline · src.fn chain.toNat kind.toNat value.toNat)) rfl rfl hs ha fun u r hb k => ?_
    rw [State.chain_congr k.chisel, (rebaseline_yields ..).of_ok _ hb, chain_untake]
    rfl
  · obtain ⟨u, r, hb⟩ := (accepts_iff _).mp ha
    cases (captureNow_yields _ hn ((freeCapSlot_untake ..).trans hk)).of_ok _ hb
    exact runClause_accepted (i := .zoomCaptureNow src chain index) (body := (captureNow · src.fn chain.toNat index.toNat))
      rfl hs hb
  · have he := zoomSetRoute_eq (f := src.fn) (route := route) hf hpid ((State.untake_product ..).trans hp)
    refine exec_done (body := (zoomSetRoute · src.fn chain.toNat which.toNat route)) rfl rfl hs
      ((congrArg accepts he).trans ha) fun u r hb k => ?_
    rw [State.product_congr k.products]
    exact setRoute_ok (he.symm.trans hb)
  · exact report_done (i := .zoomQuery src buf) (f := (chainReport · src.fn)) rfl hs hl

end Sys2Proof.Machine
